-- ==== Sys2Proof/Word.lean ====
section
/-! DEFINITION. The word types of the machine and the sparse tables its state is made of. -/

namespace Sys2Proof

/-- A 64-bit scalar value (R296). -/
abbrev Word := BitVec 64

/-- A 32-bit word of a bundle (R264). -/
abbrev Word32 := BitVec 32

/-- One byte. -/
abbrev Byte := BitVec 8

/-- A vector register, latch or operand port: 2,048 bits (file 13). -/
abbrev Vec := BitVec 2048

/-- A lane mask: bit k governs byte k (R332). -/
abbrev Mask := BitVec 256

/-- The 128-byte image of a nest register (R323). -/
abbrev NestImage := BitVec 1024

/-- A sparse table: the entries of a numbered family that have been written. -/
abbrev Tab (α : Type) := List (Nat × α)

/-- The entry with key k, if the table has one. -/
def Tab.get? {α : Type} : Tab α → Nat → Option α
  | [], _ => none
  | (j, a) :: t, k => if j = k then some a else Tab.get? t k

/-- The entry with key k, or the family's default where none has been written. -/
def Tab.get {α : Type} (t : Tab α) (k : Nat) (dflt : α) : α :=
  match Tab.get? t k with
  | some a => a
  | none => dflt

/-- The table with entry k set to a. -/
def Tab.set {α : Type} : Tab α → Nat → α → Tab α
  | [], k, a => [(k, a)]
  | (j, b) :: t, k, a => if j = k then (k, a) :: t else (j, b) :: Tab.set t k a

/-- The table without entry k. -/
def Tab.del {α : Type} : Tab α → Nat → Tab α
  | [], _ => []
  | (j, b) :: t, k => if j = k then Tab.del t k else (j, b) :: Tab.del t k

/-- The keys that have been written. -/
def Tab.keys {α : Type} (t : Tab α) : List Nat := t.map (·.1)

end Sys2Proof
end

