-- ==== Sys2Proof/Config.lean ====
section
/-! DEFINITION. What an implementation fixes and the free values: the constants of this file that have no body stand
for what the spec leaves open, and nothing can be proved of their values (notes/assumptions/5.md, 8.md). -/

namespace Sys2Proof.Config

/-- A free value: what the spec leaves open (a choice among agents, a sensor reading, a duration), applied to the
counter `fresh` of the state, which a step that takes one advances. -/
opaque freeValue : Nat → Nat

/-- Whether a 32-byte local-store sector that is written while an engine command reads it is read new (R156): applied
to the command's serial number and the sector. -/
opaque readsNew : Nat → Nat → Bool

/-- Whether the route to a peer carries atomics (R192). -/
opaque routeCarriesAtomics : Nat → Bool

/-- Whether the bytes of a signed object carry valid signatures of the given signer (R36, R73, R81). -/
opaque signatureOk : Nat → Nat → Bool

/-- The version of a firmware image, whose layout is not given (R70). -/
opaque imageVersion : Nat → Nat

/-- What the body of a record of kind 2 disables, whose layout is not given (R3, R36): core sites, slices, columns. -/
opaque recordCores : Nat → List Nat
opaque recordSlices : Nat → List Nat
opaque recordColumns : Nat → List Nat

/-- The part number in the body of a record of kind 2, whose layout is not given (R3, R36). -/
opaque recordPart : Nat → Nat

/-- The slice of a cluster's second level and the set in it that a line falls into, as one number, whose hash is not given
(R171, R175). -/
opaque setOf : Nat → Nat

/-- Where the second level holds a dirty line, which the spec leaves open (R177): 16 * cluster + way. -/
opaque dirtyPlace : Nat → Nat

/-- What the body of a record of kind 3 says of a column, whose layout is not given (R36): failed lanes of each group. -/
opaque recordLanes : Nat → Nat → List (Nat × Nat)

/-- What a key of the memory encryption engines makes of a byte at an address: the byte crosses with these bits changed (R67). Keys
are numbered by slot and generation. -/
opaque keyPad : Nat → Nat → BitVec 8

/-- Where the policy firmware image begins and what it starts the registers with, which its layout does not tell (R70, R83): applied
to the image's version. -/
opaque policyStart : Nat → BitVec 32 × List (Nat × BitVec 32)

/-- What a policy core's tightly coupled memory holds of the verified image, packed: the image's layout is not given (R70, R83). -/
opaque policyMemory : Nat → Nat

/-- What an SPDM responder puts into a response besides the fields the spec fixes (nonces, signatures; R71). -/
opaque spdmBody : Nat → Nat → Nat

end Sys2Proof.Config
end

