-- ==== Sys2Proof/Syntax.lean ====
section
/-! DEFINITION. The instruction type: one constructor for every row of the opcode table (file 95: the part's
steps, each whole and indivisible; files 12 to 14: the slot forms). The event constructors carry what the outside
world or the device supplies with the step; the slot forms carry the fields of their word (R267, R278, R354, R355). -/

namespace Sys2Proof

/-- Who makes a coherent memory request from outside the cores, and what it asks (R185, R193, R205, R51). -/
structure MemReq where
  /-- host function, guest or peer port number, as the event that carries it says -/
  agent : Nat
  /-- physical address of the first byte -/
  addr : Nat
  /-- number of bytes -/
  len : Nat
  /-- 0 read, 1 write, 2 read for ownership, 3 write back an owned line, 4 drop a shared line (guest and host), 5 read to
  keep a shared copy (host), others a kind that is not served -/
  kind : Nat
  /-- the bytes written, little-endian -/
  data : Nat
  deriving DecidableEq, Repr

/-- One step of the part (opcode_table.json). -/
inductive Instr where
  /-- Add two values modulo 2^64 (R299). -/
  | add (om : BitVec 2) (os : BitVec 7) (ts : BitVec 7) (wd : BitVec 6) (we : BitVec 1)
  /-- Subtract modulo 2^64 (R299). -/
  | sub (om : BitVec 2) (os : BitVec 7) (ts : BitVec 7) (wd : BitVec 6) (we : BitVec 1)
  /-- Bitwise AND (R299). -/
  | and (om : BitVec 2) (os : BitVec 7) (ts : BitVec 7) (wd : BitVec 6) (we : BitVec 1)
  /-- Bitwise OR (R299). -/
  | or (om : BitVec 2) (os : BitVec 7) (ts : BitVec 7) (wd : BitVec 6) (we : BitVec 1)
  /-- Bitwise XOR (R299). -/
  | xor (om : BitVec 2) (os : BitVec 7) (ts : BitVec 7) (wd : BitVec 6) (we : BitVec 1)
  /-- A AND NOT B (R299). -/
  | andn (om : BitVec 2) (os : BitVec 7) (ts : BitVec 7) (wd : BitVec 6) (we : BitVec 1)
  /-- A OR NOT B (R299). -/
  | orn (om : BitVec 2) (os : BitVec 7) (ts : BitVec 7) (wd : BitVec 6) (we : BitVec 1)
  /-- Shift left by B[5:0] (R299). -/
  | shl (om : BitVec 2) (os : BitVec 7) (ts : BitVec 7) (wd : BitVec 6) (we : BitVec 1)
  /-- Logical shift right by B[5:0] (R299). -/
  | shr (om : BitVec 2) (os : BitVec 7) (ts : BitVec 7) (wd : BitVec 6) (we : BitVec 1)
  /-- Arithmetic shift right by B[5:0] (R299). -/
  | sra (om : BitVec 2) (os : BitVec 7) (ts : BitVec 7) (wd : BitVec 6) (we : BitVec 1)
  /-- Rotate left by B[5:0] (R299). -/
  | rotl (om : BitVec 2) (os : BitVec 7) (ts : BitVec 7) (wd : BitVec 6) (we : BitVec 1)
  /-- Signed minimum (R299). -/
  | min (om : BitVec 2) (os : BitVec 7) (ts : BitVec 7) (wd : BitVec 6) (we : BitVec 1)
  /-- Signed maximum (R299). -/
  | max (om : BitVec 2) (os : BitVec 7) (ts : BitVec 7) (wd : BitVec 6) (we : BitVec 1)
  /-- Unsigned minimum (R299). -/
  | minu (om : BitVec 2) (os : BitVec 7) (ts : BitVec 7) (wd : BitVec 6) (we : BitVec 1)
  /-- Unsigned maximum (R299). -/
  | maxu (om : BitVec 2) (os : BitVec 7) (ts : BitVec 7) (wd : BitVec 6) (we : BitVec 1)
  /-- Set predicate if A = B (R300). -/
  | seq (om : BitVec 2) (os : BitVec 7) (ts : BitVec 7) (wd : BitVec 3) (we : BitVec 1)
  /-- Set predicate if A ≠ B (R300). -/
  | sne (om : BitVec 2) (os : BitVec 7) (ts : BitVec 7) (wd : BitVec 3) (we : BitVec 1)
  /-- Set predicate if A < B, signed (R300). -/
  | slt (om : BitVec 2) (os : BitVec 7) (ts : BitVec 7) (wd : BitVec 3) (we : BitVec 1)
  /-- Set predicate if A < B, unsigned (R300). -/
  | sltu (om : BitVec 2) (os : BitVec 7) (ts : BitVec 7) (wd : BitVec 3) (we : BitVec 1)
  /-- Set predicate if A ≤ B, signed (R300). -/
  | sle (om : BitVec 2) (os : BitVec 7) (ts : BitVec 7) (wd : BitVec 3) (we : BitVec 1)
  /-- Set predicate if A ≤ B, unsigned (R300). -/
  | sleu (om : BitVec 2) (os : BitVec 7) (ts : BitVec 7) (wd : BitVec 3) (we : BitVec 1)
  /-- Set predicate if (A AND B) ≠ 0 (R300). -/
  | pset (om : BitVec 2) (os : BitVec 7) (ts : BitVec 7) (wd : BitVec 3) (we : BitVec 1)
  /-- Predicate AND (R300). -/
  | pand (b : BitVec 3) (a : BitVec 3) (wd : BitVec 3) (we : BitVec 1)
  /-- Predicate OR (R300). -/
  | por (b : BitVec 3) (a : BitVec 3) (wd : BitVec 3) (we : BitVec 1)
  /-- Predicate XOR (R300). -/
  | pxor (b : BitVec 3) (a : BitVec 3) (wd : BitVec 3) (we : BitVec 1)
  /-- Select A or B by the header-named predicate (R300). -/
  | sel (om : BitVec 2) (os : BitVec 7) (ts : BitVec 7) (wd : BitVec 6) (we : BitVec 1)
  /-- Count leading zeros (R299). -/
  | clz (ts : BitVec 7) (wd : BitVec 6) (we : BitVec 1)
  /-- Count trailing zeros (R299). -/
  | ctz (ts : BitVec 7) (wd : BitVec 6) (we : BitVec 1)
  /-- Population count (R299). -/
  | popc (ts : BitVec 7) (wd : BitVec 6) (we : BitVec 1)
  /-- Sign-extend from the Q size (R299). -/
  | sext (ts : BitVec 7) (wd : BitVec 6) (we : BitVec 1) (q : BitVec 2)
  /-- Zero-extend from the Q size (R299). -/
  | zext (ts : BitVec 7) (wd : BitVec 6) (we : BitVec 1) (q : BitVec 2)
  /-- Extract a bit field (R301). -/
  | bext (om : BitVec 2) (os : BitVec 7) (ts : BitVec 7) (wd : BitVec 6) (we : BitVec 1)
  /-- Insert a bit field into sWD (R301). -/
  | bins (om : BitVec 2) (os : BitVec 7) (ts : BitVec 7) (wd : BitVec 6)
  /-- A + B × 2^Q (R299). -/
  | lea (om : BitVec 2) (os : BitVec 7) (ts : BitVec 7) (wd : BitVec 6) (we : BitVec 1) (q : BitVec 2)
  /-- Place A in a masked field (R301). -/
  | wfield (om : BitVec 2) (os : BitVec 7) (ts : BitVec 7) (wd : BitVec 6) (we : BitVec 1)
  /-- Low 64 bits of the product (R302). -/
  | mul (om : BitVec 2) (os : BitVec 7) (ts : BitVec 7) (wd : BitVec 6) (we : BitVec 1)
  /-- High bits of the signed product (R302). -/
  | mulh (om : BitVec 2) (os : BitVec 7) (ts : BitVec 7) (wd : BitVec 6) (we : BitVec 1)
  /-- High bits of the unsigned product (R302). -/
  | mulhu (om : BitVec 2) (os : BitVec 7) (ts : BitVec 7) (wd : BitVec 6) (we : BitVec 1)
  /-- Signed divide (R302). -/
  | div (om : BitVec 2) (os : BitVec 7) (ts : BitVec 7) (wd : BitVec 6) (we : BitVec 1)
  /-- Unsigned divide (R302). -/
  | divu (om : BitVec 2) (os : BitVec 7) (ts : BitVec 7) (wd : BitVec 6) (we : BitVec 1)
  /-- Signed remainder (R302). -/
  | rem (om : BitVec 2) (os : BitVec 7) (ts : BitVec 7) (wd : BitVec 6) (we : BitVec 1)
  /-- Unsigned remainder (R302). -/
  | remu (om : BitVec 2) (os : BitVec 7) (ts : BitVec 7) (wd : BitVec 6) (we : BitVec 1)
  /-- Sign-extending local-store load (R303). -/
  | ld (om : BitVec 2) (os : BitVec 7) (ts : BitVec 7) (wd : BitVec 6) (we : BitVec 1) (q : BitVec 2)
  /-- Zero-extending local-store load (R303). -/
  | ldu (om : BitVec 2) (os : BitVec 7) (ts : BitVec 7) (wd : BitVec 6) (we : BitVec 1) (q : BitVec 2)
  /-- Local-store store (R303). -/
  | st (om : BitVec 2) (os : BitVec 7) (ts : BitVec 7) (wd : BitVec 6) (q : BitVec 2)
  /-- Global load landing at t + LD, possibly parking on a translation fault (R304). -/
  | ldG (om : BitVec 2) (os : BitVec 7) (ts : BitVec 7) (wd : BitVec 6) (we : BitVec 1) (q : BitVec 2)
  /-- Posted global store (R304). -/
  | stG (om : BitVec 2) (os : BitVec 7) (ts : BitVec 7) (wd : BitVec 6) (q : BitVec 2)
  /-- Load through an extent register (R305). -/
  | ldE (om : BitVec 2) (os : BitVec 7) (ts : BitVec 7) (wd : BitVec 6) (we : BitVec 1) (q : BitVec 2)
  /-- Store through an extent register (R305). -/
  | stE (om : BitVec 2) (os : BitVec 7) (ts : BitVec 7) (wd : BitVec 6) (q : BitVec 2)
  /-- Prefetch a line into the cache ways (R306). -/
  | pref (om : BitVec 2) (os : BitVec 7) (ts : BitVec 7)
  /-- Atomic add (R307). -/
  | amoAdd (om : BitVec 2) (os : BitVec 7) (ts : BitVec 7) (wd : BitVec 6) (we : BitVec 1) (q : BitVec 2)
  /-- Atomic AND (R307). -/
  | amoAnd (om : BitVec 2) (os : BitVec 7) (ts : BitVec 7) (wd : BitVec 6) (we : BitVec 1) (q : BitVec 2)
  /-- Atomic OR (R307). -/
  | amoOr (om : BitVec 2) (os : BitVec 7) (ts : BitVec 7) (wd : BitVec 6) (we : BitVec 1) (q : BitVec 2)
  /-- Atomic XOR (R307). -/
  | amoXor (om : BitVec 2) (os : BitVec 7) (ts : BitVec 7) (wd : BitVec 6) (we : BitVec 1) (q : BitVec 2)
  /-- Atomic signed minimum (R307). -/
  | amoMin (om : BitVec 2) (os : BitVec 7) (ts : BitVec 7) (wd : BitVec 6) (we : BitVec 1) (q : BitVec 2)
  /-- Atomic signed maximum (R307). -/
  | amoMax (om : BitVec 2) (os : BitVec 7) (ts : BitVec 7) (wd : BitVec 6) (we : BitVec 1) (q : BitVec 2)
  /-- Atomic unsigned minimum (R307). -/
  | amoMinu (om : BitVec 2) (os : BitVec 7) (ts : BitVec 7) (wd : BitVec 6) (we : BitVec 1) (q : BitVec 2)
  /-- Atomic unsigned maximum (R307). -/
  | amoMaxu (om : BitVec 2) (os : BitVec 7) (ts : BitVec 7) (wd : BitVec 6) (we : BitVec 1) (q : BitVec 2)
  /-- Atomic swap (R307). -/
  | amoSwap (om : BitVec 2) (os : BitVec 7) (ts : BitVec 7) (wd : BitVec 6) (we : BitVec 1) (q : BitVec 2)
  /-- Atomic compare and swap (R307). -/
  | amoCas (om : BitVec 2) (os : BitVec 7) (ts : BitVec 7) (wd : BitVec 6) (we : BitVec 1) (q : BitVec 2)
  /-- Atomic floating-point add (R307). -/
  | amoFadd (om : BitVec 2) (os : BitVec 7) (ts : BitVec 7) (wd : BitVec 6) (we : BitVec 1) (q : BitVec 2)
  /-- Bind a queue handle to a binding, with the home checks pending (R309). -/
  | qbind (om : BitVec 2) (os : BitVec 7) (ts : BitVec 7) (n : BitVec 3)
  /-- Posted blocking enqueue from the local store (R308). -/
  | enq (n : BitVec 3) (ts : BitVec 7)
  /-- Posted blocking enqueue of an 8-byte value (R308). -/
  | enqS (n : BitVec 3) (ts : BitVec 7)
  /-- Enqueue that returns FULL instead of waiting (R308). -/
  | enqT (n : BitVec 3) (ts : BitVec 7) (wd : BitVec 6) (we : BitVec 1)
  /-- Blocking dequeue to the local store (R308). -/
  | deq (n : BitVec 3) (ts : BitVec 7) (wd : BitVec 6) (we : BitVec 1)
  /-- Blocking dequeue of an 8-byte value (R308). -/
  | deqS (n : BitVec 3) (wd : BitVec 6) (we : BitVec 1)
  /-- Dequeue that returns EMPTY instead of waiting (R308). -/
  | deqT (n : BitVec 3) (ts : BitVec 7) (wd : BitVec 6) (we : BitVec 1)
  /-- Copy the head element without changing HEAD (R308). -/
  | qpeek (n : BitVec 3) (ts : BitVec 7) (wd : BitVec 6) (we : BitVec 1)
  /-- Read the binding status word (R112). -/
  | qstat (n : BitVec 3) (wd : BitVec 6) (we : BitVec 1)
  /-- Freeze until every enqueue of the binding is performed (R310). -/
  | qdrain (n : BitVec 3)
  /-- Relative jump (R311). -/
  | j (om : BitVec 2) (os : BitVec 7)
  /-- Register jump (R311). -/
  | jr (ts : BitVec 7)
  /-- Relative call (R311). -/
  | call (om : BitVec 2) (os : BitVec 7) (wd : BitVec 6) (we : BitVec 1)
  /-- Register call (R311). -/
  | callr (ts : BitVec 7) (wd : BitVec 6) (we : BitVec 1)
  /-- Return, as jr (R311). -/
  | ret (ts : BitVec 7)
  /-- Conditional relative branch (R311). -/
  | br (om : BitVec 2) (os : BitVec 7) (ts : BitVec 7) (q : BitVec 2)
  /-- Bind loop counters to a nest register (R313). -/
  | loop (k : BitVec 4)
  /-- Raise cause 56 (R318). -/
  | trap (om : BitVec 2) (os : BitVec 7)
  /-- Freeze until the fence kind's conditions hold at its scope (R194). -/
  | fenceInstruction (k : BitVec 3) (c : BitVec 3)
  /-- Write back dirty second-level copies of a range (R320). -/
  | cleanR (om : BitVec 2) (os : BitVec 7) (ts : BitVec 7)
  /-- Invalidate second-level copies of a range (R320). -/
  | invalR (om : BitVec 2) (os : BitVec 7) (ts : BitVec 7)
  /-- Clean, then invalidate, a range (R320). -/
  | flushR (om : BitVec 2) (os : BitVec 7) (ts : BitVec 7)
  /-- Post a publish of a private region through a handle (R321). -/
  | publish (om : BitVec 2) (os : BitVec 7) (ts : BitVec 7)
  /-- Read a control word (R322). -/
  | rdcw (om : BitVec 2) (os : BitVec 7) (wd : BitVec 6) (we : BitVec 1)
  /-- Write a control word (R322). -/
  | wrcw (om : BitVec 2) (os : BitVec 7) (ts : BitVec 7)
  /-- Load a nest register from the local store (R326). -/
  | nestSet (om : BitVec 2) (os : BitVec 7) (ts : BitVec 7) (k : BitVec 4)
  /-- Write a count or stride of a nest register (R326). -/
  | nestDim (om : BitVec 2) (os : BitVec 7) (ts : BitVec 7) (k : BitVec 4)
  /-- Write a base, kind or scale field of a nest register (R326). -/
  | nestBlk (om : BitVec 2) (os : BitVec 7) (ts : BitVec 7) (k : BitVec 4)
  /-- Arm a completion barrier word (R327). -/
  | bwInit (om : BitVec 2) (os : BitVec 7) (ts : BitVec 7)
  /-- Land a completion barrier word once it shows completion (R328). -/
  | bwWait (om : BitVec 2) (os : BitVec 7) (ts : BitVec 7) (wd : BitVec 6) (we : BitVec 1)
  /-- Park the context until a watched line is written or a limit passes (R329). -/
  | ctxPark (om : BitVec 2) (os : BitVec 7) (ts : BitVec 7)
  /-- Float add (R336). -/
  | vadd (om : BitVec 2) (os : BitVec 7) (ts : BitVec 7) (wd : BitVec 5) (we : BitVec 1) (q : BitVec 2)
  /-- Float subtract (R336). -/
  | vsub (om : BitVec 2) (os : BitVec 7) (ts : BitVec 7) (wd : BitVec 5) (we : BitVec 1) (q : BitVec 2)
  /-- Float multiply (R336). -/
  | vmul (om : BitVec 2) (os : BitVec 7) (ts : BitVec 7) (wd : BitVec 5) (we : BitVec 1) (q : BitVec 2)
  /-- Fused multiply-add (R336). -/
  | vfma (om : BitVec 2) (os : BitVec 7) (ts : BitVec 7) (wd : BitVec 5) (we : BitVec 1) (q : BitVec 2)
  /-- Fused multiply-subtract (R336). -/
  | vfms (om : BitVec 2) (os : BitVec 7) (ts : BitVec 7) (wd : BitVec 5) (we : BitVec 1) (q : BitVec 2)
  /-- Fused negated multiply-add (R336). -/
  | vfnma (om : BitVec 2) (os : BitVec 7) (ts : BitVec 7) (wd : BitVec 5) (we : BitVec 1) (q : BitVec 2)
  /-- Float minimum (R336). -/
  | vmin (om : BitVec 2) (os : BitVec 7) (ts : BitVec 7) (wd : BitVec 5) (we : BitVec 1) (q : BitVec 2)
  /-- Float maximum (R336). -/
  | vmax (om : BitVec 2) (os : BitVec 7) (ts : BitVec 7) (wd : BitVec 5) (we : BitVec 1) (q : BitVec 2)
  /-- Float absolute value (R336). -/
  | vabs (ts : BitVec 7) (wd : BitVec 5) (we : BitVec 1) (q : BitVec 2)
  /-- Float negate (R336). -/
  | vneg (ts : BitVec 7) (wd : BitVec 5) (we : BitVec 1) (q : BitVec 2)
  /-- Select by the slot mask (R338). -/
  | vsel (om : BitVec 2) (os : BitVec 7) (ts : BitVec 7) (wd : BitVec 5) (we : BitVec 1) (q : BitVec 2)
  /-- Round to integral by mode (R339). -/
  | vround (om : BitVec 2) (os : BitVec 7) (ts : BitVec 7) (wd : BitVec 5) (we : BitVec 1) (q : BitVec 2)
  /-- Multiply by 2^k (R339). -/
  | vscale (om : BitVec 2) (os : BitVec 7) (ts : BitVec 7) (wd : BitVec 5) (we : BitVec 1) (q : BitVec 2)
  /-- Compare equal into a mask (R337). -/
  | vcmpEq (om : BitVec 2) (os : BitVec 7) (ts : BitVec 7) (wd : BitVec 3) (we : BitVec 1) (q : BitVec 2)
  /-- Compare not-equal into a mask (R337). -/
  | vcmpNe (om : BitVec 2) (os : BitVec 7) (ts : BitVec 7) (wd : BitVec 3) (we : BitVec 1) (q : BitVec 2)
  /-- Compare less-than into a mask (R337). -/
  | vcmpLt (om : BitVec 2) (os : BitVec 7) (ts : BitVec 7) (wd : BitVec 3) (we : BitVec 1) (q : BitVec 2)
  /-- Compare less-or-equal into a mask (R337). -/
  | vcmpLe (om : BitVec 2) (os : BitVec 7) (ts : BitVec 7) (wd : BitVec 3) (we : BitVec 1) (q : BitVec 2)
  /-- Integer add (R340). -/
  | vaddI (om : BitVec 2) (os : BitVec 7) (ts : BitVec 7) (wd : BitVec 5) (we : BitVec 1) (q : BitVec 2)
  /-- Integer subtract (R340). -/
  | vsubI (om : BitVec 2) (os : BitVec 7) (ts : BitVec 7) (wd : BitVec 5) (we : BitVec 1) (q : BitVec 2)
  /-- Integer multiply (R340). -/
  | vmulI (om : BitVec 2) (os : BitVec 7) (ts : BitVec 7) (wd : BitVec 5) (we : BitVec 1) (q : BitVec 2)
  /-- Integer multiply, high half (R340). -/
  | vmulhI (om : BitVec 2) (os : BitVec 7) (ts : BitVec 7) (wd : BitVec 5) (we : BitVec 1) (q : BitVec 2)
  /-- Bitwise AND (R340). -/
  | vand (om : BitVec 2) (os : BitVec 7) (ts : BitVec 7) (wd : BitVec 5) (we : BitVec 1)
  /-- Bitwise OR (R340). -/
  | vor (om : BitVec 2) (os : BitVec 7) (ts : BitVec 7) (wd : BitVec 5) (we : BitVec 1)
  /-- Bitwise XOR (R340). -/
  | vxor (om : BitVec 2) (os : BitVec 7) (ts : BitVec 7) (wd : BitVec 5) (we : BitVec 1)
  /-- Shift left (R340). -/
  | vshl (om : BitVec 2) (os : BitVec 7) (ts : BitVec 7) (wd : BitVec 5) (we : BitVec 1) (q : BitVec 2)
  /-- Logical shift right (R340). -/
  | vshr (om : BitVec 2) (os : BitVec 7) (ts : BitVec 7) (wd : BitVec 5) (we : BitVec 1) (q : BitVec 2)
  /-- Arithmetic shift right (R340). -/
  | vsra (om : BitVec 2) (os : BitVec 7) (ts : BitVec 7) (wd : BitVec 5) (we : BitVec 1) (q : BitVec 2)
  /-- Integer signed minimum (R340). -/
  | vminI (om : BitVec 2) (os : BitVec 7) (ts : BitVec 7) (wd : BitVec 5) (we : BitVec 1) (q : BitVec 2)
  /-- Integer signed maximum (R340). -/
  | vmaxI (om : BitVec 2) (os : BitVec 7) (ts : BitVec 7) (wd : BitVec 5) (we : BitVec 1) (q : BitVec 2)
  /-- Integer absolute value (R340). -/
  | vabsI (ts : BitVec 7) (wd : BitVec 5) (we : BitVec 1) (q : BitVec 2)
  /-- Convert elements between formats with scale (R342). -/
  | vcvt (om : BitVec 2) (os : BitVec 7) (ts : BitVec 7) (wd : BitVec 5) (we : BitVec 1)
  /-- Requantise 32-bit elements (R343). -/
  | vrq (om : BitVec 2) (os : BitVec 7) (ts : BitVec 7) (wd : BitVec 5) (we : BitVec 1)
  /-- 2^a (R344). -/
  | vexp2 (ts : BitVec 7) (wd : BitVec 5) (we : BitVec 1) (q : BitVec 2)
  /-- log2 a (R344). -/
  | vlog2 (ts : BitVec 7) (wd : BitVec 5) (we : BitVec 1) (q : BitVec 2)
  /-- Reciprocal (R344). -/
  | vrcp (ts : BitVec 7) (wd : BitVec 5) (we : BitVec 1) (q : BitVec 2)
  /-- Reciprocal square root (R344). -/
  | vrsqrt (ts : BitVec 7) (wd : BitVec 5) (we : BitVec 1) (q : BitVec 2)
  /-- Sigmoid (R344). -/
  | vsigm (ts : BitVec 7) (wd : BitVec 5) (we : BitVec 1) (q : BitVec 2)
  /-- Hyperbolic tangent (R344). -/
  | vtanh (ts : BitVec 7) (wd : BitVec 5) (we : BitVec 1) (q : BitVec 2)
  /-- Move or replicate elements (R345). -/
  | vmov (ts : BitVec 7) (wd : BitVec 5) (we : BitVec 1) (q : BitVec 2)
  /-- Broadcast one element (R345). -/
  | vbc (om : BitVec 2) (os : BitVec 7) (ts : BitVec 7) (wd : BitVec 5) (we : BitVec 1) (q : BitVec 2)
  /-- Permute by index (R345). -/
  | vperm (om : BitVec 2) (os : BitVec 7) (ts : BitVec 7) (wd : BitVec 5) (we : BitVec 1) (q : BitVec 2)
  /-- Shuffle by pattern (R345). -/
  | vshuf (om : BitVec 2) (os : BitVec 7) (ts : BitVec 7) (wd : BitVec 5) (we : BitVec 1) (q : BitVec 2)
  /-- Sum of the active elements (R346). -/
  | vredAdd (ts : BitVec 7) (wd : BitVec 5) (we : BitVec 1) (q : BitVec 2)
  /-- Maximum of the active elements (R346). -/
  | vredMax (ts : BitVec 7) (wd : BitVec 5) (we : BitVec 1) (q : BitVec 2)
  /-- Vector load along a nest walk (R348). -/
  | vld (k : BitVec 4) (ts : BitVec 7) (wd : BitVec 5) (we : BitVec 1)
  /-- Vector store along a nest walk (R348). -/
  | vst (k : BitVec 4) (ts : BitVec 7) (wd : BitVec 5)
  /-- Read a quarter row of an accumulator unit (R349). -/
  | vaccRd (om : BitVec 2) (os : BitVec 7) (ts : BitVec 7) (wd : BitVec 5) (we : BitVec 1)
  /-- Write a quarter row of an accumulator unit (R349). -/
  | vaccWr (om : BitVec 2) (os : BitVec 7) (ts : BitVec 7) (wd : BitVec 5)
  /-- Land the tag of the forwarded row (R351). -/
  | vmrow (wd : BitVec 5) (we : BitVec 1)
  /-- Mask AND (R352). -/
  | vmand (b : BitVec 3) (a : BitVec 3) (wd : BitVec 3) (we : BitVec 1)
  /-- Mask OR (R352). -/
  | vmor (b : BitVec 3) (a : BitVec 3) (wd : BitVec 3) (we : BitVec 1)
  /-- Mask complement (R352). -/
  | vmnot (a : BitVec 3) (wd : BitVec 3) (we : BitVec 1)
  /-- Count the set bits of the slot mask (R352). -/
  | vmcnt (wd : BitVec 5) (we : BitVec 1)
  /-- Load a weight bank from a nest walk (R360). -/
  | mwld (ts : BitVec 7) (b : BitVec 1) (k : BitVec 4)
  /-- Broadcast a weight load to the quire (R362). -/
  | mwldB (ts : BitVec 7) (b : BitVec 1) (k : BitVec 4)
  /-- Change the active weight bank (R364). -/
  | mswap (x : BitVec 2)
  /-- Trigger a matrix pass (R366). -/
  | mrun (ts : BitVec 7) (f : BitVec 2) (a : BitVec 1) (w : BitVec 2) (p : BitVec 4)
  /-- Trigger a matrix pass with row forwarding (R368). -/
  | mrunF (ts : BitVec 7) (f : BitVec 2) (a : BitVec 1) (w : BitVec 2) (p : BitVec 4)
  /-- Zero accumulator units and their bound vectors (R369). -/
  | mzero (u : BitVec 8)
  /-- Calibrate a bank's converters (R374). -/
  | mcal (b : BitVec 1)
  /-- Read part of the clip record (R372). -/
  | mclip (ts : BitVec 7)
  /-- Write DIG of cw.mmode (R373). -/
  | mmode (g : BitVec 1)
  /-- Read one bound entry (R370). -/
  | mbound (ts : BitVec 7)
  /-- Set one bound entry (R370). -/
  | mboundSet (om : BitVec 2) (os : BitVec 7) (ts : BitVec 7)
  /-- Direct-mode copy (R379). -/
  | cp (om : BitVec 2) (os : BitVec 7) (ts : BitVec 7) (y : BitVec 4) (z : BitVec 4)
  /-- Shadow-mode copy into a private column region (R379). -/
  | cpSh (om : BitVec 2) (os : BitVec 7) (ts : BitVec 7) (y : BitVec 4) (z : BitVec 4)
  /-- Reduction copy at the slice ALUs (R380). -/
  | cpRed (om : BitVec 2) (os : BitVec 7) (ts : BitVec 7) (y : BitVec 4) (z : BitVec 4)
  /-- Gather rows (R381). -/
  | cpG (om : BitVec 2) (os : BitVec 7) (ts : BitVec 7) (y : BitVec 4) (z : BitVec 4)
  /-- Scatter rows (R381). -/
  | cpS (om : BitVec 2) (os : BitVec 7) (ts : BitVec 7) (y : BitVec 4) (z : BitVec 4)
  /-- Elementwise bank-ALU operation (R382). -/
  | bk (om : BitVec 2) (os : BitVec 7) (ts : BitVec 7) (y : BitVec 4) (z : BitVec 4)
  /-- Bank-ALU reduction of runs (R383). -/
  | bkRed (om : BitVec 2) (os : BitVec 7) (ts : BitVec 7) (y : BitVec 4) (z : BitVec 4)
  /-- Enqueue a 64-byte packet, holding issue for the home's answer (R384). -/
  | cpQ (ts : BitVec 7) (n : BitVec 3)
  /-- Order command starts on one or both engines (R385). -/
  | cpFence (b : BitVec 1)
  /-- Read engine or armed-word status (R386). -/
  | cpStat (ts : BitVec 7)
  /-- Stop this bank's commands on the engine and record them (R387). -/
  | cpQuiesce (ts : BitVec 7)
  /-- End earlier commands with cause 32 (R388). -/
  | cpAbort (ts : BitVec 7)
  /-- Publish in engine order (R389). -/
  | cpPub (om : BitVec 2) (os : BitVec 7) (ts : BitVec 7)
  /-- Every 1 µs the power managers estimate package draw and lower or raise the operating points of the gangs in 25 MHz steps (R34). -/
  | powerEstimate (draw : Nat)
  /-- An island's change of operating point completes after 1,200 cc of the new clock, and its frozen cores resume (R17). -/
  | operatingPointChangeDone (island : Nat)
  /-- Every 600 cc of the reference clock the sensors are sampled, cw.therm is set, the thermal actions begin or end, and thermal pre-emption requests are raised (R33). -/
  | sensorSample (readings : List Int)
  /-- A vertical-bus retrain ends after 1,200 cc, and the accesses that waited complete (R24). -/
  | verticalBusRetrainDone (col : Nat)
  /-- No ACK arrives within 2 µs of the INVAL becoming visible: missed duty 1 (R53). -/
  | invalAckTimeout (seq : Nat)
  /-- No PREEMPT ACK arrives before the deadline: missed duty 3 (R54). -/
  | preemptDeadline (seq : Nat)
  /-- The guest does not answer a snoop within 2 µs: missed duty 4 (R50). -/
  | snoopTimeout (line : Nat)
  /-- A BIND or UNBIND is not acknowledged within 100 µs: missed duty 5 (R55). -/
  | bindAckTimeout (seq : Nat)
  /-- The scrub of a partition's cores, granules, slices, keys and translations completes, and the entry becomes Free (R66). -/
  | scrubComplete (part : Nat)
  /-- At the context's drain point its posted operations are performed, issue stops and HALTED becomes 1 (R75). -/
  | debugHoldTakesEffect (core : Nat) (bank : Nat)
  /-- On a change notice the fetcher reads the head slot, accepting the packet (clearing V, freeing the slot, advancing SEQ) or retrying (R85). -/
  | packetFetch (q : Nat)
  /-- 64 cc after a failed read the fetcher reads the slot again; the fifth failure makes the packet malformed (R85). -/
  | fetchRetry (q : Nat)
  /-- A claimed head slot still holding V = 0 after 10 ms is malformed with reason 6 (R85). -/
  | stalledProducerTimeout (q : Nat)
  /-- A LAUNCH packet is handed to the policy core for admission into the launch table (R90). -/
  | launch (q : Nat)
  /-- A LAUNCH_IND reads its size record with acquire and launches with those extent and tide values (R91). -/
  | launchInd (q : Nat)
  /-- A WAIT holds its stream until its test on the word is true (R94). -/
  | wait (q : Nat)
  /-- A WAIT re-evaluates its test at a change to its word's line, or after 1 µs (R94). -/
  | waitRecheck (q : Nat)
  /-- A WAIT's limit passes with its test still false, and the queue is halted with reason 7 (R94). -/
  | waitLimit (q : Nat)
  /-- After all earlier asynchronous packets complete, SIGNAL stores or adds to its word with release at system scope (R90). -/
  | signal (q : Nat)
  /-- LOOP_BEGIN opens a loop body that replays from the replay store for its iteration count (R92). -/
  | loopBegin (q : Nat)
  /-- LOOP_END closes the body, repeating it or leaving the loop (R92). -/
  | loopEnd (q : Nat)
  /-- COND tests its word and, when the test is false, skips the next skip-count packets (R93). -/
  | cond (q : Nat)
  /-- A COPY packet is placed in its die's copy service queue (R102). -/
  | copy (q : Nat)
  /-- A FENCE packet waits for all earlier work of its stream and completes once their writes are visible at its scope (R90). -/
  | fence (q : Nat)
  /-- GRAPH_RUN checks and snapshots a graph object and starts an instance whose nodes run as their predecessors complete (R96). -/
  | graphRun (q : Nat)
  /-- A graph node completes, releasing its successors or blocking its dependants; the graph completes when every runnable node has finished (R95). -/
  | graphNodeComplete (g : Nat) (node : Nat) (code : Nat)
  /-- CALIBRATE runs mcal on the stale banks, or on all banks, of every core of the named clusters, each at a drain point between tides (R97). -/
  | calibrate (q : Nat)
  /-- BIAS_FLIP flips the bias of each 4 KiB granule of its range in ascending order (R77). -/
  | biasFlip (q : Nat)
  /-- One granule's flip completes after host ownership or write-back, and the accesses that waited proceed under the new bias (R77). -/
  | granuleFlipDone (gran : Nat)
  /-- SUMMARY writes the 4,096-byte summary record to its destination, then writes its completion word (R79). -/
  | summary (q : Nat)
  /-- QCLEAR re-adopts a rewritten block and returns a Quarantined or Halted queue to Normal with a new expected SEQ, or is refused (R98). -/
  | qclear (q : Nat)
  /-- The policy core admits a launch: it checks the header, reads the size record, chooses the variant and queues the launch for its dependence test (R129). -/
  | launchAdmission (ix : Nat)
  /-- A policy core's 1 ms watchdog expires: a delegate is restarted, or the master's expiry puts the device into recovery (R83). -/
  | policyWatchdog (die : Nat)
  /-- A restarted delegate policy core runs again, and its die admits launches (R83). -/
  | delegateRestartDone (die : Nat)
  /-- A copy-service packet finishes and writes its completion word (R102). -/
  | copyServiceComplete (id : Nat)
  /-- A waiting record is placed once the event queue has room, and the stream that produced it continues (R101). -/
  | eventRecordPlaced (part : Nat)
  /-- The home controller checks the block and performs one queue operation, retiring waiters and rewriting the CRC (R113). -/
  | queueOpAtHome (core : Nat) (bank : Nat)
  /-- A freeze on a waiting queue operation reaches cw.qwait, and the context parks with cause 16 or 17 recorded (R119). -/
  | qwaitLimit (core : Nat) (bank : Nat)
  /-- Every 4 cc each die's scheduler dispatches one ready task to the free quire of highest allowance, by priority and service value (R136). -/
  | dispatch (die : Nat)
  /-- A die with an empty range and a free quire steals the upper half of the largest remaining range of another die (R143). -/
  | stealRequest (ix : Nat) (die : Nat)
  /-- When the roll-up is complete and the audits pass, the gang is released into the ebb at the variant's ebb entry (R144). -/
  | tideBarrierRelease (ix : Nat)
  /-- The last gang core reports its tide: DOUT is added, and the next tide's dependence test runs, or the launch completes (R144). -/
  | ebbEnd (ix : Nat)
  /-- The auditor replays a task or command in digital mode on another gang core and compares results, failing the tide with cause 46 on a mismatch (R145). -/
  | auditReplay (ix : Nat) (ok : Bool)
  /-- The DIN test of a tide is evaluated at an ebb end, at a change to its line, or every 1 µs, and opens the flood when it is true (R147). -/
  | dependenceTest (ix : Nat)
  /-- A task held on a missing extent page is retried every 10 µs (R141). -/
  | extentTranslationRetry (ix : Nat) (task : Nat)
  /-- An extent, DIN or DOUT translation still failing after 100 ms fails the launch with cause 8 or 9 (R141). -/
  | extentTranslationTimeout (ix : Nat) (task : Nat)
  /-- A pending pre-emption request is honoured at a drain point: operations are performed, queue waiters withdrawn, engines quiesced and the save area written (R232). -/
  | preemption (core : Nat) (bank : Nat)
  /-- A pre-emption request that stays pending until cw.dist reaches 65,536 ends the task, and the launch fails with cause 51 (R223). -/
  | drainDistanceLimit (core : Nat) (bank : Nat)
  /-- A pre-empted task resumes on a free quire: its state is restored, words re-armed, commands and queue operations re-issued (R234). -/
  | taskResume (die : Nat) (ix : Nat)
  /-- A quarantine-class launch that passes 1 s ends with LAUNCH_TIME_LIMIT (R99). -/
  | quarantineTimeLimit (ix : Nat)
  /-- When every core of the mask holds at the bundle, the SYNC barrier releases: leads issue at r and followers at their skew (R217). -/
  | barrierRelease (core : Nat) (bank : Nat)
  /-- A SYNC hold longer than the barrier time limit raises cause 49 (R219). -/
  | barrierTimeLimit (core : Nat) (bank : Nat)
  /-- A freeze reaching cw.frzlim raises cause 50 with the waiting bundle not committed (R216). -/
  | freezeLimit (core : Nat) (bank : Nat)
  /-- A variable-latency result's data arrives, waiting in the landing buffer or ending the freeze of a late landing, with landing-time faults reported (R215). -/
  | landing (core : Nat) (bank : Nat)
  /-- A third pass trigger held at issue proceeds when the streaming pass ends its streaming (R253). -/
  | passTriggerRelease (core : Nat)
  /-- A pass completes: the clip record is set and causes 26, 27, 24 or 25 are raised at the first bundle boundary outside a forwarding window (R259). -/
  | passComplete (core : Nat)
  /-- A weight load completes: the bank holds aligned mantissas and checksums, or is empty on error, and its word is acted on (R360). -/
  | weightLoadComplete (core : Nat)
  /-- After 2,048 cc an mcal ends, the bank is no longer stale and the junction reading is taken (R374). -/
  | calibrationComplete (core : Nat)
  /-- An engine command completes or ends in error and acts once, atomically, on its completion barrier word (R357). -/
  | copyCommandComplete (core : Nat) (eng : Nat) (id : Nat)
  /-- Trap entry stops issue, lands fixed results, cancels loads, resolves queue operations, performs posted operations, writes the frame and starts the handler (R227). -/
  | trapEntry (core : Nat) (bank : Nat)
  /-- A ctx.park's reference-clock limit passes, and the context wakes at the next bundle (R329). -/
  | ctxParkLimit (core : Nat) (bank : Nat)
  /-- A write performed to the watched line wakes a context parked by ctx.park (R329). -/
  | ctxParkWake (core : Nat) (bank : Nat)
  /-- A translation-fault park that lasts 100 ms ends the launch (R225). -/
  | translationParkLimit (core : Nat) (bank : Nat)
  /-- 500 ms after its last mcal a bank's calibration becomes stale (R251). -/
  | calibrationStaleTimer (core : Nat) (wbank : Nat)
  /-- A write to a page-table line is performed after every dependent translation is recalled, and it wakes contexts parked on that line (R163). -/
  | pageTableLineWrite (line : Nat)
  /-- A posted publish is performed at the handle's home: checks, recall, one write of BASE and PUBS, and tag changes (R169). -/
  | publishPerformed (core : Nat) (bank : Nat)
  /-- A 4 KiB chunk of a swap-engine exchange is done, so accesses to it are served from the other frame, waiting cache fills proceed, and after the last chunk the swap engine becomes idle (R179). -/
  | swapChunkDone (die : Nat)
  /-- A layer being powered on finishes its typical 100 µs power-up, and its addresses become mapped (R182). -/
  | layerPoweredOn (col : Nat)
  /-- Reset starts the bring-up sequence: the configuration records are verified, the firmware is released, and the boundaries, buses, remap tables, disabled sites, host link and queues are brought up in order, with recovery entered at a failed step (R38). -/
  | deviceReset
  /-- A write of 1 to LRST fences an admitted guest, drops all modules, discards the guest directory and returns the socket to Training or Absent (R51). -/
  | socketLinkReset
  /-- No HELLO arrives within 100 ms of Measuring, and the socket becomes Refused (R42). -/
  | helloTimeout
  /-- The front end writes PREEMPT with a deadline equal to the guest's declared bound (R54). -/
  | preempt
  /-- The front end writes RESUME so that the guest continues its suspended commands from the save area (R54). -/
  | resume
  /-- The front end sends UNBIND; once it is acknowledged, engine-queue elements end with cause 21, the directory recalls lines and OWNER returns to 16 (R45). -/
  | unbind
  /-- A post-admission SPDM request is not answered within 100 ms: missed duty 6 (R55). -/
  | spdmResponseTimeout
  /-- Recovery CMD 1 reads the summary record into the window (R80). -/
  | readSummaryIntoWindow
  /-- Recovery CMD 2 verifies the staged object and starts storing it as the firmware image (R81). -/
  | storeFirmwareImage
  /-- Recovery CMD 3 verifies the staged object and starts storing it as a configuration record (R81). -/
  | storeConfigurationRecord
  /-- Recovery CMD 4 resets the device (R80). -/
  | resetDevice
  /-- Recovery CMD 5 copies LEN window bytes to the staging buffer at OFF and raises SLEN, or refuses with WHY 5 (R81). -/
  | appendStaging
  /-- Recovery CMD 6 empties the staging buffer and sets SLEN to 0 (R81). -/
  | emptyStagingBuffer
  /-- A store to flash finishes: ST becomes 2 with both copies written and the minimum version raised, or 3 with WHY; the staging buffer is emptied (R81). -/
  | recoveryStoreDone
  /-- A quarantine-class launch starts on D3 c7 once its ordinary tasks are saved or retired (R100). -/
  | quarantineLaunchStart
  /-- Every 1 ms every context's cw.lts below the package floor is raised to it (R191). -/
  | ltsFloorRaise
  /-- Leave the open loop (R314). -/
  | lexit
  /-- Retire the task and start the next task of the launch if it is chosen (R315). -/
  | taskNext
  /-- Retire the task after its posted operations and engine commands complete (R315). -/
  | taskDone
  /-- Close the core's ebb and report (R316). -/
  | tide
  /-- Switch to the other runnable context bank (R317). -/
  | yield
  /-- Return from a trap handler, restoring the frame (R230). -/
  | eret
  /-- Freeze until earlier ordinary writes and range operations are performed (R195). -/
  | fenceE
  /-- At level 2, end the task and fail the launch (R318). -/
  | halt
  /-- Read the matrix engine state (R371). -/
  | mstat
  /-- The host driver sets the package power envelope in 25 W steps between 900 W and 1,500 W (R34). -/
  | setEnvelope (watts : Nat)
  /-- A lane whose corrected-error count exceeds 256 within 1 ms fails; the bus retrains to steer in the spare, or degrades or fails (R24). -/
  | laneFailure (col : Nat) (group : Nat)
  /-- A die-boundary lane bundle fails, lowering the boundary bandwidth; a boundary that has lost all 16 bundles reroutes its traffic, and a die with no boundary left is isolated (R28). -/
  | laneBundleFailure (bnd : Nat)
  /-- A peer flit that fails its CRC is replayed from the sender's replay buffer (R30). -/
  | peerFlitCrcFail (port : Nat)
  /-- A port whose replays exceed 32 in 1 ms, or that loses lock, is declared down and shoots down the remote translations tagged with its link (R30). -/
  | peerPortDown (port : Nat)
  /-- A peer port comes back up carrying a new link tag (R30). -/
  | peerPortUp (port : Nat)
  /-- A peer's access to this device's memory is performed as an ordinary access under its link port's agent number (R193). -/
  | peerRequest (port : Nat) (req : MemReq)
  /-- A write of gs.ctl EN enables the socket, or with 0 fences an Admitted or Bound guest and returns a socket in Training or Measuring to Absent (R41). -/
  | gsCtlEn (on : Bool)
  /-- Writing 1 to DV of gs.stat clears the duty-valid flag (R41). -/
  | gsStatDvClear (wr : Nat)
  /-- With EN = 1, a module that detects a partner moves the socket from Absent to Training (R42). -/
  | partnerDetect (present : Bool)
  /-- Module training completes and the socket enters Measuring, emptying the ten guest queues (R42). -/
  | moduleTrained (mods : Nat) (rate : Nat)
  /-- A module that fails training is disabled until the next socket link reset (R40). -/
  | moduleTrainingFail (mods : Nat)
  /-- A module that exceeds 32 flit replays within 1 ms is disabled; losing the last module fences the guest and moves the socket to Absent (R40). -/
  | moduleReplayLimit (mods : Nat)
  /-- The root of trust's SPDM measurement of the guest completes and enters the guest's measurements in the device log, or fails and refuses the guest (R43). -/
  | guestSpdmComplete (ok : Bool) (meas : List Nat)
  /-- The front end takes the guest's HELLO from gfq and checks it, admitting the guest and poisoning the engine queues it does not use (R43). -/
  | hello (pkt : Nat)
  /-- A guest ACK is taken from gfq and matched to its unacknowledged control packet, releasing withheld frames or completing a pre-emption, BIND or UNBIND (R53). -/
  | ack (pkt : Nat)
  /-- A guest FAULT writes error code 57 and the guest's detail code into the command's completion word, or places an event record (R49). -/
  | fault (pkt : Nat)
  /-- The front end sends BIND naming a partition; once it is acknowledged, the guest queues take that OWNER and the socket enters Bound (R45). -/
  | bind (part : Nat)
  /-- A guest CXL.cache request is checked against frame ownership and world, then granted through the directory with encryption under the bound partition's key (R51). -/
  | guestCxlCacheRequest (req : MemReq)
  /-- The guest answers a directory snoop, letting the waiting writer's logical time pass the guest's lease (R50). -/
  | guestSnoopResponse (line : Nat) (data : Nat)
  /-- The guest asks for a translation, which the bound partition's page tables answer with a frame, or with no translation (R52). -/
  | guestTranslationRequest (va : Nat) (acc : Nat)
  /-- The guest claims or releases a slot of a guest queue through the socket's queue channel, subject to the state and free-slot rules (R45). -/
  | guestQueueClaim (q : Nat) (elem : Nat)
  /-- The PF writes a partition entry, which the root of trust checks for overlap; a Free partition moves to Configuring (R63). -/
  | partitionEntryWrite (part : Nat) (field : Nat) (val : Nat)
  /-- The PF enables the entry of a CONF = 0 partition, which enters Running (R63). -/
  | partitionEnable (part : Nat)
  /-- The PF deletes a partition entry, and the partition enters Scrubbing (R63). -/
  | partitionDelete (part : Nat)
  /-- TDISP LOCK_INTERFACE freezes the VF's configuration and the partition's resources and returns the interface report (R64). -/
  | lockInterface (fn : Nat)
  /-- START_INTERFACE on every VF moves the partition from Locked to Running (R63). -/
  | startInterface (fn : Nat)
  /-- STOP_INTERFACE on any VF moves the partition to Scrubbing (R63). -/
  | stopInterface (fn : Nat)
  /-- An FLR of a VF or of the PF puts Locked or Running partitions into Error (R65). -/
  | functionLevelReset (fn : Nat)
  /-- Failure of a selective or link IDE stream puts the affected partitions into Error (R65). -/
  | ideStreamFailure (fn : Nat)
  /-- Loss of a key slot through an uncorrectable key-table error puts its partition into Error (R65). -/
  | keyTableUncorrectable (slot : Nat)
  /-- The tenant delivers its Ed25519 and ML-DSA public keys over an SPDM session while the partition is Configuring (R70). -/
  | tenantKeyDelivery (fn : Nat) (key : Nat)
  /-- SPDM GET_VERSION request answered on a DOE mailbox (R71). -/
  | getVersion (fn : Nat)
  /-- SPDM GET_CAPABILITIES request answered on a DOE mailbox (R71). -/
  | getCapabilities (fn : Nat)
  /-- SPDM NEGOTIATE_ALGORITHMS request answered with Ed25519, SHA-384 and AES-256-GCM (R71). -/
  | negotiateAlgorithms (fn : Nat)
  /-- SPDM GET_DIGESTS request answered (R71). -/
  | getDigests (fn : Nat)
  /-- SPDM GET_CERTIFICATE request answered (R71). -/
  | getCertificate (fn : Nat)
  /-- SPDM CHALLENGE request answered (R71). -/
  | challenge (fn : Nat)
  /-- SPDM GET_MEASUREMENTS request answered with the blocks of Table 3.4 as seen by the function (R71). -/
  | getMeasurements (fn : Nat) (block : Nat)
  /-- SPDM KEY_EXCHANGE request starts a secure session (R71). -/
  | keyExchange (fn : Nat)
  /-- SPDM FINISH request completes a secure session's set-up (R71). -/
  | finish (fn : Nat) (ok : Bool)
  /-- SPDM END_SESSION request ends a secure session (R71). -/
  | endSession (fn : Nat)
  /-- A tenant debug policy is delivered and checked; an accepted policy replaces the one in force and takes effect at each launch's next tide barrier (R73). -/
  | debugPolicy (fn : Nat) (rec : Nat)
  /-- A write of 1 to HALT requests a hold of the selected context at its next drain point (R75). -/
  | haltRequest (fn : Nat)
  /-- A write of 0 to HALT releases the hold, and issue resumes at the next bundle (R75). -/
  | haltRelease (fn : Nat)
  /-- A host CXL.mem or CXL.cache request is checked, then ordered and performed as an ordinary access under its granule's bias (R205). -/
  | hostCxlMemRequest (req : MemReq)
  /-- A write to a register with no row of its own is performed under its access code; an offset outside every region completes with Unsupported Request (R11). -/
  | registerWrite (fn : Nat) (off : Nat) (val : Nat)
  /-- A host write covering the ENQ aperture performs one enqueue transaction (R109). -/
  | enqAperture (fn : Nat) (win : Nat) (elem : Nat) (len : Nat)
  /-- A host read of CLAIM performs one slot claim on a command queue and returns the TAIL count, or all ones (R109). -/
  | claim (fn : Nat) (win : Nat)
  /-- A host write of n to RELEASE releases n slots of an event queue (R109). -/
  | release (fn : Nat) (win : Nat) (n : Nat)
  /-- A write of a handle to BIND binds the host queue window if the owner and block check (R109). -/
  | queueWindowBind (fn : Nat) (win : Nat) (handle : Nat)
  /-- A peer enqueue or claim arrives at a queue's home and is performed or refused with an error completion (R108). -/
  | peerQueueClaim (port : Nat) (cb : Nat) (elem : Nat)
  /-- The policy firmware starts an exchange of two frames in 4 KiB chunks through the swap engine's buffer (R178). -/
  | swapExchange (die : Nat) (f1 : Nat) (f2 : Nat) (size : Nat)
  /-- The firmware releases the exchange's redirection after rewriting the page tables (R179). -/
  | swapRelease (die : Nat)
  /-- The firmware remaps a failing DRAM row to a spare and rewrites the three remap-table copies (R180). -/
  | rowRemap (col : Nat) (row : Nat)
  /-- The firmware powers a further layer of a column on, taking about 100 µs (R182). -/
  | layerPowerOn (col : Nat)
  /-- The firmware moves the top layer's data down with the swap engine and powers that layer off (R182). -/
  | layerPowerDown (col : Nat)
  deriving DecidableEq, Repr

end Sys2Proof
end

