-- ==== Sys2Proof/WellFormed.lean ====
section
/-! DEFINITION. Which instructions are well formed: the selector, value and index checks that R268 to R273 and R278
make of a slot form once its fixed fields hold, and the ranges of the indices that an event carries. -/

namespace Sys2Proof

/-- The selector is assigned in the S-slot space of Table 11.2 (R272). -/
def selS (x : BitVec 7) : Bool :=
  let n := x.toNat
  decide (n ≤ 0x48) || (decide (0x50 ≤ n) && decide (n ≤ 0x57)) || (decide (0x60 ≤ n) && decide (n ≤ 0x6A)) ||
    decide (0x70 ≤ n)

/-- The selector is assigned in the V-slot space of Table 11.4 (R273). -/
def selV (x : BitVec 7) : Bool :=
  let n := x.toNat
  decide (n ≤ 0x48) || (decide (0x50 ≤ n) && decide (n ≤ 0x57)) || (decide (0x60 ≤ n) && decide (n ≤ 0x6D)) ||
    decide (n = 0x70)

/-- The operand-port fields of an S, M or C form name an assigned source (R267, R272). -/
def portS (om : BitVec 2) (os : BitVec 7) : Bool := decide (om ≠ 1) || selS os

/-- The operand-port fields of a V form name an assigned source (R267, R273). -/
def portV (om : BitVec 2) (os : BitVec 7) : Bool := decide (om ≠ 1) || selV os

/-- The instruction is well formed. -/
def Instr.wf (i : Instr) : Bool :=
  match i with
  | .add om os ts _ _ => selS ts && portS om os
  | .sub om os ts _ _ => selS ts && portS om os
  | .and om os ts _ _ => selS ts && portS om os
  | .or om os ts _ _ => selS ts && portS om os
  | .xor om os ts _ _ => selS ts && portS om os
  | .andn om os ts _ _ => selS ts && portS om os
  | .orn om os ts _ _ => selS ts && portS om os
  | .shl om os ts _ _ => selS ts && portS om os
  | .shr om os ts _ _ => selS ts && portS om os
  | .sra om os ts _ _ => selS ts && portS om os
  | .rotl om os ts _ _ => selS ts && portS om os
  | .min om os ts _ _ => selS ts && portS om os
  | .max om os ts _ _ => selS ts && portS om os
  | .minu om os ts _ _ => selS ts && portS om os
  | .maxu om os ts _ _ => selS ts && portS om os
  | .seq om os ts _ _ => selS ts && portS om os
  | .sne om os ts _ _ => selS ts && portS om os
  | .slt om os ts _ _ => selS ts && portS om os
  | .sltu om os ts _ _ => selS ts && portS om os
  | .sle om os ts _ _ => selS ts && portS om os
  | .sleu om os ts _ _ => selS ts && portS om os
  | .pset om os ts _ _ => selS ts && portS om os
  | .pand _ _ _ _ => true
  | .por _ _ _ _ => true
  | .pxor _ _ _ _ => true
  | .sel om os ts _ _ => selS ts && portS om os
  | .clz ts _ _ => selS ts
  | .ctz ts _ _ => selS ts
  | .popc ts _ _ => selS ts
  | .sext ts _ _ _ => selS ts
  | .zext ts _ _ _ => selS ts
  | .bext om os ts _ _ => selS ts && portS om os
  | .bins om os ts _ => selS ts && portS om os
  | .lea om os ts _ _ _ => selS ts && portS om os
  | .wfield om os ts _ _ => selS ts && portS om os
  | .mul om os ts _ _ => selS ts && portS om os
  | .mulh om os ts _ _ => selS ts && portS om os
  | .mulhu om os ts _ _ => selS ts && portS om os
  | .div om os ts _ _ => selS ts && portS om os
  | .divu om os ts _ _ => selS ts && portS om os
  | .rem om os ts _ _ => selS ts && portS om os
  | .remu om os ts _ _ => selS ts && portS om os
  | .ld om os ts _ _ _ => selS ts && portS om os
  | .ldu om os ts _ _ _ => selS ts && portS om os
  | .st om os ts _ _ => selS ts && portS om os
  | .ldG om os ts _ _ _ => selS ts && portS om os
  | .stG om os ts _ _ => selS ts && portS om os
  | .ldE om os ts _ _ _ => selS ts && portS om os
  | .stE om os ts _ _ => selS ts && portS om os
  | .pref om os ts => selS ts && portS om os
  | .amoAdd om os ts _ _ _ => selS ts && portS om os
  | .amoAnd om os ts _ _ _ => selS ts && portS om os
  | .amoOr om os ts _ _ _ => selS ts && portS om os
  | .amoXor om os ts _ _ _ => selS ts && portS om os
  | .amoMin om os ts _ _ _ => selS ts && portS om os
  | .amoMax om os ts _ _ _ => selS ts && portS om os
  | .amoMinu om os ts _ _ _ => selS ts && portS om os
  | .amoMaxu om os ts _ _ _ => selS ts && portS om os
  | .amoSwap om os ts _ _ _ => selS ts && portS om os
  | .amoCas om os ts _ _ _ => selS ts && portS om os
  | .amoFadd om os ts _ _ q => selS ts && portS om os && decide (q ≠ 3)
  | .qbind om os ts _ => selS ts && portS om os
  | .enq _ ts => selS ts
  | .enqS _ ts => selS ts
  | .enqT _ ts _ _ => selS ts
  | .deq _ ts _ _ => selS ts
  | .deqS _ _ _ => true
  | .deqT _ ts _ _ => selS ts
  | .qpeek _ ts _ _ => selS ts
  | .qstat _ _ _ => true
  | .qdrain _ => true
  | .j om os => portS om os
  | .jr ts => selS ts
  | .call om os _ _ => portS om os
  | .callr ts _ _ => selS ts
  | .ret ts => selS ts
  | .br om os ts _ => selS ts && portS om os
  | .loop _ => true
  | .trap om os => portS om os
  | .fenceInstruction k c => decide (k.toNat ≤ 3) && decide (c.toNat ≤ 5)
  | .cleanR om os ts => selS ts && portS om os
  | .invalR om os ts => selS ts && portS om os
  | .flushR om os ts => selS ts && portS om os
  | .publish om os ts => selS ts && portS om os
  | .rdcw om os _ _ => portS om os
  | .wrcw om os ts => selS ts && portS om os
  | .nestSet om os ts _ => selS ts && portS om os
  | .nestDim om os ts _ => selS ts && portS om os
  | .nestBlk om os ts _ => selS ts && portS om os
  | .bwInit om os ts => selS ts && portS om os
  | .bwWait om os ts _ _ => selS ts && portS om os
  | .ctxPark om os ts => selS ts && portS om os
  | .vadd om os ts _ _ q => selV ts && portV om os && decide (q ≠ 3)
  | .vsub om os ts _ _ q => selV ts && portV om os && decide (q ≠ 3)
  | .vmul om os ts _ _ q => selV ts && portV om os && decide (q ≠ 3)
  | .vfma om os ts _ _ q => selV ts && portV om os && decide (q ≠ 3)
  | .vfms om os ts _ _ q => selV ts && portV om os && decide (q ≠ 3)
  | .vfnma om os ts _ _ q => selV ts && portV om os && decide (q ≠ 3)
  | .vmin om os ts _ _ q => selV ts && portV om os && decide (q ≠ 3)
  | .vmax om os ts _ _ q => selV ts && portV om os && decide (q ≠ 3)
  | .vabs ts _ _ q => selV ts && decide (q ≠ 3)
  | .vneg ts _ _ q => selV ts && decide (q ≠ 3)
  | .vsel om os ts _ _ q => selV ts && portV om os && decide (q ≠ 3)
  | .vround om os ts _ _ q => selV ts && portV om os && decide (q ≠ 3)
  | .vscale om os ts _ _ q => selV ts && portV om os && decide (q ≠ 3)
  | .vcmpEq om os ts _ _ q => selV ts && portV om os && decide (q ≠ 3)
  | .vcmpNe om os ts _ _ q => selV ts && portV om os && decide (q ≠ 3)
  | .vcmpLt om os ts _ _ q => selV ts && portV om os && decide (q ≠ 3)
  | .vcmpLe om os ts _ _ q => selV ts && portV om os && decide (q ≠ 3)
  | .vaddI om os ts _ _ q => selV ts && portV om os && decide (q ≠ 3)
  | .vsubI om os ts _ _ q => selV ts && portV om os && decide (q ≠ 3)
  | .vmulI om os ts _ _ q => selV ts && portV om os && decide (q ≠ 3)
  | .vmulhI om os ts _ _ q => selV ts && portV om os && decide (q ≠ 3)
  | .vand om os ts _ _ => selV ts && portV om os
  | .vor om os ts _ _ => selV ts && portV om os
  | .vxor om os ts _ _ => selV ts && portV om os
  | .vshl om os ts _ _ q => selV ts && portV om os && decide (q ≠ 3)
  | .vshr om os ts _ _ q => selV ts && portV om os && decide (q ≠ 3)
  | .vsra om os ts _ _ q => selV ts && portV om os && decide (q ≠ 3)
  | .vminI om os ts _ _ q => selV ts && portV om os && decide (q ≠ 3)
  | .vmaxI om os ts _ _ q => selV ts && portV om os && decide (q ≠ 3)
  | .vabsI ts _ _ q => selV ts && decide (q ≠ 3)
  | .vcvt om os ts _ _ => selV ts && portV om os
  | .vrq om os ts _ _ => selV ts && portV om os
  | .vexp2 ts _ _ q => selV ts && decide (q ≠ 3)
  | .vlog2 ts _ _ q => selV ts && decide (q ≠ 3)
  | .vrcp ts _ _ q => selV ts && decide (q ≠ 3)
  | .vrsqrt ts _ _ q => selV ts && decide (q ≠ 3)
  | .vsigm ts _ _ q => selV ts && decide (q ≠ 3)
  | .vtanh ts _ _ q => selV ts && decide (q ≠ 3)
  | .vmov ts _ _ _ => selV ts
  | .vbc om os ts _ _ _ => selV ts && portV om os
  | .vperm om os ts _ _ _ => selV ts && portV om os
  | .vshuf om os ts _ _ _ => selV ts && portV om os
  | .vredAdd ts _ _ q => selV ts && decide (q ≠ 3)
  | .vredMax ts _ _ q => selV ts && decide (q ≠ 3)
  | .vld _ ts _ _ => selV ts
  | .vst _ ts _ => selV ts
  | .vaccRd om os ts _ _ => selV ts && portV om os
  | .vaccWr om os ts _ => selV ts && portV om os
  | .vmrow _ _ => true
  | .vmand _ _ _ _ => true
  | .vmor _ _ _ _ => true
  | .vmnot _ _ _ => true
  | .vmcnt _ _ => true
  | .mwld ts _ _ => selS ts
  | .mwldB ts _ _ => selS ts
  | .mswap x => decide (x ≠ 1)
  | .mrun ts _ _ w _ => selS ts && decide (w ≠ 3)
  | .mrunF ts _ _ w _ => selS ts && decide (w ≠ 3)
  | .mzero u => decide (u ≠ 0)
  | .mcal _ => true
  | .mclip ts => selS ts
  | .mmode _ => true
  | .mbound ts => selS ts
  | .mboundSet om os ts => selS ts && portS om os
  | .cp om os ts _ _ => selS ts && portS om os
  | .cpSh om os ts _ _ => selS ts && portS om os
  | .cpRed om os ts _ _ => selS ts && portS om os
  | .cpG om os ts _ _ => selS ts && portS om os
  | .cpS om os ts _ _ => selS ts && portS om os
  | .bk om os ts _ _ => selS ts && portS om os
  | .bkRed om os ts _ _ => selS ts && portS om os
  | .cpQ ts _ => selS ts
  | .cpFence _ => true
  | .cpStat ts => selS ts
  | .cpQuiesce ts => selS ts
  | .cpAbort ts => selS ts
  | .cpPub om os ts => selS ts && portS om os
  | .powerEstimate _ => true
  | .operatingPointChangeDone island => decide (island < 32)
  | .sensorSample _ => true
  | .verticalBusRetrainDone col => decide (col < 512)
  | .invalAckTimeout _ => true
  | .preemptDeadline _ => true
  | .snoopTimeout _ => true
  | .bindAckTimeout _ => true
  | .scrubComplete part => decide (part < 16)
  | .debugHoldTakesEffect core bank => decide (core < 512) && decide (bank < 2)
  | .packetFetch _ => true
  | .fetchRetry _ => true
  | .stalledProducerTimeout _ => true
  | .launch _ => true
  | .launchInd _ => true
  | .wait _ => true
  | .waitRecheck _ => true
  | .waitLimit _ => true
  | .signal _ => true
  | .loopBegin _ => true
  | .loopEnd _ => true
  | .cond _ => true
  | .copy _ => true
  | .fence _ => true
  | .graphRun _ => true
  | .graphNodeComplete _ _ _ => true
  | .calibrate _ => true
  | .biasFlip _ => true
  | .granuleFlipDone _ => true
  | .summary _ => true
  | .qclear _ => true
  | .launchAdmission ix => decide (ix < 64)
  | .policyWatchdog die => decide (die < 4)
  | .delegateRestartDone die => decide (die < 4)
  | .copyServiceComplete _ => true
  | .eventRecordPlaced part => decide (part < 16)
  | .queueOpAtHome core bank => decide (core < 512) && decide (bank < 2)
  | .qwaitLimit core bank => decide (core < 512) && decide (bank < 2)
  | .dispatch die => decide (die < 4)
  | .stealRequest ix die => decide (ix < 64) && decide (die < 4)
  | .tideBarrierRelease ix => decide (ix < 64)
  | .ebbEnd ix => decide (ix < 64)
  | .auditReplay ix _ => decide (ix < 64)
  | .dependenceTest ix => decide (ix < 64)
  | .extentTranslationRetry ix _ => decide (ix < 64)
  | .extentTranslationTimeout ix _ => decide (ix < 64)
  | .preemption core bank => decide (core < 512) && decide (bank < 2)
  | .drainDistanceLimit core bank => decide (core < 512) && decide (bank < 2)
  | .taskResume die ix => decide (die < 4) && decide (ix < 64)
  | .quarantineTimeLimit ix => decide (ix < 64)
  | .barrierRelease core bank => decide (core < 512) && decide (bank < 2)
  | .barrierTimeLimit core bank => decide (core < 512) && decide (bank < 2)
  | .freezeLimit core bank => decide (core < 512) && decide (bank < 2)
  | .landing core bank => decide (core < 512) && decide (bank < 2)
  | .passTriggerRelease core => decide (core < 512)
  | .passComplete core => decide (core < 512)
  | .weightLoadComplete core => decide (core < 512)
  | .calibrationComplete core => decide (core < 512)
  | .copyCommandComplete core eng _ => decide (core < 512) && decide (eng < 2)
  | .trapEntry core bank => decide (core < 512) && decide (bank < 2)
  | .ctxParkLimit core bank => decide (core < 512) && decide (bank < 2)
  | .ctxParkWake core bank => decide (core < 512) && decide (bank < 2)
  | .translationParkLimit core bank => decide (core < 512) && decide (bank < 2)
  | .calibrationStaleTimer core wbank => decide (core < 512) && decide (wbank < 2)
  | .pageTableLineWrite _ => true
  | .publishPerformed core bank => decide (core < 512) && decide (bank < 2)
  | .swapChunkDone die => decide (die < 4)
  | .layerPoweredOn col => decide (col < 512)
  | .deviceReset => true
  | .socketLinkReset => true
  | .helloTimeout => true
  | .preempt => true
  | .resume => true
  | .unbind => true
  | .spdmResponseTimeout => true
  | .readSummaryIntoWindow => true
  | .storeFirmwareImage => true
  | .storeConfigurationRecord => true
  | .resetDevice => true
  | .appendStaging => true
  | .emptyStagingBuffer => true
  | .recoveryStoreDone => true
  | .quarantineLaunchStart => true
  | .ltsFloorRaise => true
  | .lexit => true
  | .taskNext => true
  | .taskDone => true
  | .tide => true
  | .yield => true
  | .eret => true
  | .fenceE => true
  | .halt => true
  | .mstat => true
  | .setEnvelope _ => true
  | .laneFailure col _ => decide (col < 512)
  | .laneBundleFailure bnd => decide (bnd < 4)
  | .peerFlitCrcFail port => decide (port < 16)
  | .peerPortDown port => decide (port < 16)
  | .peerPortUp port => decide (port < 16)
  | .peerRequest port _ => decide (port < 16)
  | .gsCtlEn _ => true
  | .gsStatDvClear _ => true
  | .partnerDetect _ => true
  | .moduleTrained _ _ => true
  | .moduleTrainingFail _ => true
  | .moduleReplayLimit _ => true
  | .guestSpdmComplete _ _ => true
  | .hello _ => true
  | .ack _ => true
  | .fault _ => true
  | .bind part => decide (part < 16)
  | .guestCxlCacheRequest _ => true
  | .guestSnoopResponse _ _ => true
  | .guestTranslationRequest _ _ => true
  | .guestQueueClaim _ _ => true
  | .partitionEntryWrite part _ _ => decide (part < 16)
  | .partitionEnable part => decide (part < 16)
  | .partitionDelete part => decide (part < 16)
  | .lockInterface fn => decide (fn < 64)
  | .startInterface fn => decide (fn < 64)
  | .stopInterface fn => decide (fn < 64)
  | .functionLevelReset fn => decide (fn < 64)
  | .ideStreamFailure fn => decide (fn < 64)
  | .keyTableUncorrectable _ => true
  | .tenantKeyDelivery part _ => decide (part < 16)
  | .getVersion fn => decide (fn < 64)
  | .getCapabilities fn => decide (fn < 64)
  | .negotiateAlgorithms fn => decide (fn < 64)
  | .getDigests fn => decide (fn < 64)
  | .getCertificate fn => decide (fn < 64)
  | .challenge fn => decide (fn < 64)
  | .getMeasurements fn _ => decide (fn < 64)
  | .keyExchange fn => decide (fn < 64)
  | .finish fn _ => decide (fn < 64)
  | .endSession fn => decide (fn < 64)
  | .debugPolicy part _ => decide (part < 16)
  | .haltRequest fn => decide (fn < 64)
  | .haltRelease fn => decide (fn < 64)
  | .hostCxlMemRequest _ => true
  | .registerWrite fn _ _ => decide (fn < 64)
  | .enqAperture fn win _ _ => decide (fn < 64) && decide (win < 16)
  | .claim fn win => decide (fn < 64) && decide (win < 16)
  | .release fn win _ => decide (fn < 64) && decide (win < 16)
  | .queueWindowBind fn win _ => decide (fn < 64) && decide (win < 16)
  | .peerQueueClaim port _ _ => decide (port < 16)
  | .swapExchange die _ _ _ => decide (die < 4)
  | .swapRelease die => decide (die < 4)
  | .rowRemap col _ => decide (col < 512)
  | .layerPowerOn col => decide (col < 512)
  | .layerPowerDown col => decide (col < 512)

end Sys2Proof
end

