-- ==== Sys2Proof/Decode.lean ====
section
/-! DEFINITION. Decoding slot words, total on every word and rejecting by name, and the encoder (file 11). -/

namespace Sys2Proof

/-- Why a slot word is rejected (R268, R274 to R277, R279). -/
inductive DecodeError where
  /-- the opcode is reserved in the slot's map: cause 1 -/
  | unassignedOpcode
  /-- a field that must be 0, a value or a selector is illegal: cause 2 -/
  | reservedField
  deriving DecidableEq, Repr

/-- The cause that a rejected word raises (R279). -/
def DecodeError.cause : DecodeError → Nat
  | .unassignedOpcode => 1
  | .reservedField => 2

/-- The slot words of a bundle, in word order w1 to w6 (R264). -/
inductive Slot where
  | s | v0 | v1 | m | c0 | c1
  deriving DecidableEq, Repr

/-- The number of a slot, as SLOT of cw.cause gives it (Table 9.2). -/
def Slot.num : Slot → Nat
  | .s => 1
  | .v0 => 2
  | .v1 => 3
  | .m => 4
  | .c0 => 5
  | .c1 => 6

/-- The n bits of a word from bit lo up. -/
def fld (w : Word32) (lo n : Nat) : BitVec n := w.extractLsb' lo n

/-- The forms of the S slot (R274): the form of an assigned opcode whose fixed fields hold, before its operand checks. -/
def formS (w : Word32) : Except DecodeError Instr :=
  match (w.extractLsb' 25 7).toNat with
  | 1 => if fld w 0 2 = 0 then .ok (.add (fld w 23 2) (fld w 16 7) (fld w 9 7) (fld w 3 6) (fld w 2 1)) else .error .reservedField
  | 2 => if fld w 0 2 = 0 then .ok (.sub (fld w 23 2) (fld w 16 7) (fld w 9 7) (fld w 3 6) (fld w 2 1)) else .error .reservedField
  | 3 => if fld w 0 2 = 0 then .ok (.and (fld w 23 2) (fld w 16 7) (fld w 9 7) (fld w 3 6) (fld w 2 1)) else .error .reservedField
  | 4 => if fld w 0 2 = 0 then .ok (.or (fld w 23 2) (fld w 16 7) (fld w 9 7) (fld w 3 6) (fld w 2 1)) else .error .reservedField
  | 5 => if fld w 0 2 = 0 then .ok (.xor (fld w 23 2) (fld w 16 7) (fld w 9 7) (fld w 3 6) (fld w 2 1)) else .error .reservedField
  | 6 => if fld w 0 2 = 0 then .ok (.andn (fld w 23 2) (fld w 16 7) (fld w 9 7) (fld w 3 6) (fld w 2 1)) else .error .reservedField
  | 7 => if fld w 0 2 = 0 then .ok (.orn (fld w 23 2) (fld w 16 7) (fld w 9 7) (fld w 3 6) (fld w 2 1)) else .error .reservedField
  | 8 =>
    if fld w 0 2 = 0 then .ok (.shl (fld w 23 2) (fld w 16 7) (fld w 9 7) (fld w 3 6) (fld w 2 1))
    else if fld w 0 2 = 1 then .ok (.shr (fld w 23 2) (fld w 16 7) (fld w 9 7) (fld w 3 6) (fld w 2 1))
    else if fld w 0 2 = 2 then .ok (.sra (fld w 23 2) (fld w 16 7) (fld w 9 7) (fld w 3 6) (fld w 2 1))
    else if fld w 0 2 = 3 then .ok (.rotl (fld w 23 2) (fld w 16 7) (fld w 9 7) (fld w 3 6) (fld w 2 1))
    else .error .reservedField
  | 9 =>
    if fld w 0 2 = 0 then .ok (.min (fld w 23 2) (fld w 16 7) (fld w 9 7) (fld w 3 6) (fld w 2 1))
    else if fld w 0 2 = 1 then .ok (.max (fld w 23 2) (fld w 16 7) (fld w 9 7) (fld w 3 6) (fld w 2 1))
    else if fld w 0 2 = 2 then .ok (.minu (fld w 23 2) (fld w 16 7) (fld w 9 7) (fld w 3 6) (fld w 2 1))
    else if fld w 0 2 = 3 then .ok (.maxu (fld w 23 2) (fld w 16 7) (fld w 9 7) (fld w 3 6) (fld w 2 1))
    else .error .reservedField
  | 10 => if fld w 6 3 = 0 ∧ fld w 0 2 = 0 then .ok (.seq (fld w 23 2) (fld w 16 7) (fld w 9 7) (fld w 3 3) (fld w 2 1)) else .error .reservedField
  | 11 => if fld w 6 3 = 0 ∧ fld w 0 2 = 0 then .ok (.sne (fld w 23 2) (fld w 16 7) (fld w 9 7) (fld w 3 3) (fld w 2 1)) else .error .reservedField
  | 12 => if fld w 6 3 = 0 ∧ fld w 0 2 = 0 then .ok (.slt (fld w 23 2) (fld w 16 7) (fld w 9 7) (fld w 3 3) (fld w 2 1)) else .error .reservedField
  | 13 => if fld w 6 3 = 0 ∧ fld w 0 2 = 0 then .ok (.sltu (fld w 23 2) (fld w 16 7) (fld w 9 7) (fld w 3 3) (fld w 2 1)) else .error .reservedField
  | 14 => if fld w 6 3 = 0 ∧ fld w 0 2 = 0 then .ok (.sle (fld w 23 2) (fld w 16 7) (fld w 9 7) (fld w 3 3) (fld w 2 1)) else .error .reservedField
  | 15 => if fld w 6 3 = 0 ∧ fld w 0 2 = 0 then .ok (.sleu (fld w 23 2) (fld w 16 7) (fld w 9 7) (fld w 3 3) (fld w 2 1)) else .error .reservedField
  | 16 => if fld w 6 3 = 0 ∧ fld w 0 2 = 0 then .ok (.pset (fld w 23 2) (fld w 16 7) (fld w 9 7) (fld w 3 3) (fld w 2 1)) else .error .reservedField
  | 17 => if fld w 19 6 = 16 ∧ fld w 12 4 = 0 ∧ fld w 6 3 = 0 ∧ fld w 0 2 = 0 then .ok (.pand (fld w 16 3) (fld w 9 3) (fld w 3 3) (fld w 2 1)) else .error .reservedField
  | 18 => if fld w 19 6 = 16 ∧ fld w 12 4 = 0 ∧ fld w 6 3 = 0 ∧ fld w 0 2 = 0 then .ok (.por (fld w 16 3) (fld w 9 3) (fld w 3 3) (fld w 2 1)) else .error .reservedField
  | 19 => if fld w 19 6 = 16 ∧ fld w 12 4 = 0 ∧ fld w 6 3 = 0 ∧ fld w 0 2 = 0 then .ok (.pxor (fld w 16 3) (fld w 9 3) (fld w 3 3) (fld w 2 1)) else .error .reservedField
  | 20 => if fld w 0 2 = 0 then .ok (.sel (fld w 23 2) (fld w 16 7) (fld w 9 7) (fld w 3 6) (fld w 2 1)) else .error .reservedField
  | 21 => if fld w 16 9 = 0 ∧ fld w 0 2 = 0 then .ok (.clz (fld w 9 7) (fld w 3 6) (fld w 2 1)) else .error .reservedField
  | 22 => if fld w 16 9 = 0 ∧ fld w 0 2 = 0 then .ok (.ctz (fld w 9 7) (fld w 3 6) (fld w 2 1)) else .error .reservedField
  | 23 => if fld w 16 9 = 0 ∧ fld w 0 2 = 0 then .ok (.popc (fld w 9 7) (fld w 3 6) (fld w 2 1)) else .error .reservedField
  | 24 => if fld w 16 9 = 0 then .ok (.sext (fld w 9 7) (fld w 3 6) (fld w 2 1) (fld w 0 2)) else .error .reservedField
  | 25 => if fld w 16 9 = 0 then .ok (.zext (fld w 9 7) (fld w 3 6) (fld w 2 1) (fld w 0 2)) else .error .reservedField
  | 26 => if fld w 0 2 = 0 then .ok (.bext (fld w 23 2) (fld w 16 7) (fld w 9 7) (fld w 3 6) (fld w 2 1)) else .error .reservedField
  | 27 => if fld w 0 3 = 4 then .ok (.bins (fld w 23 2) (fld w 16 7) (fld w 9 7) (fld w 3 6)) else .error .reservedField
  | 28 => .ok (.lea (fld w 23 2) (fld w 16 7) (fld w 9 7) (fld w 3 6) (fld w 2 1) (fld w 0 2))
  | 29 => if fld w 0 2 = 0 then .ok (.wfield (fld w 23 2) (fld w 16 7) (fld w 9 7) (fld w 3 6) (fld w 2 1)) else .error .reservedField
  | 32 => if fld w 0 2 = 0 then .ok (.mul (fld w 23 2) (fld w 16 7) (fld w 9 7) (fld w 3 6) (fld w 2 1)) else .error .reservedField
  | 33 => if fld w 0 2 = 0 then .ok (.mulh (fld w 23 2) (fld w 16 7) (fld w 9 7) (fld w 3 6) (fld w 2 1)) else .error .reservedField
  | 34 => if fld w 0 2 = 0 then .ok (.mulhu (fld w 23 2) (fld w 16 7) (fld w 9 7) (fld w 3 6) (fld w 2 1)) else .error .reservedField
  | 35 => if fld w 0 2 = 0 then .ok (.div (fld w 23 2) (fld w 16 7) (fld w 9 7) (fld w 3 6) (fld w 2 1)) else .error .reservedField
  | 36 => if fld w 0 2 = 0 then .ok (.divu (fld w 23 2) (fld w 16 7) (fld w 9 7) (fld w 3 6) (fld w 2 1)) else .error .reservedField
  | 37 => if fld w 0 2 = 0 then .ok (.rem (fld w 23 2) (fld w 16 7) (fld w 9 7) (fld w 3 6) (fld w 2 1)) else .error .reservedField
  | 38 => if fld w 0 2 = 0 then .ok (.remu (fld w 23 2) (fld w 16 7) (fld w 9 7) (fld w 3 6) (fld w 2 1)) else .error .reservedField
  | 40 => .ok (.ld (fld w 23 2) (fld w 16 7) (fld w 9 7) (fld w 3 6) (fld w 2 1) (fld w 0 2))
  | 41 => .ok (.ldu (fld w 23 2) (fld w 16 7) (fld w 9 7) (fld w 3 6) (fld w 2 1) (fld w 0 2))
  | 42 => if fld w 2 1 = 0 then .ok (.st (fld w 23 2) (fld w 16 7) (fld w 9 7) (fld w 3 6) (fld w 0 2)) else .error .reservedField
  | 43 => .ok (.ldG (fld w 23 2) (fld w 16 7) (fld w 9 7) (fld w 3 6) (fld w 2 1) (fld w 0 2))
  | 44 => if fld w 2 1 = 0 then .ok (.stG (fld w 23 2) (fld w 16 7) (fld w 9 7) (fld w 3 6) (fld w 0 2)) else .error .reservedField
  | 45 => .ok (.ldE (fld w 23 2) (fld w 16 7) (fld w 9 7) (fld w 3 6) (fld w 2 1) (fld w 0 2))
  | 46 => if fld w 2 1 = 0 then .ok (.stE (fld w 23 2) (fld w 16 7) (fld w 9 7) (fld w 3 6) (fld w 0 2)) else .error .reservedField
  | 47 => if fld w 0 9 = 0 then .ok (.pref (fld w 23 2) (fld w 16 7) (fld w 9 7)) else .error .reservedField
  | 48 => .ok (.amoAdd (fld w 23 2) (fld w 16 7) (fld w 9 7) (fld w 3 6) (fld w 2 1) (fld w 0 2))
  | 49 => .ok (.amoAnd (fld w 23 2) (fld w 16 7) (fld w 9 7) (fld w 3 6) (fld w 2 1) (fld w 0 2))
  | 50 => .ok (.amoOr (fld w 23 2) (fld w 16 7) (fld w 9 7) (fld w 3 6) (fld w 2 1) (fld w 0 2))
  | 51 => .ok (.amoXor (fld w 23 2) (fld w 16 7) (fld w 9 7) (fld w 3 6) (fld w 2 1) (fld w 0 2))
  | 52 => .ok (.amoMin (fld w 23 2) (fld w 16 7) (fld w 9 7) (fld w 3 6) (fld w 2 1) (fld w 0 2))
  | 53 => .ok (.amoMax (fld w 23 2) (fld w 16 7) (fld w 9 7) (fld w 3 6) (fld w 2 1) (fld w 0 2))
  | 54 => .ok (.amoMinu (fld w 23 2) (fld w 16 7) (fld w 9 7) (fld w 3 6) (fld w 2 1) (fld w 0 2))
  | 55 => .ok (.amoMaxu (fld w 23 2) (fld w 16 7) (fld w 9 7) (fld w 3 6) (fld w 2 1) (fld w 0 2))
  | 56 => .ok (.amoSwap (fld w 23 2) (fld w 16 7) (fld w 9 7) (fld w 3 6) (fld w 2 1) (fld w 0 2))
  | 57 => .ok (.amoCas (fld w 23 2) (fld w 16 7) (fld w 9 7) (fld w 3 6) (fld w 2 1) (fld w 0 2))
  | 58 => .ok (.amoFadd (fld w 23 2) (fld w 16 7) (fld w 9 7) (fld w 3 6) (fld w 2 1) (fld w 0 2))
  | 64 => if fld w 6 3 = 0 ∧ fld w 0 3 = 0 then .ok (.qbind (fld w 23 2) (fld w 16 7) (fld w 9 7) (fld w 3 3)) else .error .reservedField
  | 65 => if fld w 19 6 = 32 ∧ fld w 0 9 = 0 then .ok (.enq (fld w 16 3) (fld w 9 7)) else .error .reservedField
  | 66 => if fld w 19 6 = 32 ∧ fld w 0 9 = 0 then .ok (.enqS (fld w 16 3) (fld w 9 7)) else .error .reservedField
  | 67 => if fld w 19 6 = 32 ∧ fld w 0 2 = 0 then .ok (.enqT (fld w 16 3) (fld w 9 7) (fld w 3 6) (fld w 2 1)) else .error .reservedField
  | 68 => if fld w 19 6 = 32 ∧ fld w 0 2 = 0 then .ok (.deq (fld w 16 3) (fld w 9 7) (fld w 3 6) (fld w 2 1)) else .error .reservedField
  | 69 => if fld w 19 6 = 32 ∧ fld w 9 7 = 0 ∧ fld w 0 2 = 0 then .ok (.deqS (fld w 16 3) (fld w 3 6) (fld w 2 1)) else .error .reservedField
  | 70 => if fld w 19 6 = 32 ∧ fld w 0 2 = 0 then .ok (.deqT (fld w 16 3) (fld w 9 7) (fld w 3 6) (fld w 2 1)) else .error .reservedField
  | 71 => if fld w 19 6 = 32 ∧ fld w 0 2 = 0 then .ok (.qpeek (fld w 16 3) (fld w 9 7) (fld w 3 6) (fld w 2 1)) else .error .reservedField
  | 72 => if fld w 19 6 = 32 ∧ fld w 9 7 = 0 ∧ fld w 0 2 = 0 then .ok (.qstat (fld w 16 3) (fld w 3 6) (fld w 2 1)) else .error .reservedField
  | 73 => if fld w 19 6 = 32 ∧ fld w 0 16 = 0 then .ok (.qdrain (fld w 16 3)) else .error .reservedField
  | 80 => if fld w 0 16 = 0 then .ok (.j (fld w 23 2) (fld w 16 7)) else .error .reservedField
  | 81 => if fld w 16 9 = 0 ∧ fld w 0 9 = 0 then .ok (.jr (fld w 9 7)) else .error .reservedField
  | 82 => if fld w 9 7 = 0 ∧ fld w 0 2 = 0 then .ok (.call (fld w 23 2) (fld w 16 7) (fld w 3 6) (fld w 2 1)) else .error .reservedField
  | 83 => if fld w 16 9 = 0 ∧ fld w 0 2 = 0 then .ok (.callr (fld w 9 7) (fld w 3 6) (fld w 2 1)) else .error .reservedField
  | 84 => if fld w 16 9 = 0 ∧ fld w 0 9 = 0 then .ok (.ret (fld w 9 7)) else .error .reservedField
  | 85 => if fld w 2 7 = 0 then .ok (.br (fld w 23 2) (fld w 16 7) (fld w 9 7) (fld w 0 2)) else .error .reservedField
  | 86 => if fld w 20 5 = 16 ∧ fld w 0 16 = 0 then .ok (.loop (fld w 16 4)) else .error .reservedField
  | 87 => if fld w 0 25 = 0 then .ok (.lexit) else .error .reservedField
  | 88 => if fld w 0 25 = 0 then .ok (.taskNext) else .error .reservedField
  | 89 => if fld w 0 25 = 0 then .ok (.taskDone) else .error .reservedField
  | 90 => if fld w 0 25 = 0 then .ok (.tide) else .error .reservedField
  | 91 => if fld w 0 25 = 0 then .ok (.yield) else .error .reservedField
  | 96 => if fld w 0 16 = 0 then .ok (.trap (fld w 23 2) (fld w 16 7)) else .error .reservedField
  | 97 => if fld w 0 25 = 0 then .ok (.eret) else .error .reservedField
  | 98 => if fld w 22 3 = 0 ∧ fld w 0 16 = 0 then .ok (.fenceInstruction (fld w 19 3) (fld w 16 3)) else .error .reservedField
  | 99 => if fld w 0 25 = 0 then .ok (.fenceE) else .error .reservedField
  | 100 => if fld w 0 9 = 0 then .ok (.cleanR (fld w 23 2) (fld w 16 7) (fld w 9 7)) else .error .reservedField
  | 101 => if fld w 0 9 = 0 then .ok (.invalR (fld w 23 2) (fld w 16 7) (fld w 9 7)) else .error .reservedField
  | 102 => if fld w 0 9 = 0 then .ok (.flushR (fld w 23 2) (fld w 16 7) (fld w 9 7)) else .error .reservedField
  | 103 => if fld w 0 9 = 0 then .ok (.publish (fld w 23 2) (fld w 16 7) (fld w 9 7)) else .error .reservedField
  | 104 => if fld w 9 7 = 0 ∧ fld w 0 2 = 0 then .ok (.rdcw (fld w 23 2) (fld w 16 7) (fld w 3 6) (fld w 2 1)) else .error .reservedField
  | 105 => if fld w 0 9 = 0 then .ok (.wrcw (fld w 23 2) (fld w 16 7) (fld w 9 7)) else .error .reservedField
  | 106 => if fld w 7 2 = 0 ∧ fld w 0 3 = 0 then .ok (.nestSet (fld w 23 2) (fld w 16 7) (fld w 9 7) (fld w 3 4)) else .error .reservedField
  | 107 => if fld w 7 2 = 0 ∧ fld w 0 3 = 0 then .ok (.nestDim (fld w 23 2) (fld w 16 7) (fld w 9 7) (fld w 3 4)) else .error .reservedField
  | 108 => if fld w 7 2 = 0 ∧ fld w 0 3 = 0 then .ok (.nestBlk (fld w 23 2) (fld w 16 7) (fld w 9 7) (fld w 3 4)) else .error .reservedField
  | 109 => if fld w 0 9 = 0 then .ok (.bwInit (fld w 23 2) (fld w 16 7) (fld w 9 7)) else .error .reservedField
  | 110 => if fld w 0 2 = 0 then .ok (.bwWait (fld w 23 2) (fld w 16 7) (fld w 9 7) (fld w 3 6) (fld w 2 1)) else .error .reservedField
  | 111 => if fld w 0 9 = 0 then .ok (.ctxPark (fld w 23 2) (fld w 16 7) (fld w 9 7)) else .error .reservedField
  | 112 => if fld w 0 25 = 0 then .ok (.halt) else .error .reservedField
  | _ => .error .unassignedOpcode

/-- The forms of the V0 and V1 slots (R275): the form of an assigned opcode whose fixed fields hold, before its operand checks. -/
def formV (w : Word32) : Except DecodeError Instr :=
  match (w.extractLsb' 25 7).toNat with
  | 1 => if fld w 8 1 = 0 then .ok (.vadd (fld w 23 2) (fld w 16 7) (fld w 9 7) (fld w 3 5) (fld w 2 1) (fld w 0 2)) else .error .reservedField
  | 2 => if fld w 8 1 = 0 then .ok (.vsub (fld w 23 2) (fld w 16 7) (fld w 9 7) (fld w 3 5) (fld w 2 1) (fld w 0 2)) else .error .reservedField
  | 3 => if fld w 8 1 = 0 then .ok (.vmul (fld w 23 2) (fld w 16 7) (fld w 9 7) (fld w 3 5) (fld w 2 1) (fld w 0 2)) else .error .reservedField
  | 4 => if fld w 8 1 = 0 then .ok (.vfma (fld w 23 2) (fld w 16 7) (fld w 9 7) (fld w 3 5) (fld w 2 1) (fld w 0 2)) else .error .reservedField
  | 5 => if fld w 8 1 = 0 then .ok (.vfms (fld w 23 2) (fld w 16 7) (fld w 9 7) (fld w 3 5) (fld w 2 1) (fld w 0 2)) else .error .reservedField
  | 6 => if fld w 8 1 = 0 then .ok (.vfnma (fld w 23 2) (fld w 16 7) (fld w 9 7) (fld w 3 5) (fld w 2 1) (fld w 0 2)) else .error .reservedField
  | 7 => if fld w 8 1 = 0 then .ok (.vmin (fld w 23 2) (fld w 16 7) (fld w 9 7) (fld w 3 5) (fld w 2 1) (fld w 0 2)) else .error .reservedField
  | 8 => if fld w 8 1 = 0 then .ok (.vmax (fld w 23 2) (fld w 16 7) (fld w 9 7) (fld w 3 5) (fld w 2 1) (fld w 0 2)) else .error .reservedField
  | 9 => if fld w 16 9 = 0 ∧ fld w 8 1 = 0 then .ok (.vabs (fld w 9 7) (fld w 3 5) (fld w 2 1) (fld w 0 2)) else .error .reservedField
  | 10 => if fld w 16 9 = 0 ∧ fld w 8 1 = 0 then .ok (.vneg (fld w 9 7) (fld w 3 5) (fld w 2 1) (fld w 0 2)) else .error .reservedField
  | 11 => if fld w 8 1 = 0 then .ok (.vsel (fld w 23 2) (fld w 16 7) (fld w 9 7) (fld w 3 5) (fld w 2 1) (fld w 0 2)) else .error .reservedField
  | 12 => if fld w 8 1 = 0 then .ok (.vround (fld w 23 2) (fld w 16 7) (fld w 9 7) (fld w 3 5) (fld w 2 1) (fld w 0 2)) else .error .reservedField
  | 13 => if fld w 8 1 = 0 then .ok (.vscale (fld w 23 2) (fld w 16 7) (fld w 9 7) (fld w 3 5) (fld w 2 1) (fld w 0 2)) else .error .reservedField
  | 16 => if fld w 6 3 = 0 then .ok (.vcmpEq (fld w 23 2) (fld w 16 7) (fld w 9 7) (fld w 3 3) (fld w 2 1) (fld w 0 2)) else .error .reservedField
  | 17 => if fld w 6 3 = 0 then .ok (.vcmpNe (fld w 23 2) (fld w 16 7) (fld w 9 7) (fld w 3 3) (fld w 2 1) (fld w 0 2)) else .error .reservedField
  | 18 => if fld w 6 3 = 0 then .ok (.vcmpLt (fld w 23 2) (fld w 16 7) (fld w 9 7) (fld w 3 3) (fld w 2 1) (fld w 0 2)) else .error .reservedField
  | 19 => if fld w 6 3 = 0 then .ok (.vcmpLe (fld w 23 2) (fld w 16 7) (fld w 9 7) (fld w 3 3) (fld w 2 1) (fld w 0 2)) else .error .reservedField
  | 48 => if fld w 8 1 = 0 then .ok (.vaddI (fld w 23 2) (fld w 16 7) (fld w 9 7) (fld w 3 5) (fld w 2 1) (fld w 0 2)) else .error .reservedField
  | 49 => if fld w 8 1 = 0 then .ok (.vsubI (fld w 23 2) (fld w 16 7) (fld w 9 7) (fld w 3 5) (fld w 2 1) (fld w 0 2)) else .error .reservedField
  | 50 => if fld w 8 1 = 0 then .ok (.vmulI (fld w 23 2) (fld w 16 7) (fld w 9 7) (fld w 3 5) (fld w 2 1) (fld w 0 2)) else .error .reservedField
  | 51 => if fld w 8 1 = 0 then .ok (.vmulhI (fld w 23 2) (fld w 16 7) (fld w 9 7) (fld w 3 5) (fld w 2 1) (fld w 0 2)) else .error .reservedField
  | 52 => if fld w 8 1 = 0 ∧ fld w 0 2 = 0 then .ok (.vand (fld w 23 2) (fld w 16 7) (fld w 9 7) (fld w 3 5) (fld w 2 1)) else .error .reservedField
  | 53 => if fld w 8 1 = 0 ∧ fld w 0 2 = 0 then .ok (.vor (fld w 23 2) (fld w 16 7) (fld w 9 7) (fld w 3 5) (fld w 2 1)) else .error .reservedField
  | 54 => if fld w 8 1 = 0 ∧ fld w 0 2 = 0 then .ok (.vxor (fld w 23 2) (fld w 16 7) (fld w 9 7) (fld w 3 5) (fld w 2 1)) else .error .reservedField
  | 55 => if fld w 8 1 = 0 then .ok (.vshl (fld w 23 2) (fld w 16 7) (fld w 9 7) (fld w 3 5) (fld w 2 1) (fld w 0 2)) else .error .reservedField
  | 56 => if fld w 8 1 = 0 then .ok (.vshr (fld w 23 2) (fld w 16 7) (fld w 9 7) (fld w 3 5) (fld w 2 1) (fld w 0 2)) else .error .reservedField
  | 57 => if fld w 8 1 = 0 then .ok (.vsra (fld w 23 2) (fld w 16 7) (fld w 9 7) (fld w 3 5) (fld w 2 1) (fld w 0 2)) else .error .reservedField
  | 58 => if fld w 8 1 = 0 then .ok (.vminI (fld w 23 2) (fld w 16 7) (fld w 9 7) (fld w 3 5) (fld w 2 1) (fld w 0 2)) else .error .reservedField
  | 59 => if fld w 8 1 = 0 then .ok (.vmaxI (fld w 23 2) (fld w 16 7) (fld w 9 7) (fld w 3 5) (fld w 2 1) (fld w 0 2)) else .error .reservedField
  | 60 => if fld w 16 9 = 0 ∧ fld w 8 1 = 0 then .ok (.vabsI (fld w 9 7) (fld w 3 5) (fld w 2 1) (fld w 0 2)) else .error .reservedField
  | 72 => if fld w 8 1 = 0 ∧ fld w 0 2 = 0 then .ok (.vcvt (fld w 23 2) (fld w 16 7) (fld w 9 7) (fld w 3 5) (fld w 2 1)) else .error .reservedField
  | 73 => if fld w 8 1 = 0 ∧ fld w 0 2 = 0 then .ok (.vrq (fld w 23 2) (fld w 16 7) (fld w 9 7) (fld w 3 5) (fld w 2 1)) else .error .reservedField
  | 80 => if fld w 16 9 = 0 ∧ fld w 8 1 = 0 then .ok (.vexp2 (fld w 9 7) (fld w 3 5) (fld w 2 1) (fld w 0 2)) else .error .reservedField
  | 81 => if fld w 16 9 = 0 ∧ fld w 8 1 = 0 then .ok (.vlog2 (fld w 9 7) (fld w 3 5) (fld w 2 1) (fld w 0 2)) else .error .reservedField
  | 82 => if fld w 16 9 = 0 ∧ fld w 8 1 = 0 then .ok (.vrcp (fld w 9 7) (fld w 3 5) (fld w 2 1) (fld w 0 2)) else .error .reservedField
  | 83 => if fld w 16 9 = 0 ∧ fld w 8 1 = 0 then .ok (.vrsqrt (fld w 9 7) (fld w 3 5) (fld w 2 1) (fld w 0 2)) else .error .reservedField
  | 84 => if fld w 16 9 = 0 ∧ fld w 8 1 = 0 then .ok (.vsigm (fld w 9 7) (fld w 3 5) (fld w 2 1) (fld w 0 2)) else .error .reservedField
  | 85 => if fld w 16 9 = 0 ∧ fld w 8 1 = 0 then .ok (.vtanh (fld w 9 7) (fld w 3 5) (fld w 2 1) (fld w 0 2)) else .error .reservedField
  | 96 => if fld w 16 9 = 0 ∧ fld w 8 1 = 0 then .ok (.vmov (fld w 9 7) (fld w 3 5) (fld w 2 1) (fld w 0 2)) else .error .reservedField
  | 97 => if fld w 8 1 = 0 then .ok (.vbc (fld w 23 2) (fld w 16 7) (fld w 9 7) (fld w 3 5) (fld w 2 1) (fld w 0 2)) else .error .reservedField
  | 98 => if fld w 8 1 = 0 then .ok (.vperm (fld w 23 2) (fld w 16 7) (fld w 9 7) (fld w 3 5) (fld w 2 1) (fld w 0 2)) else .error .reservedField
  | 99 => if fld w 8 1 = 0 then .ok (.vshuf (fld w 23 2) (fld w 16 7) (fld w 9 7) (fld w 3 5) (fld w 2 1) (fld w 0 2)) else .error .reservedField
  | 100 => if fld w 16 9 = 0 ∧ fld w 8 1 = 0 then .ok (.vredAdd (fld w 9 7) (fld w 3 5) (fld w 2 1) (fld w 0 2)) else .error .reservedField
  | 101 => if fld w 16 9 = 0 ∧ fld w 8 1 = 0 then .ok (.vredMax (fld w 9 7) (fld w 3 5) (fld w 2 1) (fld w 0 2)) else .error .reservedField
  | 104 => if fld w 20 5 = 16 ∧ fld w 8 1 = 0 ∧ fld w 0 2 = 0 then .ok (.vld (fld w 16 4) (fld w 9 7) (fld w 3 5) (fld w 2 1)) else .error .reservedField
  | 105 => if fld w 20 5 = 16 ∧ fld w 8 1 = 0 ∧ fld w 0 3 = 0 then .ok (.vst (fld w 16 4) (fld w 9 7) (fld w 3 5)) else .error .reservedField
  | 106 => if fld w 8 1 = 0 ∧ fld w 0 2 = 0 then .ok (.vaccRd (fld w 23 2) (fld w 16 7) (fld w 9 7) (fld w 3 5) (fld w 2 1)) else .error .reservedField
  | 107 => if fld w 8 1 = 0 ∧ fld w 0 3 = 0 then .ok (.vaccWr (fld w 23 2) (fld w 16 7) (fld w 9 7) (fld w 3 5)) else .error .reservedField
  | 108 => if fld w 8 17 = 0 ∧ fld w 0 2 = 0 then .ok (.vmrow (fld w 3 5) (fld w 2 1)) else .error .reservedField
  | 112 => if fld w 19 6 = 16 ∧ fld w 12 4 = 0 ∧ fld w 6 3 = 0 ∧ fld w 0 2 = 0 then .ok (.vmand (fld w 16 3) (fld w 9 3) (fld w 3 3) (fld w 2 1)) else .error .reservedField
  | 113 => if fld w 19 6 = 16 ∧ fld w 12 4 = 0 ∧ fld w 6 3 = 0 ∧ fld w 0 2 = 0 then .ok (.vmor (fld w 16 3) (fld w 9 3) (fld w 3 3) (fld w 2 1)) else .error .reservedField
  | 114 => if fld w 12 13 = 0 ∧ fld w 6 3 = 0 ∧ fld w 0 2 = 0 then .ok (.vmnot (fld w 9 3) (fld w 3 3) (fld w 2 1)) else .error .reservedField
  | 115 => if fld w 8 17 = 0 ∧ fld w 0 2 = 0 then .ok (.vmcnt (fld w 3 5) (fld w 2 1)) else .error .reservedField
  | _ => .error .unassignedOpcode

/-- The forms of the M slot (R276): the form of an assigned opcode whose fixed fields hold, before its operand checks. -/
def formM (w : Word32) : Except DecodeError Instr :=
  match (w.extractLsb' 25 7).toNat with
  | 1 => if fld w 16 9 = 0 ∧ fld w 5 4 = 0 then .ok (.mwld (fld w 9 7) (fld w 4 1) (fld w 0 4)) else .error .reservedField
  | 2 => if fld w 16 9 = 0 ∧ fld w 5 4 = 0 then .ok (.mwldB (fld w 9 7) (fld w 4 1) (fld w 0 4)) else .error .reservedField
  | 3 => if fld w 2 23 = 0 then .ok (.mswap (fld w 0 2)) else .error .reservedField
  | 4 => if fld w 16 9 = 0 then .ok (.mrun (fld w 9 7) (fld w 7 2) (fld w 6 1) (fld w 4 2) (fld w 0 4)) else .error .reservedField
  | 5 => if fld w 16 9 = 0 then .ok (.mrunF (fld w 9 7) (fld w 7 2) (fld w 6 1) (fld w 4 2) (fld w 0 4)) else .error .reservedField
  | 6 => if fld w 8 17 = 0 then .ok (.mzero (fld w 0 8)) else .error .reservedField
  | 7 => if fld w 0 25 = 0 then .ok (.mstat) else .error .reservedField
  | 8 => if fld w 1 24 = 0 then .ok (.mcal (fld w 0 1)) else .error .reservedField
  | 9 => if fld w 16 9 = 0 ∧ fld w 0 9 = 0 then .ok (.mclip (fld w 9 7)) else .error .reservedField
  | 10 => if fld w 1 24 = 0 then .ok (.mmode (fld w 0 1)) else .error .reservedField
  | 11 =>
    if fld w 16 9 = 0 ∧ fld w 0 9 = 0 then .ok (.mbound (fld w 9 7))
    else if fld w 0 9 = 1 then .ok (.mboundSet (fld w 23 2) (fld w 16 7) (fld w 9 7))
    else .error .reservedField
  | _ => .error .unassignedOpcode

/-- The forms of the C0 and C1 slots (R277): the form of an assigned opcode whose fixed fields hold, before its operand checks. -/
def formC (w : Word32) : Except DecodeError Instr :=
  match (w.extractLsb' 25 7).toNat with
  | 1 => if fld w 8 1 = 0 then .ok (.cp (fld w 23 2) (fld w 16 7) (fld w 9 7) (fld w 4 4) (fld w 0 4)) else .error .reservedField
  | 2 => if fld w 8 1 = 0 then .ok (.cpSh (fld w 23 2) (fld w 16 7) (fld w 9 7) (fld w 4 4) (fld w 0 4)) else .error .reservedField
  | 3 => if fld w 8 1 = 0 then .ok (.cpRed (fld w 23 2) (fld w 16 7) (fld w 9 7) (fld w 4 4) (fld w 0 4)) else .error .reservedField
  | 4 => if fld w 8 1 = 0 then .ok (.cpG (fld w 23 2) (fld w 16 7) (fld w 9 7) (fld w 4 4) (fld w 0 4)) else .error .reservedField
  | 5 => if fld w 8 1 = 0 then .ok (.cpS (fld w 23 2) (fld w 16 7) (fld w 9 7) (fld w 4 4) (fld w 0 4)) else .error .reservedField
  | 6 => if fld w 8 1 = 0 then .ok (.bk (fld w 23 2) (fld w 16 7) (fld w 9 7) (fld w 4 4) (fld w 0 4)) else .error .reservedField
  | 7 => if fld w 8 1 = 0 then .ok (.bkRed (fld w 23 2) (fld w 16 7) (fld w 9 7) (fld w 4 4) (fld w 0 4)) else .error .reservedField
  | 8 => if fld w 16 9 = 0 ∧ fld w 3 6 = 0 then .ok (.cpQ (fld w 9 7) (fld w 0 3)) else .error .reservedField
  | 9 => if fld w 1 24 = 0 then .ok (.cpFence (fld w 0 1)) else .error .reservedField
  | 10 => if fld w 16 9 = 0 ∧ fld w 0 9 = 0 then .ok (.cpStat (fld w 9 7)) else .error .reservedField
  | 11 => if fld w 16 9 = 0 ∧ fld w 0 9 = 0 then .ok (.cpQuiesce (fld w 9 7)) else .error .reservedField
  | 12 => if fld w 16 9 = 0 ∧ fld w 0 9 = 0 then .ok (.cpAbort (fld w 9 7)) else .error .reservedField
  | 13 => if fld w 0 9 = 0 then .ok (.cpPub (fld w 23 2) (fld w 16 7) (fld w 9 7)) else .error .reservedField
  | _ => .error .unassignedOpcode


/-- The operand checks that follow the fixed fields (R279): reserved selectors and values are rejected. -/
def checked (r : Except DecodeError Instr) : Except DecodeError (Option Instr) :=
  match r with
  | .error e => .error e
  | .ok i => if i.wf then .ok (some i) else .error .reservedField

/-- Decoding one slot word: no instruction for a nop word, whose every bit is 0 (R268). -/
def decodeSlot (sl : Slot) (w : Word32) : Except DecodeError (Option Instr) :=
  if w.extractLsb' 25 7 = 0 then (if w = 0 then .ok none else .error .reservedField)
  else
    match sl with
    | .s => checked (formS w)
    | .v0 => checked (formV w)
    | .v1 => checked (formV w)
    | .m => checked (formM w)
    | .c0 => checked (formC w)
    | .c1 => checked (formC w)

/-- The instruction a slot map gives a word, if it gives one. -/
def readWord (sl : Slot) (w : Word32) : Option Instr :=
  match decodeSlot sl w with
  | .ok r => r
  | .error _ => none

/-- The first of the S, V, M and C maps that assigns the word a form. The four maps share the opcode numbers
(R274 to R277), so a word alone does not say its slot. -/
def slotFor (w : Word32) : Option (Slot × Instr) :=
  match readWord .s w with
  | some i => some (.s, i)
  | none =>
    match readWord .v0 w with
    | some i => some (.v0, i)
    | none =>
      match readWord .m w with
      | some i => some (.m, i)
      | none =>
        match readWord .c0 w with
        | some i => some (.c0, i)
        | none => none

/-- The instruction read from a table word: a slot word has 32 bits; no other length is an instruction. The words are
numbered as the table numbers them, and a slot word is one little-endian 32-bit word (R264, R267). -/
def decodeTableWord (nbits w : Nat) : Option Instr :=
  if nbits = 32 then (slotFor (BitVec.ofNat 32 w)).map (·.2) else none

/-- The words of an instruction: one 32-bit slot word for a slot form (R267), none for an operation or event,
which has no words of its own. Written from the same encoding tables as the forms above. -/
def encode (i : Instr) : List Word32 :=
  match i with
  | .add om os ts wd we => [1#7 ++ om ++ os ++ ts ++ wd ++ we ++ 0#2]
  | .sub om os ts wd we => [2#7 ++ om ++ os ++ ts ++ wd ++ we ++ 0#2]
  | .and om os ts wd we => [3#7 ++ om ++ os ++ ts ++ wd ++ we ++ 0#2]
  | .or om os ts wd we => [4#7 ++ om ++ os ++ ts ++ wd ++ we ++ 0#2]
  | .xor om os ts wd we => [5#7 ++ om ++ os ++ ts ++ wd ++ we ++ 0#2]
  | .andn om os ts wd we => [6#7 ++ om ++ os ++ ts ++ wd ++ we ++ 0#2]
  | .orn om os ts wd we => [7#7 ++ om ++ os ++ ts ++ wd ++ we ++ 0#2]
  | .shl om os ts wd we => [8#7 ++ om ++ os ++ ts ++ wd ++ we ++ 0#2]
  | .shr om os ts wd we => [8#7 ++ om ++ os ++ ts ++ wd ++ we ++ 1#2]
  | .sra om os ts wd we => [8#7 ++ om ++ os ++ ts ++ wd ++ we ++ 2#2]
  | .rotl om os ts wd we => [8#7 ++ om ++ os ++ ts ++ wd ++ we ++ 3#2]
  | .min om os ts wd we => [9#7 ++ om ++ os ++ ts ++ wd ++ we ++ 0#2]
  | .max om os ts wd we => [9#7 ++ om ++ os ++ ts ++ wd ++ we ++ 1#2]
  | .minu om os ts wd we => [9#7 ++ om ++ os ++ ts ++ wd ++ we ++ 2#2]
  | .maxu om os ts wd we => [9#7 ++ om ++ os ++ ts ++ wd ++ we ++ 3#2]
  | .seq om os ts wd we => [10#7 ++ om ++ os ++ ts ++ 0#3 ++ wd ++ we ++ 0#2]
  | .sne om os ts wd we => [11#7 ++ om ++ os ++ ts ++ 0#3 ++ wd ++ we ++ 0#2]
  | .slt om os ts wd we => [12#7 ++ om ++ os ++ ts ++ 0#3 ++ wd ++ we ++ 0#2]
  | .sltu om os ts wd we => [13#7 ++ om ++ os ++ ts ++ 0#3 ++ wd ++ we ++ 0#2]
  | .sle om os ts wd we => [14#7 ++ om ++ os ++ ts ++ 0#3 ++ wd ++ we ++ 0#2]
  | .sleu om os ts wd we => [15#7 ++ om ++ os ++ ts ++ 0#3 ++ wd ++ we ++ 0#2]
  | .pset om os ts wd we => [16#7 ++ om ++ os ++ ts ++ 0#3 ++ wd ++ we ++ 0#2]
  | .pand b a wd we => [17#7 ++ 16#6 ++ b ++ 0#4 ++ a ++ 0#3 ++ wd ++ we ++ 0#2]
  | .por b a wd we => [18#7 ++ 16#6 ++ b ++ 0#4 ++ a ++ 0#3 ++ wd ++ we ++ 0#2]
  | .pxor b a wd we => [19#7 ++ 16#6 ++ b ++ 0#4 ++ a ++ 0#3 ++ wd ++ we ++ 0#2]
  | .sel om os ts wd we => [20#7 ++ om ++ os ++ ts ++ wd ++ we ++ 0#2]
  | .clz ts wd we => [21#7 ++ 0#9 ++ ts ++ wd ++ we ++ 0#2]
  | .ctz ts wd we => [22#7 ++ 0#9 ++ ts ++ wd ++ we ++ 0#2]
  | .popc ts wd we => [23#7 ++ 0#9 ++ ts ++ wd ++ we ++ 0#2]
  | .sext ts wd we q => [24#7 ++ 0#9 ++ ts ++ wd ++ we ++ q]
  | .zext ts wd we q => [25#7 ++ 0#9 ++ ts ++ wd ++ we ++ q]
  | .bext om os ts wd we => [26#7 ++ om ++ os ++ ts ++ wd ++ we ++ 0#2]
  | .bins om os ts wd => [27#7 ++ om ++ os ++ ts ++ wd ++ 4#3]
  | .lea om os ts wd we q => [28#7 ++ om ++ os ++ ts ++ wd ++ we ++ q]
  | .wfield om os ts wd we => [29#7 ++ om ++ os ++ ts ++ wd ++ we ++ 0#2]
  | .mul om os ts wd we => [32#7 ++ om ++ os ++ ts ++ wd ++ we ++ 0#2]
  | .mulh om os ts wd we => [33#7 ++ om ++ os ++ ts ++ wd ++ we ++ 0#2]
  | .mulhu om os ts wd we => [34#7 ++ om ++ os ++ ts ++ wd ++ we ++ 0#2]
  | .div om os ts wd we => [35#7 ++ om ++ os ++ ts ++ wd ++ we ++ 0#2]
  | .divu om os ts wd we => [36#7 ++ om ++ os ++ ts ++ wd ++ we ++ 0#2]
  | .rem om os ts wd we => [37#7 ++ om ++ os ++ ts ++ wd ++ we ++ 0#2]
  | .remu om os ts wd we => [38#7 ++ om ++ os ++ ts ++ wd ++ we ++ 0#2]
  | .ld om os ts wd we q => [40#7 ++ om ++ os ++ ts ++ wd ++ we ++ q]
  | .ldu om os ts wd we q => [41#7 ++ om ++ os ++ ts ++ wd ++ we ++ q]
  | .st om os ts wd q => [42#7 ++ om ++ os ++ ts ++ wd ++ 0#1 ++ q]
  | .ldG om os ts wd we q => [43#7 ++ om ++ os ++ ts ++ wd ++ we ++ q]
  | .stG om os ts wd q => [44#7 ++ om ++ os ++ ts ++ wd ++ 0#1 ++ q]
  | .ldE om os ts wd we q => [45#7 ++ om ++ os ++ ts ++ wd ++ we ++ q]
  | .stE om os ts wd q => [46#7 ++ om ++ os ++ ts ++ wd ++ 0#1 ++ q]
  | .pref om os ts => [47#7 ++ om ++ os ++ ts ++ 0#9]
  | .amoAdd om os ts wd we q => [48#7 ++ om ++ os ++ ts ++ wd ++ we ++ q]
  | .amoAnd om os ts wd we q => [49#7 ++ om ++ os ++ ts ++ wd ++ we ++ q]
  | .amoOr om os ts wd we q => [50#7 ++ om ++ os ++ ts ++ wd ++ we ++ q]
  | .amoXor om os ts wd we q => [51#7 ++ om ++ os ++ ts ++ wd ++ we ++ q]
  | .amoMin om os ts wd we q => [52#7 ++ om ++ os ++ ts ++ wd ++ we ++ q]
  | .amoMax om os ts wd we q => [53#7 ++ om ++ os ++ ts ++ wd ++ we ++ q]
  | .amoMinu om os ts wd we q => [54#7 ++ om ++ os ++ ts ++ wd ++ we ++ q]
  | .amoMaxu om os ts wd we q => [55#7 ++ om ++ os ++ ts ++ wd ++ we ++ q]
  | .amoSwap om os ts wd we q => [56#7 ++ om ++ os ++ ts ++ wd ++ we ++ q]
  | .amoCas om os ts wd we q => [57#7 ++ om ++ os ++ ts ++ wd ++ we ++ q]
  | .amoFadd om os ts wd we q => [58#7 ++ om ++ os ++ ts ++ wd ++ we ++ q]
  | .qbind om os ts n => [64#7 ++ om ++ os ++ ts ++ 0#3 ++ n ++ 0#3]
  | .enq n ts => [65#7 ++ 32#6 ++ n ++ ts ++ 0#9]
  | .enqS n ts => [66#7 ++ 32#6 ++ n ++ ts ++ 0#9]
  | .enqT n ts wd we => [67#7 ++ 32#6 ++ n ++ ts ++ wd ++ we ++ 0#2]
  | .deq n ts wd we => [68#7 ++ 32#6 ++ n ++ ts ++ wd ++ we ++ 0#2]
  | .deqS n wd we => [69#7 ++ 32#6 ++ n ++ 0#7 ++ wd ++ we ++ 0#2]
  | .deqT n ts wd we => [70#7 ++ 32#6 ++ n ++ ts ++ wd ++ we ++ 0#2]
  | .qpeek n ts wd we => [71#7 ++ 32#6 ++ n ++ ts ++ wd ++ we ++ 0#2]
  | .qstat n wd we => [72#7 ++ 32#6 ++ n ++ 0#7 ++ wd ++ we ++ 0#2]
  | .qdrain n => [73#7 ++ 32#6 ++ n ++ 0#16]
  | .j om os => [80#7 ++ om ++ os ++ 0#16]
  | .jr ts => [81#7 ++ 0#9 ++ ts ++ 0#9]
  | .call om os wd we => [82#7 ++ om ++ os ++ 0#7 ++ wd ++ we ++ 0#2]
  | .callr ts wd we => [83#7 ++ 0#9 ++ ts ++ wd ++ we ++ 0#2]
  | .ret ts => [84#7 ++ 0#9 ++ ts ++ 0#9]
  | .br om os ts q => [85#7 ++ om ++ os ++ ts ++ 0#7 ++ q]
  | .loop k => [86#7 ++ 16#5 ++ k ++ 0#16]
  | .trap om os => [96#7 ++ om ++ os ++ 0#16]
  | .fenceInstruction k c => [98#7 ++ 0#3 ++ k ++ c ++ 0#16]
  | .cleanR om os ts => [100#7 ++ om ++ os ++ ts ++ 0#9]
  | .invalR om os ts => [101#7 ++ om ++ os ++ ts ++ 0#9]
  | .flushR om os ts => [102#7 ++ om ++ os ++ ts ++ 0#9]
  | .publish om os ts => [103#7 ++ om ++ os ++ ts ++ 0#9]
  | .rdcw om os wd we => [104#7 ++ om ++ os ++ 0#7 ++ wd ++ we ++ 0#2]
  | .wrcw om os ts => [105#7 ++ om ++ os ++ ts ++ 0#9]
  | .nestSet om os ts k => [106#7 ++ om ++ os ++ ts ++ 0#2 ++ k ++ 0#3]
  | .nestDim om os ts k => [107#7 ++ om ++ os ++ ts ++ 0#2 ++ k ++ 0#3]
  | .nestBlk om os ts k => [108#7 ++ om ++ os ++ ts ++ 0#2 ++ k ++ 0#3]
  | .bwInit om os ts => [109#7 ++ om ++ os ++ ts ++ 0#9]
  | .bwWait om os ts wd we => [110#7 ++ om ++ os ++ ts ++ wd ++ we ++ 0#2]
  | .ctxPark om os ts => [111#7 ++ om ++ os ++ ts ++ 0#9]
  | .vadd om os ts wd we q => [1#7 ++ om ++ os ++ ts ++ 0#1 ++ wd ++ we ++ q]
  | .vsub om os ts wd we q => [2#7 ++ om ++ os ++ ts ++ 0#1 ++ wd ++ we ++ q]
  | .vmul om os ts wd we q => [3#7 ++ om ++ os ++ ts ++ 0#1 ++ wd ++ we ++ q]
  | .vfma om os ts wd we q => [4#7 ++ om ++ os ++ ts ++ 0#1 ++ wd ++ we ++ q]
  | .vfms om os ts wd we q => [5#7 ++ om ++ os ++ ts ++ 0#1 ++ wd ++ we ++ q]
  | .vfnma om os ts wd we q => [6#7 ++ om ++ os ++ ts ++ 0#1 ++ wd ++ we ++ q]
  | .vmin om os ts wd we q => [7#7 ++ om ++ os ++ ts ++ 0#1 ++ wd ++ we ++ q]
  | .vmax om os ts wd we q => [8#7 ++ om ++ os ++ ts ++ 0#1 ++ wd ++ we ++ q]
  | .vabs ts wd we q => [9#7 ++ 0#9 ++ ts ++ 0#1 ++ wd ++ we ++ q]
  | .vneg ts wd we q => [10#7 ++ 0#9 ++ ts ++ 0#1 ++ wd ++ we ++ q]
  | .vsel om os ts wd we q => [11#7 ++ om ++ os ++ ts ++ 0#1 ++ wd ++ we ++ q]
  | .vround om os ts wd we q => [12#7 ++ om ++ os ++ ts ++ 0#1 ++ wd ++ we ++ q]
  | .vscale om os ts wd we q => [13#7 ++ om ++ os ++ ts ++ 0#1 ++ wd ++ we ++ q]
  | .vcmpEq om os ts wd we q => [16#7 ++ om ++ os ++ ts ++ 0#3 ++ wd ++ we ++ q]
  | .vcmpNe om os ts wd we q => [17#7 ++ om ++ os ++ ts ++ 0#3 ++ wd ++ we ++ q]
  | .vcmpLt om os ts wd we q => [18#7 ++ om ++ os ++ ts ++ 0#3 ++ wd ++ we ++ q]
  | .vcmpLe om os ts wd we q => [19#7 ++ om ++ os ++ ts ++ 0#3 ++ wd ++ we ++ q]
  | .vaddI om os ts wd we q => [48#7 ++ om ++ os ++ ts ++ 0#1 ++ wd ++ we ++ q]
  | .vsubI om os ts wd we q => [49#7 ++ om ++ os ++ ts ++ 0#1 ++ wd ++ we ++ q]
  | .vmulI om os ts wd we q => [50#7 ++ om ++ os ++ ts ++ 0#1 ++ wd ++ we ++ q]
  | .vmulhI om os ts wd we q => [51#7 ++ om ++ os ++ ts ++ 0#1 ++ wd ++ we ++ q]
  | .vand om os ts wd we => [52#7 ++ om ++ os ++ ts ++ 0#1 ++ wd ++ we ++ 0#2]
  | .vor om os ts wd we => [53#7 ++ om ++ os ++ ts ++ 0#1 ++ wd ++ we ++ 0#2]
  | .vxor om os ts wd we => [54#7 ++ om ++ os ++ ts ++ 0#1 ++ wd ++ we ++ 0#2]
  | .vshl om os ts wd we q => [55#7 ++ om ++ os ++ ts ++ 0#1 ++ wd ++ we ++ q]
  | .vshr om os ts wd we q => [56#7 ++ om ++ os ++ ts ++ 0#1 ++ wd ++ we ++ q]
  | .vsra om os ts wd we q => [57#7 ++ om ++ os ++ ts ++ 0#1 ++ wd ++ we ++ q]
  | .vminI om os ts wd we q => [58#7 ++ om ++ os ++ ts ++ 0#1 ++ wd ++ we ++ q]
  | .vmaxI om os ts wd we q => [59#7 ++ om ++ os ++ ts ++ 0#1 ++ wd ++ we ++ q]
  | .vabsI ts wd we q => [60#7 ++ 0#9 ++ ts ++ 0#1 ++ wd ++ we ++ q]
  | .vcvt om os ts wd we => [72#7 ++ om ++ os ++ ts ++ 0#1 ++ wd ++ we ++ 0#2]
  | .vrq om os ts wd we => [73#7 ++ om ++ os ++ ts ++ 0#1 ++ wd ++ we ++ 0#2]
  | .vexp2 ts wd we q => [80#7 ++ 0#9 ++ ts ++ 0#1 ++ wd ++ we ++ q]
  | .vlog2 ts wd we q => [81#7 ++ 0#9 ++ ts ++ 0#1 ++ wd ++ we ++ q]
  | .vrcp ts wd we q => [82#7 ++ 0#9 ++ ts ++ 0#1 ++ wd ++ we ++ q]
  | .vrsqrt ts wd we q => [83#7 ++ 0#9 ++ ts ++ 0#1 ++ wd ++ we ++ q]
  | .vsigm ts wd we q => [84#7 ++ 0#9 ++ ts ++ 0#1 ++ wd ++ we ++ q]
  | .vtanh ts wd we q => [85#7 ++ 0#9 ++ ts ++ 0#1 ++ wd ++ we ++ q]
  | .vmov ts wd we q => [96#7 ++ 0#9 ++ ts ++ 0#1 ++ wd ++ we ++ q]
  | .vbc om os ts wd we q => [97#7 ++ om ++ os ++ ts ++ 0#1 ++ wd ++ we ++ q]
  | .vperm om os ts wd we q => [98#7 ++ om ++ os ++ ts ++ 0#1 ++ wd ++ we ++ q]
  | .vshuf om os ts wd we q => [99#7 ++ om ++ os ++ ts ++ 0#1 ++ wd ++ we ++ q]
  | .vredAdd ts wd we q => [100#7 ++ 0#9 ++ ts ++ 0#1 ++ wd ++ we ++ q]
  | .vredMax ts wd we q => [101#7 ++ 0#9 ++ ts ++ 0#1 ++ wd ++ we ++ q]
  | .vld k ts wd we => [104#7 ++ 16#5 ++ k ++ ts ++ 0#1 ++ wd ++ we ++ 0#2]
  | .vst k ts wd => [105#7 ++ 16#5 ++ k ++ ts ++ 0#1 ++ wd ++ 0#3]
  | .vaccRd om os ts wd we => [106#7 ++ om ++ os ++ ts ++ 0#1 ++ wd ++ we ++ 0#2]
  | .vaccWr om os ts wd => [107#7 ++ om ++ os ++ ts ++ 0#1 ++ wd ++ 0#3]
  | .vmrow wd we => [108#7 ++ 0#17 ++ wd ++ we ++ 0#2]
  | .vmand b a wd we => [112#7 ++ 16#6 ++ b ++ 0#4 ++ a ++ 0#3 ++ wd ++ we ++ 0#2]
  | .vmor b a wd we => [113#7 ++ 16#6 ++ b ++ 0#4 ++ a ++ 0#3 ++ wd ++ we ++ 0#2]
  | .vmnot a wd we => [114#7 ++ 0#13 ++ a ++ 0#3 ++ wd ++ we ++ 0#2]
  | .vmcnt wd we => [115#7 ++ 0#17 ++ wd ++ we ++ 0#2]
  | .mwld ts b k => [1#7 ++ 0#9 ++ ts ++ 0#4 ++ b ++ k]
  | .mwldB ts b k => [2#7 ++ 0#9 ++ ts ++ 0#4 ++ b ++ k]
  | .mswap x => [3#7 ++ 0#23 ++ x]
  | .mrun ts f a w p => [4#7 ++ 0#9 ++ ts ++ f ++ a ++ w ++ p]
  | .mrunF ts f a w p => [5#7 ++ 0#9 ++ ts ++ f ++ a ++ w ++ p]
  | .mzero u => [6#7 ++ 0#17 ++ u]
  | .mcal b => [8#7 ++ 0#24 ++ b]
  | .mclip ts => [9#7 ++ 0#9 ++ ts ++ 0#9]
  | .mmode g => [10#7 ++ 0#24 ++ g]
  | .mbound ts => [11#7 ++ 0#9 ++ ts ++ 0#9]
  | .mboundSet om os ts => [11#7 ++ om ++ os ++ ts ++ 1#9]
  | .cp om os ts y z => [1#7 ++ om ++ os ++ ts ++ 0#1 ++ y ++ z]
  | .cpSh om os ts y z => [2#7 ++ om ++ os ++ ts ++ 0#1 ++ y ++ z]
  | .cpRed om os ts y z => [3#7 ++ om ++ os ++ ts ++ 0#1 ++ y ++ z]
  | .cpG om os ts y z => [4#7 ++ om ++ os ++ ts ++ 0#1 ++ y ++ z]
  | .cpS om os ts y z => [5#7 ++ om ++ os ++ ts ++ 0#1 ++ y ++ z]
  | .bk om os ts y z => [6#7 ++ om ++ os ++ ts ++ 0#1 ++ y ++ z]
  | .bkRed om os ts y z => [7#7 ++ om ++ os ++ ts ++ 0#1 ++ y ++ z]
  | .cpQ ts n => [8#7 ++ 0#9 ++ ts ++ 0#6 ++ n]
  | .cpFence b => [9#7 ++ 0#24 ++ b]
  | .cpStat ts => [10#7 ++ 0#9 ++ ts ++ 0#9]
  | .cpQuiesce ts => [11#7 ++ 0#9 ++ ts ++ 0#9]
  | .cpAbort ts => [12#7 ++ 0#9 ++ ts ++ 0#9]
  | .cpPub om os ts => [13#7 ++ om ++ os ++ ts ++ 0#9]
  | .powerEstimate _ => []
  | .operatingPointChangeDone _ => []
  | .sensorSample _ => []
  | .verticalBusRetrainDone _ => []
  | .invalAckTimeout _ => []
  | .preemptDeadline _ => []
  | .snoopTimeout _ => []
  | .bindAckTimeout _ => []
  | .scrubComplete _ => []
  | .debugHoldTakesEffect _ _ => []
  | .packetFetch _ => []
  | .fetchRetry _ => []
  | .stalledProducerTimeout _ => []
  | .launch _ => []
  | .launchInd _ => []
  | .wait _ => []
  | .waitRecheck _ => []
  | .waitLimit _ => []
  | .signal _ => []
  | .loopBegin _ => []
  | .loopEnd _ => []
  | .cond _ => []
  | .copy _ => []
  | .fence _ => []
  | .graphRun _ => []
  | .graphNodeComplete _ _ _ => []
  | .calibrate _ => []
  | .biasFlip _ => []
  | .granuleFlipDone _ => []
  | .summary _ => []
  | .qclear _ => []
  | .launchAdmission _ => []
  | .policyWatchdog _ => []
  | .delegateRestartDone _ => []
  | .copyServiceComplete _ => []
  | .eventRecordPlaced _ => []
  | .queueOpAtHome _ _ => []
  | .qwaitLimit _ _ => []
  | .dispatch _ => []
  | .stealRequest _ _ => []
  | .tideBarrierRelease _ => []
  | .ebbEnd _ => []
  | .auditReplay _ _ => []
  | .dependenceTest _ => []
  | .extentTranslationRetry _ _ => []
  | .extentTranslationTimeout _ _ => []
  | .preemption _ _ => []
  | .drainDistanceLimit _ _ => []
  | .taskResume _ _ => []
  | .quarantineTimeLimit _ => []
  | .barrierRelease _ _ => []
  | .barrierTimeLimit _ _ => []
  | .freezeLimit _ _ => []
  | .landing _ _ => []
  | .passTriggerRelease _ => []
  | .passComplete _ => []
  | .weightLoadComplete _ => []
  | .calibrationComplete _ => []
  | .copyCommandComplete _ _ _ => []
  | .trapEntry _ _ => []
  | .ctxParkLimit _ _ => []
  | .ctxParkWake _ _ => []
  | .translationParkLimit _ _ => []
  | .calibrationStaleTimer _ _ => []
  | .pageTableLineWrite _ => []
  | .publishPerformed _ _ => []
  | .swapChunkDone _ => []
  | .layerPoweredOn _ => []
  | .deviceReset => []
  | .socketLinkReset => []
  | .helloTimeout => []
  | .preempt => []
  | .resume => []
  | .unbind => []
  | .spdmResponseTimeout => []
  | .readSummaryIntoWindow => []
  | .storeFirmwareImage => []
  | .storeConfigurationRecord => []
  | .resetDevice => []
  | .appendStaging => []
  | .emptyStagingBuffer => []
  | .recoveryStoreDone => []
  | .quarantineLaunchStart => []
  | .ltsFloorRaise => []
  | .lexit => [87#7 ++ 0#25]
  | .taskNext => [88#7 ++ 0#25]
  | .taskDone => [89#7 ++ 0#25]
  | .tide => [90#7 ++ 0#25]
  | .yield => [91#7 ++ 0#25]
  | .eret => [97#7 ++ 0#25]
  | .fenceE => [99#7 ++ 0#25]
  | .halt => [112#7 ++ 0#25]
  | .mstat => [7#7 ++ 0#25]
  | .setEnvelope _ => []
  | .laneFailure _ _ => []
  | .laneBundleFailure _ => []
  | .peerFlitCrcFail _ => []
  | .peerPortDown _ => []
  | .peerPortUp _ => []
  | .peerRequest _ _ => []
  | .gsCtlEn _ => []
  | .gsStatDvClear _ => []
  | .partnerDetect _ => []
  | .moduleTrained _ _ => []
  | .moduleTrainingFail _ => []
  | .moduleReplayLimit _ => []
  | .guestSpdmComplete _ _ => []
  | .hello _ => []
  | .ack _ => []
  | .fault _ => []
  | .bind _ => []
  | .guestCxlCacheRequest _ => []
  | .guestSnoopResponse _ _ => []
  | .guestTranslationRequest _ _ => []
  | .guestQueueClaim _ _ => []
  | .partitionEntryWrite _ _ _ => []
  | .partitionEnable _ => []
  | .partitionDelete _ => []
  | .lockInterface _ => []
  | .startInterface _ => []
  | .stopInterface _ => []
  | .functionLevelReset _ => []
  | .ideStreamFailure _ => []
  | .keyTableUncorrectable _ => []
  | .tenantKeyDelivery _ _ => []
  | .getVersion _ => []
  | .getCapabilities _ => []
  | .negotiateAlgorithms _ => []
  | .getDigests _ => []
  | .getCertificate _ => []
  | .challenge _ => []
  | .getMeasurements _ _ => []
  | .keyExchange _ => []
  | .finish _ _ => []
  | .endSession _ => []
  | .debugPolicy _ _ => []
  | .haltRequest _ => []
  | .haltRelease _ => []
  | .hostCxlMemRequest _ => []
  | .registerWrite _ _ _ => []
  | .enqAperture _ _ _ _ => []
  | .claim _ _ => []
  | .release _ _ _ => []
  | .queueWindowBind _ _ _ => []
  | .peerQueueClaim _ _ _ => []
  | .swapExchange _ _ _ _ => []
  | .swapRelease _ => []
  | .rowRemap _ _ => []
  | .layerPowerOn _ => []
  | .layerPowerDown _ => []

end Sys2Proof
end

