-- ==== Sys2Proof/Machine/CoreState.lean ====
section
/-! DEFINITION. The state of a core site and of its two context banks (files 09, 10, 12, 13 and 14). -/

namespace Sys2Proof.Machine

/-- What a result does when it lands (R208, R210): into its latch, and into its register where the form names one.
`mark` is 0 for a good value and otherwise the cause of the poison mark it carries (R212). -/
inductive Effect where
  /-- a scalar latch and sWD -/
  | scalar (latch : Nat) (val : Word) (dst : Option Nat) (mark : Nat)
  /-- a predicate: `alu.r` receives 1 or 0 (R300) -/
  | pred (val : Bool) (dst : Option Nat)
  /-- a vector latch and vWD: `lat` is what the latch receives, `val` what the active bytes of vWD receive (R332) -/
  | vector (latch : Nat) (lat : Vec) (val : Vec) (act : Mask) (dst : Option Nat) (mark : Nat)
  /-- a lane mask (R337, R352) -/
  | mask (latch : Nat) (lat : Vec) (val : Mask) (act : Mask) (dst : Option Nat)
  /-- a control word written by `wrcw` or `mmode` (R322) -/
  | control (num : Nat) (val : Word)
  /-- `nest.set` (R326) -/
  | nestSet (k : Nat) (img : NestImage)
  /-- `nest.dim` and `nest.blk`: n bytes of the image from byte `off` (R326) -/
  | nestField (k : Nat) (off : Nat) (n : Nat) (val : Nat)
  /-- `loop` binds its counters (R313) -/
  | loopBind (k : Nat)
  /-- `vacc.wr` reaches its unit (R349): element format, the unit or pair of units, row, first column, lanes and the
  active mask -/
  | accWrite (af : Nat) (u0 u1 : Nat) (row : Nat) (col : Nat) (val : Vec) (act : Mask)
  /-- `mzero` acts (R369) -/
  | unitsZero (units : Nat)
  /-- `mswap` acts (R364) -/
  | bankSwap (x : Nat)
  /-- `mbound ..., set` acts (R370) -/
  | boundSet (unit : Nat) (row : Nat) (val : Nat)
  /-- cw.lts rises to a time, with the landing of a `cp.stat` that shows completion (R386) -/
  | timeSeen (t : Nat)
  deriving DecidableEq, Repr

/-- A fixed-latency result in flight: the cycle of the core's clock at which it lands, the slot that issued it and the
issue order (R208, R211). -/
structure Flight where
  due : Nat
  slot : Nat
  seq : Nat
  eff : Effect
  deriving DecidableEq, Repr

/-- What kind of variable-latency operation holds a landing-buffer entry (R214). -/
inductive LandKind where
  /-- `ld.g`, `ld.e` -/
  | load
  /-- `amo.*` -/
  | atomic
  /-- `enq.t`, `deq`, `deq.s`, `deq.t`, `qpeek` -/
  | queue
  /-- `bw.wait` on the word at this virtual address -/
  | word (va : Nat)
  deriving DecidableEq, Repr

/-- The data of a variable-latency operation that has arrived (R215): the value, the poison mark's cause or 0, the
landing-time fault if one was found, the logical time the landing raises cw.lts to, and the local-store bytes the
landing writes (address, count and value). -/
structure Arrived where
  val : Word
  mark : Nat := 0
  fault : Option (Nat × Nat) := none
  lts : Nat := 0
  lsAddr : Nat := 0
  lsLen : Nat := 0
  lsData : Nat := 0
  deriving DecidableEq, Repr

/-- A landing-buffer entry (R214, R215), with what the frame's replay list records of it (Table 9.3). -/
structure Outstanding where
  id : Nat
  due : Nat
  kind : LandKind
  latch : Nat
  dst : Option Nat
  pc : Nat
  word : Word32
  ld : Nat
  operand : Word
  trigger : Word
  res : Option Arrived := none
  /-- its landing cycle has come without its data -/
  late : Bool := false
  deriving DecidableEq, Repr

/-- What an ordinary or range access not yet performed does at its home (R189, R203, R169). -/
inductive AccessKind where
  | load (n : Nat) (signed : Bool) (id : Nat)
  | store (n : Nat) (val : Nat)
  | atomic (op : Nat) (n : Nat) (b : Nat) (w : Nat) (fmt : Nat) (id : Nat)
  | prefetch (cls : Nat)
  /-- 0 clean, 1 invalidate, 2 flush, of the bytes from the access's address -/
  | range (op : Nat) (len : Nat)
  /-- publish: private offset, handle, mode -/
  | publish (off : Nat) (h : Nat) (free : Bool)
  deriving DecidableEq, Repr

/-- An access of a context that has been issued and not performed, oldest first (R189). -/
structure Access where
  kind : AccessKind
  va : Nat
  pa : Nat
  pc : Nat
  /-- the page class of the leaf, for the quotas of R175 -/
  cls : Nat := 3
  seq : Nat := 0
  /-- the access is a `bw.init` (R327) -/
  arms : Bool := false
  /-- the cycle of the core's clock at which it issued -/
  at_ : Nat := 0
  /-- the handle it was translated through (R170) -/
  handle : Option Nat := none
  /-- a logical time its translation depends on: the latest write of the page-table lines it came from (R163, R170) -/
  tmin : Nat := 0
  /-- the page-table and handle-table lines its translation came from, by which it translates again where one of them has been
  written since (R163) -/
  lines : List Nat := []
  deriving DecidableEq, Repr

/-- The state of a queue binding (R107, R309). -/
inductive BindState where
  | unbound
  | pending
  | bound
  /-- a check failed at the home: the cause, raised at the next use, and the `qbind`'s bundle -/
  | failed (cause : Nat) (pc : Nat)
  deriving DecidableEq, Repr

/-- A queue binding (R107, R112). -/
structure Binding where
  st : BindState := .unbound
  handle : Nat := 0
  cb : Nat := 0
  home : Nat := 0
  elog : Nat := 3
  role : Nat := 0
  free : Nat := 0
  /-- made before its queue was poisoned and cleared: an operation through it raises cause 20 (R127) -/
  stale : Bool := false
  deriving DecidableEq, Repr

/-- A queue operation of a context that has been issued and not performed, oldest first (R115). -/
structure QueueOp where
  id : Nat
  /-- opcode of the form: 0x40 `qbind` to 0x47 `qpeek`, or 8 for `cp.q` -/
  form : Nat
  bnd : Nat
  handle : Nat
  cb : Nat
  home : Nat
  elog : Nat
  pc : Nat
  slot : Nat
  ld : Nat
  /-- local-store address, or the value of `enq.s` -/
  arg : Word
  /-- the element of an enqueue -/
  elem : Nat
  /-- the landing-buffer entry of a landing form -/
  land : Option Nat
  /-- waiting at the home, with its queue-wait entry (R103) -/
  waiting : Option Nat := none
  /-- held at the home as a fifth waiter of its context (R103) -/
  held : Bool := false
  /-- issued through a stale binding (R127) -/
  stale : Bool := false
  /-- issue order among the context's accesses and operations -/
  seq : Nat := 0
  deriving DecidableEq, Repr

/-- A branch whose target has not issued (R222): bundles left to issue before the target, counting the branch's own
until it has issued. -/
structure Branch where
  target : Nat
  left : Nat
  taken : Bool
  pc : Nat
  deriving DecidableEq, Repr

/-- The loop state (R220). -/
structure Loop where
  /-- counts of the dimensions of the bound loop, innermost first -/
  counts : List Nat := []
  bound : Bool := false
  isOpen : Bool := false
  start : Nat := 0
  stop : Nat := 0
  /-- bundles of the body issued in the current pass -/
  len : Nat := 0
  ctr : List Nat := [0, 0, 0, 0, 0, 0]
  /-- `lexit` has issued: the loop is left after its bundle (R314) -/
  leaving : Bool := false
  deriving DecidableEq, Repr

/-- A translated extent (R140): requested permissions are bit 0 read, 1 write, 2 atomic. -/
structure Extent where
  pa : Nat
  len : Nat
  perms : Nat
  cls : Nat
  va : Nat
  /-- the descriptor as dispatched, 32 bytes (Table 9.4) -/
  desc : Nat
  /-- the page-table lines the translation came from (R163) -/
  lines : List Nat
  deriving DecidableEq, Repr

/-- An armed-word entry: address and pending count (R327). -/
structure Armed where
  va : Nat
  pa : Nat
  count : Nat
  /-- the cycle from which the entry is in effect, and the count it held before (Table 9.1) -/
  from_ : Nat := 0
  prev : Option Nat := none
  deriving DecidableEq, Repr

/-- Why a context is parked (R225). -/
inductive ParkWhy where
  /-- the queue operations (by id) on which the parked bundle depends -/
  | queue (ops : List Nat)
  /-- `ctx.park`: the watched line, the deadline on the reference clock, and whether a write to the line has been
  performed since -/
  | line (l : Nat) (deadline : Option Nat) (hit : Bool)
  /-- the event it waits for has come (R225); `frame` says that it resumes from its frame -/
  | woken (frame : Bool)
  /-- a translation fault: the page-table line, the deadline on the reference clock and the cause -/
  | walk (l : Nat) (deadline : Nat) (cause : Nat)
  deriving DecidableEq, Repr

/-- A trap entry in progress (R227): cause, value, bundle, resume address, the bits of cw.cause above CODE, the cycle
it began at, and, for the entry of a translation-fault park (R224), the page-table line. -/
structure Entry where
  cause : Nat
  tval : Nat
  epc : Nat
  resume : Nat
  extra : Nat
  begun : Nat
  park : Option Nat := none
  /-- a forwarding window was open (R228) -/
  fwin : Bool := false
  /-- the entry is that of a `ctx.park` (R224, R329): the watched line, the deadline, and whether a write to the line has been
  performed since the issue -/
  watch : Option (Nat × Option Nat × Bool) := none
  deriving DecidableEq, Repr

/-- A cancelled load to be issued again (Table 9.3). -/
structure Replay where
  pc : Nat
  word : Word32
  ld : Nat
  operand : Word
  trigger : Word
  deriving DecidableEq, Repr

/-- A withdrawn queue operation to be issued again (R124). -/
structure Requeue where
  pc : Nat
  bnd : Nat
  form : Nat
  ld : Nat
  arg : Word
  deriving DecidableEq, Repr

/-- A packet that a `cp.q` has sent to its home (R384): its bundle, slot and handler level, and the answer once it is there: 0
performed, else a cause. -/
structure Packet where
  pc : Nat
  slot : Nat
  lvl : Nat
  op : Nat
  ans : Option Nat := none
  deriving DecidableEq, Repr

/-- Why issue is frozen, and which limit the freeze counts toward (R216). -/
inductive FreezeWhy where
  /-- counts toward cw.frzlim -/
  | limited
  /-- a wait at a queue's home: counts toward cw.qwait (R117); ids of the operations -/
  | queueWait (ops : List Nat)
  /-- a SYNC hold: barrier time limit (R219) -/
  | barrier
  /-- a hold that stops only the sequencer, the latency counts going on, and counts toward cw.frzlim: a third pass
  trigger (R253), a drain point (R223), a full landing buffer (R215) -/
  | sequencer
  /-- a translation whose walk waits for a line: counts toward cw.frzlim (R226) -/
  | walk (line : Nat)
  /-- the slot asks something of a unit and waits for it: the home's answer to a `cp.q` (R384), the stop of the commands of a
  `cp.quiesce` (R387); counts toward cw.frzlim -/
  | ask
  deriving DecidableEq, Repr

/-- What a context bank is doing (R224, R148). -/
inductive BankState where
  /-- no task -/
  | idle
  /-- a task or ebb that may issue when the bank has the sequencer -/
  | ready
  | parked (why : ParkWhy)
  /-- a trap entry that waits for queue operations (R227 step 4) -/
  | entering (e : Entry)
  /-- the ebb is closed and the core has reported (R316) -/
  | reported
  deriving DecidableEq, Repr

/-- A bundle as the lead issued it and as the quire's followers see it (R139): its address and its 32 bytes, the lead's
loop and branch state before it and after it with the next address, the branch that its branch form made pending, and the
task that the lead went on to at its `task.next` (R315). -/
structure Issued where
  pc : Nat
  bundle : Nat
  loop : Loop := {}
  br : Option Branch := none
  nextPc : Nat
  nextLoop : Loop := {}
  nextBr : Option Branch := none
  sets : Option Branch := none
  task : Option Nat := none
  deriving DecidableEq, Repr

/-- One context bank of a core. -/
structure Ctx where
  st : BankState := .idle
  -- registers (Tables 11.2, 11.4); an entry never written reads 0
  s : Tab Word := []
  p : Tab Bool := []
  vm : Tab Mask := []
  v : Tab Vec := []
  lat : Tab Word := []
  vlat : Tab Vec := []
  port : Tab Word := []
  vport : Tab Vec := []
  /-- poison marks: 0-63 s0-s63, 64-72 scalar latches, 80-87 vector latches, 96-127 v0-v31 -/
  mark : Tab Nat := []
  nest : Tab NestImage := []
  barmask : Tab (BitVec 16) := []
  ext : Tab Extent := []
  pc : Nat := 0
  br : Option Branch := none
  loop : Loop := {}
  /-- the loop buffer: bundles of the open body by address (R220) -/
  lbuf : Tab Nat := []
  -- control words (Table 11.8)
  rank : Nat := 0
  quire : Nat := 0
  wid : Word := 0
  widHi : Word := 0
  task : Word := 0
  tide : Nat := 0
  lvl : Nat := 0
  plvl : Nat := 0
  ppend : Nat := 0
  sec : Bool := false
  cause : Nat := 0
  tval : Word := 0
  epc : Nat := 0
  tvec : Nat := 0
  /-- the partition entry names a supervisor handler (R229) -/
  handler : Bool := true
  tdel : Word := 0
  tframe : Nat := 0
  frz : Word := 0
  frzlim : Nat := 1
  qwait : Nat := 1
  dist : Nat := 0
  split : Nat := 15
  bndlim : Nat := 0x7F800000
  mmode : Nat := 0
  l2div : Nat := 0x21084000
  lts : Nat := 0
  lease : Nat := 256
  /-- the latest write time of the context's completed engine commands (R194) -/
  engLts : Nat := 0
  /-- the latest home time of the context's performed enqueues (R116, R194) -/
  enqLts : Nat := 0
  audk : Nat := 0
  -- debug words (Table 11.10)
  cnt : Tab Word := []
  evs : Tab Nat := []
  trc : Bool := false
  trix : Nat := 0
  trdat : Tab Word := []
  trcnt : Nat := 0
  -- in flight
  seq : Nat := 0
  ticks : Nat := 0
  flights : List Flight := []
  outs : List Outstanding := []
  /-- loads and queue operations that `eret` or a wake issues again before the next bundle (R124, R230) -/
  replay : List Replay := []
  requeue : List Requeue := []
  /-- faults raised during a trap entry, taken after it (R227): cause, value, bundle, landing-time -/
  second : List (Nat × Nat × Nat × Bool) := []
  accs : List Access := []
  qops : List QueueOp := []
  /-- packets that the bundle standing to issue has sent (R384) -/
  packets : List Packet := []
  qb : Tab Binding := []
  armed : List Armed := []
  /-- faults of posted stores and range operations, reported at the next bundle that waits: cause, value, bundle
  (R304, R320) -/
  late : List (Nat × Nat × Nat) := []
  /-- faults of publishes (R169): cause, handle, bundle -/
  plate : List (Nat × Nat × Nat) := []
  /-- enqueue faults, reported at the bundle that freezes on the enqueue (R121): cause, value, bundle -/
  qlate : List (Nat × Nat × Nat) := []
  /-- causes 24-27 waiting for a bundle boundary: cause, value, bundle, and the cycle at which the pass completed, whose bundle
  still issues (R226, R259) -/
  after : List (Nat × Nat × Nat × Nat) := []
  /-- the cycle at which the last `mrun.f` completed: the bundle of that cycle ends its window (R261) -/
  winEnd : Option Nat := none
  freeze : Option (FreezeWhy × Nat) := none
  /-- a SYNC hold: the mask value and the reference time at which it began (R217) -/
  sync : Option (Nat × Nat × Nat) := none
  /-- the reference time at which the barrier was completed; the held bundle issues in a later cycle -/
  syncGo : Option Nat := none
  /-- a freeze has preceded the next bundle (Table 11.10) -/
  frozen : Bool := false
  halt : Nat := 0
  -- the forwarding latch's tag (R351)
  mrowHv : Bool := false
  mrowRow : Nat := 0
  mrowNf : Bool := false
  mrowSer : Nat := 0
  /-- `mrun.f` passes triggered by the context (R351) -/
  mrowCnt : Nat := 0
  -- the running task
  part : Nat := 0
  ix : Nat := 0
  ebb : Bool := false
  lead : Nat := 0
  qlog : Nat := 0
  skew : Nat := 0
  /-- in a follower, the bundles that the lead has issued and this member has not, oldest first; none is a cycle in which
  the lead issued none (R139) -/
  hist : List (Option Issued) := []
  /-- the lines of the levels below, left when a handler was entered, with their levels (R139, R229) -/
  below : List (Nat × List (Option Issued)) := []
  acc : Nat := 0
  altacc : Nat := 0
  alt : Bool := false
  lsb : Nat := 0
  lssz : Nat := 0
  /-- ALTLSB - LSB where the context runs relocated (R148), else 0 -/
  reloc : Int := 0
  next : Nat := 0
  args : Nat := 0
  /-- launch whose task's state this bank holds (R131) -/
  lastIx : Option Nat := none
  /-- parked since (model time), for the order of R148 -/
  since : Nat := 0
  /-- armed words whose entries an act has freed, with the time of the act (R386) -/
  freed : Tab Nat := []
  deriving DecidableEq, Repr

/-- The state of a weight bank (R359). -/
inductive WState where
  | empty | loading | loaded | calibrating
  deriving DecidableEq, Repr

/-- A weight bank: its format, its 262,144 source bytes and 8,192 or fewer scale bytes, which fix the aligned mantissas,
column exponents and checksum sums of R243 and R258, the owner of the last load, and what staleness depends on (R251). -/
structure WBank where
  st : WState := .empty
  fmt : Nat := 0
  data : Nat := 0
  scales : Nat := 0
  hasScales : Bool := false
  owner : Nat := 0
  stale : Bool := true
  /-- the two reads of a scale at the load differed (R258) -/
  scaleMiss : Bool := false
  calAt : Nat := 0
  calTemp : Int := 0
  deriving DecidableEq, Repr

/-- Where a walk's offsets count from (R324, R148): the KIND, the address of offset 0 (1 virtual, 2 and 4 physical,
3 local store as relocated, 5 offset in the cluster's staging, slice x 0x40000 + offset), and the page class of an
extent. -/
structure Spot where
  kind : Nat := 0
  addr : Int := 0
  cls : Nat := 3
  deriving DecidableEq, Repr

/-- A command of the weight-load stream (R359). -/
structure WCmd where
  /-- 0 `mwld`, 1 `mwld.b`, 2 `mcal` -/
  form : Nat
  wbank : Nat
  id : Nat
  ctx : Nat
  pc : Nat
  /-- the cycle of the core's clock at acceptance -/
  at_ : Nat := 0
  img : NestImage := 0
  /-- where the source walk and its scale bytes begin -/
  src : Spot := {}
  scale : Spot := {}
  word : Nat := 0
  wordPa : Nat := 0
  /-- partition and world of the context -/
  part : Nat := 0
  sec : Bool := false
  /-- bytes of the core's local store that stores of its bundle or of later ones have replaced, as they were (R156) -/
  snap : List Host.Cell := []
  /-- a broadcast: the lead's core, and the lead's command (R362) -/
  grp : Option (Nat × Nat) := none
  /-- the members of the quire of a broadcast -/
  members : List Nat := []
  started : Bool := false
  /-- logical times: at the start, and the latest of its reads (R197, R199) -/
  lts : Nat := 0
  wts : Nat := 0
  /-- 32-byte source sectors still to read: which walk (0 data, 1 scales) and the sector -/
  left : List (Nat × Nat) := []
  /-- sectors read -/
  buf : Tab Nat := []
  /-- cause of a fault found while running (R378) -/
  err : Option (Nat × Nat) := none
  /-- end of a calibration, in cycles of the core's clock, freezes included (R215) -/
  due : Nat := 0
  deriving DecidableEq, Repr

/-- A pass, waiting or streaming (R253, R366). -/
structure Pass where
  ctx : Nat
  fwd : Bool
  img : NestImage
  /-- the units written, after the relocation of R148; equal where the tile has one unit -/
  u0 : Nat
  u1 : Nat
  row0 : Nat
  rows : Nat
  ch : Nat
  split : Nat
  win : Nat
  add : Bool
  af : Nat
  wbank : Nat
  pc : Nat
  seq : Nat
  /-- first streaming cycle on the core's clock -/
  start : Nat
  /-- rows that have left the array -/
  done : Nat := 0
  /-- bytes of the core's local store that stores of its bundle or of later ones have replaced, as they were (R156) -/
  snap : List Host.Cell := []
  /-- offset of R148 on the walk's local-store addresses -/
  reloc : Int := 0
  /-- number of an `mrun.f` among those of its context (R351) -/
  fser : Nat := 0
  clipMask : Mask := 0
  clipLo : Nat := 0
  clipHi : Nat := 0
  clipped : Bool := false
  checksumMiss : Bool := false
  scaleMiss : Bool := false
  deriving DecidableEq, Repr

/-- A copy-engine command (R375). -/
structure CopyCmd where
  id : Nat
  /-- opcode: 1 `cp` to 7 `bk.red`, 13 `cp.pub` -/
  form : Nat
  ctx : Nat
  pc : Nat
  word : Word32
  a : Word
  wordPa : Nat
  b : Word
  /-- images of the nest registers named in X[3:0] and X[7:4], and of the second source of `bk` -/
  n1 : NestImage
  n2 : NestImage
  n3 : NestImage := 0
  /-- where the walks of those images begin; for `cp` and `cp.sh` the second includes B -/
  o1 : Spot := {}
  o2 : Spot := {}
  o3 : Spot := {}
  /-- acceptance order on the core -/
  order : Nat
  /-- the cycle of the core's clock at acceptance -/
  at_ : Nat := 0
  /-- partition and world of the context -/
  part : Nat := 0
  sec : Bool := false
  /-- bytes of the core's local store that stores of its bundle or of later ones have replaced, as they were (R156) -/
  snap : List Host.Cell := []
  running : Bool := false
  /-- a `cp.quiesce` has stopped it at a sector boundary (R387) -/
  stopped : Bool := false
  /-- logical times: at the start, and the latest of its reads and writes (R197, R199) -/
  lts : Nat := 0
  wts : Nat := 0
  /-- the row numbers of a gather or scatter (R381) -/
  idx : List Int := []
  /-- 32-byte destination sectors still to write: row (0 but for a gather or scatter) and sector -/
  left : List (Nat × Nat) := []
  /-- source sectors read, by walk (R197): key 2 * sector + walk -/
  buf : Tab Nat := []
  /-- a fault found while running: cause and detail (R378) -/
  err : Option (Nat × Nat) := none
  deriving DecidableEq, Repr

/-- An entry of an engine's order list: a command, or a fence, by its place in the acceptance order and whether it is
`both` (R385). -/
inductive EngineItem where
  | cmd (c : CopyCmd)
  | fence (order : Nat) (both : Bool)
  deriving DecidableEq, Repr

/-- A leaf held in a translation cache, or a resolved handle, with the lines it came from (R163). -/
structure TlbEntry where
  part : Nat
  base : Nat
  size : Nat
  frame : Nat
  perms : Nat
  cls : Nat
  handle : Option Nat
  lines : List Nat
  deriving DecidableEq, Repr

/-- One core site. -/
structure Core where
  /-- cycles of the core's clock domain in which it was not frozen (R208) -/
  clk : Nat := 0
  /-- all cycles of the core's clock -/
  raw : Nat := 0
  /-- bank that has the sequencer -/
  cur : Nat := 0
  /-- reference time from which that bank may issue (bank switch, next task; R224, R315) -/
  goAt : Nat := 0
  /-- the cycle from which the other bank may issue after a bank has parked (R224) -/
  leftAt : Nat := 0
  tlb : List TlbEntry := []
  -- matrix engine
  active : Nat := 0
  wb : Tab WBank := []
  strm : List WCmd := []
  passes : List Pass := []
  streamEnd : Nat := 0
  pser : Nat := 0
  clipMask : Mask := 0
  clipLo : Nat := 0
  clipHi : Nat := 0
  clipAny : Bool := false
  /-- accumulator rows: key 64 * unit + row, 256 columns of 16 bits (R157, R255) -/
  acc : Tab Nat := []
  /-- bound vector entries: key 64 * unit + row (R256) -/
  bnd : Tab Nat := []
  /-- what the auditor's replay in digital mode makes of the accumulator rows, by the same keys, where it differs (R262) -/
  dig : Tab Nat := []
  /-- passes that have added into a half row since it was zeroed: key 128 * unit + 2 * row + half of 128 columns (R262) -/
  adds : Tab Nat := []
  /-- how the last pass into a unit laid its tile out: 64 * AF + 8 * first unit + second unit (R255) -/
  accLay : Tab Nat := []
  /-- copy engines CE0, CE1: accepted commands and fences in order (R375) -/
  ce : Tab (List EngineItem) := []
  /-- engine and bank of a quiesce in progress (R386, R387) -/
  qui : List (Nat × Nat) := []
  /-- the latest write time of an engine's completed commands, and that above which commands after its fences begin (R198) -/
  ceLts : Tab Nat := []
  fenced : Tab Nat := []
  /-- commands accepted so far by the copy engines and the weight-load stream -/
  cmdSer : Nat := 0
  /-- local-store sectors with an uncorrectable error: sector and mark (R303) -/
  lsBad : List Nat := []
  deriving DecidableEq, Repr

end Sys2Proof.Machine
end

