-- ==== Sys2Proof/Machine/PartState.lean ====
section
/-! DEFINITION. The state of the package outside its cores: islands and flash, the guest socket, the host's side, and
the command front end (files 01 to 05). -/

namespace Sys2Proof.Machine

-- The package (file 01)

/-- A cluster's voltage and frequency island (R17): operating point in 25 MHz steps, the end of a change in progress on
the reference clock, and the fraction of a core cycle that has passed, in 24ths. -/
structure Island where
  op : Nat := 24
  until_ : Option Nat := none
  phase : Nat := 0
  /-- the 300 MHz action of R32 is in force -/
  hot : Bool := false
  /-- the action of R32 has ended and the island has not yet begun to leave 300 MHz -/
  back : Bool := false
  deriving DecidableEq, Repr

/-- A copy of a configuration record or firmware image in flash (R36, R37): kind 1 to 4, or 0 for the firmware image;
copy 0 is A and 1 is B. `body` is none for the contents the part left the factory with. -/
structure FlashCopy where
  kind : Nat
  copy : Nat
  good : Bool := true
  version : Nat := 1
  serial : Nat := 0
  signed : Bool := true
  body : Option Nat := none
  /-- SHA-384 of the whole object, where it is not the factory's (R71) -/
  digest : Option Nat := none
  deriving DecidableEq, Repr

/-- The recovery registers (Table 3.8) and the object being stored in flash: 2 a firmware image, 3 a record. -/
structure Recovery where
  st : Nat := 0
  why : Nat := 0
  len : Nat := 0
  off : Nat := 0
  slen : Nat := 0
  storing : Option (Nat × Nat) := none
  deriving DecidableEq, Repr

/-- A die's policy core (R83): the registers x1 to x31 and the pc of an RV32IMC processor, and its 256 KiB of tightly coupled
memory, packed, as they stand when the verified image begins to run (notes/assumptions/131.md). -/
structure PolicyCore where
  regs : Tab (BitVec 32) := []
  pc : BitVec 32 := 0
  tcm : Nat := 0
  deriving DecidableEq, Repr

-- The guest socket (file 02)

/-- A control packet of gcq that the guest has not acknowledged (R46, R53 to R55): its KIND and SEQ, the end of its
deadline on the reference clock, the frames withheld for it with the table lines they came from, the partition of a BIND,
and the save area granted. -/
structure CtlPkt where
  kind : Nat
  seq : Nat
  due : Option Nat := none
  frames : List (Nat × Nat) := []
  lines : List Nat := []
  part : Nat := 0
  kib : Nat := 0
  deriving DecidableEq, Repr

/-- A line in the guest directory (R50): owned, or shared under a lease. -/
structure GuestLine where
  line : Nat
  owned : Bool := false
  rts : Nat := 0
  deriving DecidableEq, Repr

/-- A slot of gfq that the guest has claimed and whose packet is not yet taken (R47, R108): its position, the failed reads
so far, when it is read again, and when it was claimed. -/
structure GfqClaim where
  pos : Nat
  tries : Nat := 0
  at_ : Nat := 0
  since : Nat := 0
  /-- claimed by a slot claim and not yet written (R108) -/
  open_ : Bool := false
  /-- the end of the 10 ms that begin when the slot is first read at the head with V = 0 (R85) -/
  stall : Option Nat := none
  deriving DecidableEq, Repr

/-- A fence that is being carried out (R56): the cause it reports, the partition that the guest was bound to or 16, the STATE
that gs.stat shows until step 6, and what comes after it: 0 nothing, 1 Absent (R40), 2 the rest of a link reset (R51). -/
structure Fence where
  cause : Nat
  part : Nat
  was : Nat
  after : Nat := 0
  deriving DecidableEq, Repr

/-- The guest socket (R39 to R58). States: 0 Absent, 1 Training, 2 Measuring, 3 Admitted, 4 Bound, 5 Fenced or being
fenced, 6 Refused. -/
structure Sock where
  en : Bool := false
  /-- a module detects a partner -/
  partner : Bool := false
  st : Nat := 0
  /-- modules trained, and modules disabled until the next link reset, one bit each -/
  mods : Nat := 0
  off : Nat := 0
  rate : Nat := 0
  part : Nat := 0
  duty : Nat := 0
  dv : Bool := false
  /-- step 1 of a fence is over and its last step is not (R56) -/
  fence : Option Fence := none
  helloBy : Option Nat := none
  spdmBy : Option Nat := none
  /-- SPDM has measured the guest since the last entry to Measuring -/
  measured : Bool := false
  -- what HELLO declared
  bound : Nat := 0
  queues : Nat := 0
  saveKib : Nat := 0
  caches : Bool := false
  measLog : List Nat := []
  /-- physical addresses of the control blocks of gq0-gq7, gcq, gfq; empty until the first entry to Measuring -/
  cbs : List Nat := []
  /-- packets placed in gcq since admission -/
  seq : Nat := 0
  ctl : List CtlPkt := []
  /-- PREEMPT has been acknowledged and RESUME not yet sent -/
  suspended : Bool := false
  /-- the save area of the last PREEMPT, which RESUME names again (Table 2.5) -/
  saveBase : Nat := 0
  /-- gfq slots claimed by the guest, oldest first -/
  claims : List GfqClaim := []
  /-- an UNBIND has been acknowledged, and the directory still recalls the guest's lines (R55) -/
  leaving : Bool := false
  /-- newest grant first -/
  dir : List GuestLine := []
  /-- snoops not answered: line and the end of the 2 us -/
  snoops : List (Nat × Nat) := []
  tlb : List TlbEntry := []
  /-- translations removed or changed for which no INVAL has yet been placed (R53) -/
  stale : List TlbEntry := []
  /-- ENGINE_CMD packets that the guest has taken and not completed (64 bytes packed), oldest first -/
  taken : List Nat := []
  /-- partition-secure world assignment of the socket (R69) -/
  sec : Bool := false
  deriving DecidableEq, Repr

/-- A memory request from outside that waits (R50, R78). -/
structure Ask where
  /-- 0 host, 1 guest, 2 a peer port -/
  kind : Nat
  port : Nat := 0
  addr : Nat
  len : Nat
  act : Nat
  data : Nat
  agent : Nat := 0
  deriving DecidableEq, Repr

-- The host's side (file 03)

/-- A virtual function's configuration space, BARs and MSI-X table, as its driver has written them, by offset (R64). -/
structure FnConfig where
  space : Tab Nat := []
  bars : Tab Nat := []
  msix : Tab Nat := []
  deriving DecidableEq, Repr

/-- The algorithms of SPDM that the device supports (R71). -/
inductive SpdmAlg where
  | ed25519 | sha384 | aes256gcm
  deriving DecidableEq, Repr

/-- An answer of the device to a request from outside: nothing yet, Unsupported Request, done, a value, an error
completion on a peer link or the guest's port, no translation, queue-full, or poisoned data. -/
inductive Reply where
  | none
  | unsupported
  | done
  | value (v : Nat)
  | linkError
  | guestError
  | noTranslation
  | queueFull
  /-- data that carry a poison mark -/
  | poisoned
  /-- a translation: frame, page size, permissions (bit 0 read, 1 write, 2 atomic), and the secure world (R52) -/
  | translation (frame size perms : Nat) (secure : Bool)
  /-- a TDISP interface report: clusters, granules, virtual functions, world and tenant keys, the function's configuration, and
  the handles that the windows of the partition's functions are bound to, with the partition's event queue (R64) -/
  | report (clusters : Nat) (granules : List (Nat × Nat)) (vfs : List Nat) (world : Bool) (keys : List Nat) (config : FnConfig)
      (bindings : List (Nat × Nat)) (evq : Nat)
  /-- an SPDM response: the code of the request answered, the version in tenths, the algorithms, and the body (R71) -/
  | spdm (code version : Nat) (algs : List SpdmAlg) (body : Nat)
  /-- an SPDM error response (R71) -/
  | spdmError
  deriving DecidableEq, Repr

/-- SPDM on one function's DOE mailbox (R71): requests answered since GET_VERSION, and the secure session. -/
structure Spdm where
  version : Bool := false
  caps : Bool := false
  algs : Bool := false
  /-- 0 none, 1 handshaking, 2 established -/
  session : Nat := 0
  /-- the transcript of the requests answered since GET_VERSION -/
  transcript : Nat := 0
  deriving DecidableEq, Repr

/-- A debug policy (Table 3.5). -/
structure Policy where
  open_ : Nat := 0
  version : Nat := 0
  digest : Nat := 0
  deriving DecidableEq, Repr

/-- A debug window (Table 3.9): the selected context, and PARTSEL. -/
structure DbgWin where
  core : Nat := 0
  bank : Nat := 0
  partsel : Nat := 0
  deriving DecidableEq, Repr

/-- A queue-binding window (Table 5.3). -/
structure Window where
  handle : Nat := 0
  cb : Nat := 0
  deriving DecidableEq, Repr

/-- The host interface (R59 to R75, R109). -/
structure HostSide where
  spdm : Tab Spdm := []
  /-- functions whose selective IDE stream is established, and whether the link stream is up (R62, R65) -/
  ide : List Nat := []
  linkIde : Bool := true
  /-- accepted debug policies of the partitions (R73) -/
  policies : Tab Policy := []
  dbg : Tab DbgWin := []
  /-- auditor log entries of a partition, newest first (Table 3.10), 64 bytes packed -/
  alog : Tab (List Nat) := []
  /-- window 16 * function + w -/
  wins : Tab Window := []
  /-- what the driver has written to the interrupt vectors, by offset (Table 3.2) -/
  vectors : Tab Nat := []
  /-- configuration of the virtual functions (R64) -/
  fnCfg : Tab FnConfig := []
  sumCount : Nat := 0
  /-- interrupts raised to the host: thermal trip (R32) -/
  irq : Bool := false
  /-- lines of host-biased granules and of the host window that the host's caches hold (R76, R185) -/
  dir : List GuestLine := []
  /-- answer to the last request from outside -/
  reply : Reply := .none
  deriving DecidableEq, Repr

-- The command front end (file 04)

/-- An open loop of a stream (R92): where its body begins in the replay store, iterations still to run after the current
one, and whether the body is being skipped. -/
structure OpenLoop where
  start : Nat
  left : Nat
  skips : Bool := false
  deriving DecidableEq, Repr

/-- The stream of a command queue, keyed by the physical address of its control block (R84 to R98). Queue states:
0 Normal, 1 Quarantined, 2 Halted. -/
structure Stream where
  st : Nat := 0
  reason : Nat := 0
  seq : Nat := 0
  /-- failed reads of the head slot so far, and when it is read again -/
  tries : Nat := 0
  retryAt : Option Nat := none
  /-- the end of the 10 ms of a stalled producer -/
  stallAt : Option Nat := none
  /-- the accepted packet that is being carried out -/
  pkt : Option Nat := none
  /-- the WAIT has begun; its limit, and its next evaluation -/
  waiting : Bool := false
  limit : Option Nat := none
  recheck : Nat := 0
  /-- the line of the WAIT's word, a write to which makes the next evaluation due -/
  watch : Option Nat := none
  loops : List OpenLoop := []
  store : List Nat := []
  /-- next packet of the replay store; none where packets come from the queue -/
  pos : Option Nat := none
  skip : Nat := 0
  /-- asynchronous packets started and not completed -/
  async : Nat := 0
  deriving DecidableEq, Repr

/-- What an asynchronous packet leaves to be done when it completes: partition, completion word, EVT, the command
queue's block and handle, SEQ, and the graph node it is (instance, node), which takes the place of the stream. -/
structure Ticket where
  part : Nat := 0
  cword : Nat := 0
  evt : Bool := false
  q : Nat := 0
  handle : Nat := 0
  seq : Nat := 0
  node : Option (Nat × Nat) := none
  /-- the packet stood in a service queue and belongs to no stream -/
  loose : Bool := false
  deriving DecidableEq, Repr

/-- A copy in a copy service (R102): read and written sector by sector in direct mode. -/
structure CopyJob where
  id : Nat
  tk : Ticket
  part : Nat
  src : Nat
  dst : Nat
  len : Nat
  running : Bool := false
  /-- next destination sector, source sectors read and not yet written -/
  at_ : Nat := 0
  buf : Tab Nat := []
  lts : Nat := 0
  wts : Nat := 0
  err : Option Nat := none
  deriving DecidableEq, Repr

/-- A graph node's progress (R95). -/
inductive NodeState where
  | waiting
  | running
  | done
  | failed
  /-- it depends on a node that failed -/
  | blocked
  deriving DecidableEq, Repr

/-- A live GRAPH_RUN (R95, R96): the object's address, CONC, and the snapshot. -/
structure Graph where
  tk : Ticket
  addr : Nat
  conc : Bool
  /-- the earlier instances it starts after -/
  after : List Nat := []
  snap : Nat
  nodes : List NodeState
  /-- limits of its WAIT nodes on the reference clock: node and time -/
  limits : Tab Nat := []
  /-- the next evaluation of its WAIT nodes, and the lines of their words (R94) -/
  checks : Tab Nat := []
  watch : Tab Nat := []
  deriving DecidableEq, Repr

/-- A CALIBRATE in progress (R97): cores not yet begun, all converters or stale ones only. -/
structure Calib where
  id : Nat
  tk : Ticket
  cores : List Nat
  all : Bool
  deriving DecidableEq, Repr

/-- A BIAS_FLIP in progress or waiting (R77, R78): granule addresses / 4096 from `next` to `last`. -/
structure Flip where
  id : Nat := 0
  tk : Ticket
  next : Nat
  last : Nat
  toDevice : Bool
  /-- the physical granule of `next`, while it is flipping -/
  gran : Option Nat := none
  deriving DecidableEq, Repr

/-- The command front end beside the streams. -/
structure FrontEnd where
  jobs : Tab (List CopyJob) := []
  /-- tickets of everything asynchronous are numbered from here -/
  serial : Nat := 0
  graphs : Tab Graph := []
  calibs : List Calib := []
  flips : List Flip := []
  deriving DecidableEq, Repr

end Sys2Proof.Machine
end

