-- ==== Sys2Proof/Machine/State.lean ====
section
/-! DEFINITION. The state of the part as plain data, the reasons a step can stop, and the machine right after reset. -/

namespace Sys2Proof.Machine

/-- The bytes of every memory of the part, in canonical form: keys strictly rising, no entry 0 (what an unlisted byte
reads as; notes/assumptions/1.md). The keys of the several memories are laid out by `Key` of Machine/Mem.lean. -/
structure Memory where
  cells : List Host.Cell := []
  deriving DecidableEq, Repr

/-- What a slot form found at issue (R226, R418). -/
inductive Verdict where
  | ok
  /-- it raises a fault or parks -/
  | fault
  /-- issue is held; what the hold counts toward -/
  | hold (why : FreezeWhy)
  deriving DecidableEq, Repr

/-- The slot word being issued: who issues it, its bundle's header and long immediate (R264, R265), and, for a bundle
with several slots, the local-store bytes as they stood before the bundle (R155). -/
structure Issue where
  core : Nat := 0
  bank : Nat := 0
  slot : Nat := 1
  pc : Nat := 0
  word : Word32 := 0
  ld : Nat := 0
  d : Bool := false
  gp : Nat := 0
  gn : Bool := false
  mv0 : Nat := 0
  mv1 : Nat := 0
  long : Word := 0
  lsOld : List Host.Cell := []
  /-- local-store sectors whose mark the bundle's stores have cleared: its other slots still meet it (R155, R348) -/
  wasBad : List Nat := []
  /-- the slot sends what it asks of a unit (R384, R387) -/
  asks : Bool := false
  /-- set while the bundle's slots are only checked (R226): the meaning then records its verdict and does nothing -/
  probe : Bool := false
  verdict : Verdict := .ok
  /-- the bundle lies in an open loop body or begins one (R221) -/
  inBody : Bool := false
  /-- what the lead decided for the branch of the bundle (R139); none at the lead -/
  leadBr : Option Branch := none
  /-- the task that the lead went on to at this bundle's `task.next` (R315) -/
  leadNext : Option Nat := none
  follows : Bool := false
  /-- the causes that the members of a quire raise in one cycle are being gathered (R139) -/
  alone : Bool := false
  /-- the checks and holds of the bundle are over (R418) -/
  sure : Bool := false
  deriving DecidableEq, Repr

/-- A coherent line's write time and lease end (R188). -/
structure LineTime where
  wts : Nat := 0
  rts : Nat := 0
  deriving DecidableEq, Repr

/-- A leased copy of a line in a cluster's cache ways (R188): its 64 bytes packed, its page class, and the way of its set
that holds it (R175). -/
structure LineCopy where
  cluster : Nat
  line : Nat
  wts : Nat
  rts : Nat
  data : Nat
  cls : Nat
  way : Nat := 0
  deriving DecidableEq, Repr

/-- An exchange of the swap engine (R178, R179): chunks below `done` are exchanged, chunk `done` is in flight when
`inFlight` is set; the exchange is complete when done = size / 4096 and stands until released. -/
structure Swap where
  die : Nat
  f1 : Nat
  f2 : Nat
  size : Nat
  done : Nat := 0
  inFlight : Bool := false
  deriving DecidableEq, Repr

/-- A line whose DRAM array a bank operation has written while its home serves the bytes from before (R177, R204), with the
context of the operation and the task it ran. -/
structure Banked where
  line : Nat
  core : Nat
  bank : Nat
  ix : Nat
  task : Nat
  deriving DecidableEq, Repr

/-- The coherent memory system (files 07 and 08). -/
structure Coherence where
  lines : Tab LineTime := []
  /-- most recently used first (R175) -/
  copies : List LineCopy := []
  /-- lines whose array copy is old (R177) -/
  dirty : List Nat := []
  /-- lines whose array is newer than what the home serves (R204) -/
  banked : List Banked := []
  /-- poisoned 32-byte sectors of memory and the cause each mark carries -/
  poison : Tab Nat := []
  /-- sectors that hold an uncorrectable error and its cause: 42 in a slice, 43 in stacked memory (R303, R378) -/
  errors : Tab Nat := []
  /-- floor of logical times (R191) -/
  floor : Nat := 0
  swaps : List Swap := []
  /-- 4 KiB granules at device bias, and those whose bias is flipping (R76 to R78) -/
  devBias : List Nat := []
  flipping : List Nat := []
  /-- reference time of the last floor raise -/
  floorAt : Nat := 0
  /-- lines for which an access of the present action has to wait; none between steps -/
  waits : List Nat := []
  deriving DecidableEq, Repr

/-- A column (Table 1.2, Tables 7.6, 7.7): bus state, failed lanes of each group, retrain deadline, layers, remap
copies and private tags. -/
structure Column where
  bus : Nat := 0
  lost : Tab Nat := []
  retrain : Option Nat := none
  layers : Nat := 1
  /-- a further layer is being powered on since this time (R182) -/
  powering : Option Nat := none
  rbad : Nat := 0
  rfail : Bool := false
  /-- every sector not in `whole` carries a poison mark with cause 43 (R181) -/
  wiped : Bool := false
  whole : List Nat := []
  remapped : List Nat := []
  /-- private tags of the 2 MiB granules; an absent entry is shared (R165) -/
  tags : Tab Nat := []
  deriving DecidableEq, Repr

/-- A waiting operation at a queue's home: the context, its operation's id and its queue-wait entry (R103); for a host's
RELEASE, which has none of them, `core`, `bank` and `entry` are the parts of a waiter id that is a free value
(notes/assumptions/95.md). -/
structure Waiter where
  core : Nat
  bank : Nat
  op : Nat
  entry : Nat
  enq : Bool
  /-- a host's RELEASE of this many slots, which waits without a context (R113) -/
  rel : Option Nat := none
  deriving DecidableEq, Repr

/-- What a home holds of an adopted control block beside the block itself (R106, R113). -/
structure Home where
  handle : Nat := 0
  pois : Bool := false
  waiters : List Waiter := []
  /-- logical time of the last operation (R116) -/
  lts : Nat := 0
  /-- order of last use, for the unpinning of R171 -/
  used : Nat := 0
  /-- partition whose space the handle is in -/
  part : Nat := 0
  /-- the block's line is pinned (R106, R171) -/
  pinned : Bool := true
  /-- a change notice has not yet been taken by the consumer's engine (R108) -/
  notice : Bool := false
  /-- the role that the block held when it was last found whole (R104), in the home's own record -/
  role : Nat := 0
  /-- the slice whose control-block store holds the block (R104, R106, R171) -/
  slice : Nat := 0
  deriving DecidableEq, Repr

/-- An event record waiting for room in its partition's event queue (R101): KIND, the body from byte 8 on, and the
command queue whose stream waits with it. -/
structure EventRec where
  part : Nat
  kind : Nat
  body : Nat
  stream : Option Nat := none
  /-- the launch table entry that is freed once the record is placed (R146) -/
  frees : Option Nat := none
  deriving DecidableEq, Repr

/-- A peer port (R30): up, the link tag, and the reference cycles of the replays of the last millisecond. -/
structure Port where
  up : Bool := false
  tag : Nat := 0
  replays : List Nat := []
  deriving DecidableEq, Repr

/-- A partition entry (Table 3.2 and R61 to R73). States: 0 Free, 1 Configuring, 2 Locked, 3 Running, 4 Error,
5 Scrubbing. -/
structure Part where
  st : Nat := 0
  root : Nat := 0
  htab : Nat := 0
  hcount : Nat := 0
  svec : Nat := 0
  savePool : Nat := 0
  saveSize : Nat := 0
  clusters : Nat := 0
  granules : List (Nat × Nat) := []
  conf : Bool := false
  world : Bool := false
  vfs : List Nat := []
  locked : List Nat := []
  started : List Nat := []
  keys : List Nat := []
  evq : Nat := 0
  evSeq : Nat := 0
  deriving DecidableEq, Repr

/-- A task whose extents do not yet translate (R141): since when, the die that holds it, and when it is tried again. -/
structure Held where
  task : Nat
  die : Nat
  since : Nat
  cause : Nat
  at_ : Nat := 0
  deriving DecidableEq, Repr

/-- A pre-empted task (R232): the physical base of the save area of each member by rank, and the cluster it ran on. -/
structure Saved where
  task : Nat
  cluster : Nat
  areas : List Nat
  deriving DecidableEq, Repr

/-- A task or command chosen for audit and not yet replayed (R145, Table 3.10): kind 0 a task, 1 a copy command, 2 a
matrix command; T or the completion word's address; the core that ran it. -/
structure Audit where
  kind : Nat
  subject : Nat
  core : Nat
  /-- the elements of the accumulator match the replay's (R262) -/
  ok : Bool := true
  deriving DecidableEq, Repr

/-- A steal request on its way between two dies (R143). -/
structure Steal where
  thief : Nat
  victim : Nat
  deriving DecidableEq, Repr

/-- Where a launch is in its tide (R144). -/
inductive Phase where
  /-- waits for the dependence test of the tide (R147); since when its word is missing, if it is -/
  | dependence (missing : Option Nat)
  | flood
  /-- the roll-up is complete, at this time (R144, R145) -/
  | barrier (at_ : Nat)
  | ebb
  deriving DecidableEq, Repr

/-- An entry of the launch table (R128 to R151). States: 0 free, 1 queued, 2 running, 3 pre-empted, 4 failed. -/
structure Launch where
  st : Nat := 0
  part : Nat := 0
  /-- the 256 bytes of the header, packed (Table 6.1) -/
  hdr : Nat := 0
  hdrVa : Nat := 0
  extent : Nat := 0
  tides : Nat := 0
  /-- size record of a LAUNCH_IND (R91) -/
  sizes : Option Nat := none
  /-- the cause with which the reading of that record failed (R91, R129) -/
  sizeErr : Option Nat := none
  -- the packet
  queue : Nat := 0
  seq : Nat := 0
  evt : Bool := false
  cword : Nat := 0
  args : Nat := 0
  /-- instance and node of the graph it is a node of (R95) -/
  node : Option (Nat × Nat) := none
  /-- control block of the command queue, and the die whose front end took the packet -/
  q : Nat := 0
  die : Nat := 0
  -- the variant and the placement
  sig : Nat := 0
  flood : Nat := 0
  ebb : Nat := 0
  clusters : List Nat := []
  /-- the gang: its quires, each a list of global core numbers, the lead first (R137, R138) -/
  gang : List (List Nat) := []
  -- progress
  tide : Nat := 0
  phase : Phase := .dependence none
  /-- the range of each die: first task and the task after the last (R142) -/
  ranges : Tab (Nat × Nat) := []
  /-- service value of each die (R136) -/
  serv : Tab Nat := []
  /-- tasks dispatched to and retired on each cluster (R145) -/
  disp : Tab Nat := []
  ret : Tab Nat := []
  held : List Held := []
  /-- tasks once held whose extents now translate, with their dies (R141) -/
  again : List (Nat × Nat) := []
  saved : List Saved := []
  audits : List Audit := []
  /-- the OPEN bits in force for the launch (R73) -/
  opens : Nat := 0
  /-- the header has been checked and the variant chosen (R129) -/
  admitted : Bool := false
  /-- a quarantine-class launch has D3 c7 (R99, R100) -/
  began : Bool := false
  /-- operating point that the power managers assign its gang, in 25 MHz steps (R34, R151) -/
  op : Nat := 24
  /-- order of starting across the package (R90, R99) -/
  order : Nat := 0
  /-- a DOUT addition that does not translate is waited for since this time (R147) -/
  doutSince : Option Nat := none
  /-- how the launch ends: an outcome code or cause (R146) -/
  fail : Nat := 0
  quarantine : Bool := false
  /-- when it was admitted, in reference cycles -/
  since : Nat := 0
  /-- what its tasks left in banks that have run another launch's tasks since, by 2 * core + bank (R131, R416) -/
  kept : Tab Ctx := []
  /-- the bank of each core that last ran a task of the launch (R416) -/
  banks : Tab Nat := []
  steals : List Steal := []
  /-- the line of its dependence word, and when that word is next tested (R147) -/
  watch : Option Nat := none
  recheck : Nat := 0
  /-- the logical time that its stream had acquired when the packet started: what was visible by then its tasks see (R90) -/
  acquired : Nat := 0
  /-- it has ended, and its entry is freed once its COMPLETION record is placed (R146) -/
  ended : Bool := false
  deriving DecidableEq, Repr

/-- What step must stop for; see the constructors. -/
inductive Fault where
  /-- raised by step after a thermal trip, when nothing waits outside: only a reset, which comes from outside, changes
  anything (R32); safe -/
  | thermalTrip
  deriving DecidableEq, Repr

/-- What the model refuses; see the constructors. -/
inductive Refusal where
  /-- raised by exec for an instruction the model has no meaning for; safe -/
  | notModelled (mnemonic : String)
  deriving DecidableEq, Repr

/-- The device as a whole (R32, R38, R80). -/
inductive Mode where
  | bringUp | running | recovery | tripped
  deriving DecidableEq, Repr

/-- The flash as the part left the factory: both copies of the firmware image and of each record are good
(notes/assumptions/3.md). -/
def factoryFlash : List FlashCopy :=
  (List.range 5).flatMap fun k => [{ kind := k, copy := 0 }, { kind := k, copy := 1 }]

/-- An entry of the error ring (Table 3.7): cause or refusal code, partition, core or agent, reference-clock cycle and
value. -/
structure ErrEntry where
  cause : Nat
  part : Nat
  agent : Nat
  time : Nat
  value : Nat
  deriving DecidableEq, Repr

/-- The blocks that have a world bit, beside the guest socket, which keeps its own (R69). -/
inductive WorldBlock where
  | core (site : Nat)
  | slice (n : Nat)
  | column (n : Nat)
  | copyService (die : Nat)
  | function (fn : Nat)
  deriving DecidableEq, Repr

/-- Everything but the bytes of memory. -/
structure Dev where
  mode : Mode := .bringUp
  /-- bring-up step reached, 255 when complete, and the failed step or 0 (R38, R79) -/
  step : Nat := 0
  failed : Nat := 0
  now : Nat := 0
  fresh : Nat := 0
  inputs : List Instr := []
  turn : List Nat := []
  issue : Issue := {}
  ctxs : Tab Ctx := []
  cores : Tab Core := []
  cols : Tab Column := []
  coh : Coherence := {}
  homes : Tab Home := []
  parts : Tab Part := []
  launches : Tab Launch := []
  /-- graph nodes that have ended and not been taken note of: instance, node and code (R95) -/
  nodeEnds : List (Nat × Nat × Nat) := []
  /-- cw.therm of each cluster (R33) -/
  therm : Tab Nat := []
  /-- junction readings, in 0.25 C (R31) -/
  junc : Tab Int := []
  /-- layer readings, key 8 * cluster + layer -/
  layer : Tab Int := []
  dref : Tab Bool := []
  /-- 2 MiB granules in the secure world, as first granule and count (R69) -/
  secGran : List (Nat × Nat) := []
  /-- the blocks in the secure world (R69) -/
  secBlocks : List WorldBlock := []
  /-- granules whose bytes were written under other keys than they are read with: the numbers of the keys that lie between, each
  of which changes every byte (R67) -/
  dataKeys : Tab (List Nat) := []
  /-- event records not yet placed, oldest first -/
  events : List EventRec := []
  /-- handles of quarantined and poisoned queues with their partitions (R79, R126) -/
  quarantined : List (Nat × Nat) := []
  /-- the core sites, slices and columns that the configuration record in force disables (R3) -/
  coresOff : List Nat := []
  /-- the part number that the record in force gives (R3) -/
  partNo : Nat := 512
  slicesOff : List Nat := []
  colsOff : List Nat := []
  /-- policy cores of the dies: 0 running, 1 restarting, 2 stopped (R83) -/
  policy : Tab Nat := []
  policyCores : Tab PolicyCore := []
  /-- when the policy cores' watchdogs last began to count (R83) -/
  policyAt : Tab Nat := []
  /-- the partition whose work D3 c7 held last (R100) -/
  quarPart : Option Nat := none
  /-- launches entered in the launch table since reset -/
  launched : Nat := 0
  ports : Tab Port := []
  /-- the port on the route to a peer number, for the peers that have one (R158) -/
  routes : Tab Nat := []
  /-- dies with no boundary left (R28) -/
  isolated : List Nat := []
  /-- operations performed at homes, for the order of R171 -/
  homeOps : Nat := 0
  /-- the error ring, newest first (R79) -/
  errRing : List ErrEntry := []
  -- the package (file 01)
  islands : Tab Island := []
  envelope : Nat := 1500
  /-- both copies of record kind 4 were rejected, and the envelope is held at 900 W (R37) -/
  envHeld : Bool := false
  /-- since when every estimate has been below 97 % of the envelope (R34) -/
  lowSince : Option Nat := none
  /-- failed lane bundles of the boundaries D0-D1, D2-D3, D0-D2, D1-D3 (R28) -/
  bounds : Tab Nat := []
  /-- the 95 C action of a layer sensor is in force, key 8 * cluster + layer (R32) -/
  zero95 : Tab Bool := []
  flash : List FlashCopy := factoryFlash
  /-- stored minimum versions by kind, 0 for the firmware image (R37) -/
  minVer : Tab Nat := []
  serialNo : Nat := 0
  /-- keys drawn for each slot of the memory encryption engine since reset, slot 16 for what no partition owns (R67) -/
  keyGen : Tab Nat := []
  /-- the reference cycle from which each die's scheduler may dispatch again (R136) -/
  dispatchAt : Tab Nat := []
  recovery : Recovery := {}
  sock : Sock := {}
  host : HostSide := {}
  streams : Tab Stream := []
  /-- memory requests from outside that wait, oldest first -/
  asks : List Ask := []
  /-- logical times of the agents that are no contexts and no engines, by the numbers of R190 -/
  agents : Tab Nat := []
  fe : FrontEnd := {}
  deriving DecidableEq, Repr

structure State where
  mem : Memory := {}
  dev : Dev := {}
  deriving DecidableEq, Repr

/-- The machine right after reset. -/
def State.reset : State := {}

end Sys2Proof.Machine
end

