-- ==== Sys2Proof/Machine/Mem.lean ====
section
/-! DEFINITION. The bytes of memory: the canonical list, the keys of the several memories, and the transaction in which
a meaning reads and writes bytes, so that bytes reach the state only through `commit`. -/

namespace Sys2Proof.Machine

/-- What a byte that nothing has written reads as (notes/assumptions/1.md, DESIGN CHOICE). -/
def unwritten : Byte := 0

/-- The byte at a key: that of the first entry with it. -/
def cellsRead : List Host.Cell → Nat → Byte
  | [], _ => unwritten
  | (j, b) :: t, k => if j = k then b else cellsRead t k

/-- The sorted list with the byte at k set, an entry equal to the unwritten byte being removed. -/
def cellsWrite : List Host.Cell → Nat → Byte → List Host.Cell
  | [], k, v => if v = unwritten then [] else [(k, v)]
  | (j, b) :: t, k, v =>
    if j = k then (if v = unwritten then t else (k, v) :: t)
    else if k < j then (if v = unwritten then (j, b) :: t else (k, v) :: (j, b) :: t)
    else (j, b) :: cellsWrite t k v

/-- Keys strictly above lo and rising, and no entry equal to the unwritten byte. -/
def cellsWf (lo : Option Nat) : List Host.Cell → Bool
  | [] => true
  | (j, b) :: t => (match lo with | none => true | some l => decide (l < j)) && decide (b ≠ unwritten) && cellsWf (some j) t

/-- The byte at a key. -/
def Memory.read (m : Memory) (k : Nat) : Byte := cellsRead m.cells k

/-- Memory with the byte at a key set. -/
def Memory.write (m : Memory) (k : Nat) (v : Byte) : Memory := { cells := cellsWrite m.cells k v }

/-- Memory is in canonical form. -/
def Memory.wf (m : Memory) : Bool := cellsWf none m.cells

/-- The keys of the memories of Table 7.1, and of the DRAM arrays under dirty lines (R177), the recovery staging buffer
and window (R80) and the swap buffers (R178). -/
def Key.phys (a : Nat) : Nat := a

/-- The array byte under a dirty line (R177). -/
def Key.array (a : Nat) : Nat := 0x10000000000000 + a

/-- A local-store byte of a core (R154). -/
def Key.ls (core a : Nat) : Nat := 0x20000000000000 + core * 0x100000 + a

/-- A byte of a slice's ways used as staging (R174). -/
def Key.staging (cluster slice off : Nat) : Nat := 0x40000000000000 + cluster * 0x1000000 + slice * 0x40000 + off

/-- A byte of the recovery staging buffer (R80). -/
def Key.recBuf (a : Nat) : Nat := 0x80000000000000 + a

/-- A byte of the recovery window (R80). -/
def Key.recWin (a : Nat) : Nat := 0x80000100000000 + a

/-- A byte of a die's swap buffer: half 0 or 1 (R178). -/
def Key.swapBuf (die half a : Nat) : Nat := 0x80000200000000 + die * 0x1000000 + half * 0x400000 + a

/-- A transaction on the state: the memory as it was, the bytes written since (newest first), and the rest. -/
structure Work where
  base : Memory
  log : List Host.Cell
  dev : Dev
  deriving DecidableEq, Repr

/-- Open a transaction. -/
def Work.begin (σ : State) : Work := { base := σ.mem, log := [], dev := σ.dev }

/-- The byte last written at a key of a log, if it was written. -/
def logFind : List Host.Cell → Nat → Option Byte
  | [], _ => none
  | (j, b) :: t, k => if j = k then some b else logFind t k

/-- Read one byte. -/
def Work.byte (w : Work) (k : Nat) : Byte :=
  match logFind w.log k with
  | some b => b
  | none => w.base.read k

/-- Write one byte. -/
def Work.setByte (w : Work) (k : Nat) (v : Byte) : Work := { w with log := (k, v) :: w.log }

/-- Apply a log to memory, oldest write first. -/
def Memory.apply (m : Memory) : List Host.Cell → Memory
  | [] => m
  | (k, v) :: t => (m.apply t).write k v

/-- Close a transaction: the one way the bytes of memory change. The memory is built anew from the bytes it held and those
written, so that every transaction ends in canonical form. -/
def Work.commit (w : Work) : State := { mem := Memory.apply {} (w.log ++ w.base.cells), dev := w.dev }

/-- n bytes from a key, little-endian (R9). -/
def Work.readN (w : Work) (k : Nat) : Nat → Nat
  | 0 => 0
  | n + 1 => (w.byte k).toNat + 256 * w.readN (k + 1) n

/-- Write n bytes from a key, little-endian (R9). -/
def Work.writeN (w : Work) (k : Nat) : Nat → Nat → Work
  | 0, _ => w
  | n + 1, v => (w.setByte k (BitVec.ofNat 8 v)).writeN (k + 1) n (v / 256)

/-- Change the part of the state that is not bytes. -/
def Work.mapDev (w : Work) (f : Dev → Dev) : Work := { w with dev := f w.dev }

/-- A free value, and the counter moved on. -/
def Work.free (w : Work) : Nat × Work :=
  (Config.freeValue w.dev.fresh, { w with dev := { w.dev with fresh := w.dev.fresh + 1 } })

/-- The context bank of a core. -/
def Dev.ctx (d : Dev) (core bank : Nat) : Ctx := d.ctxs.get (2 * core + bank) {}

/-- The core site. -/
def Dev.core (d : Dev) (c : Nat) : Core := d.cores.get c {}

def Work.ctx (w : Work) (core bank : Nat) : Ctx := w.dev.ctx core bank

def Work.core (w : Work) (c : Nat) : Core := w.dev.core c

/-- Change a context bank. -/
def Work.updCtx (w : Work) (core bank : Nat) (f : Ctx → Ctx) : Work :=
  { w with dev := { w.dev with ctxs := w.dev.ctxs.set (2 * core + bank) (f (w.dev.ctx core bank)) } }

/-- Change a core site. -/
def Work.updCore (w : Work) (c : Nat) (f : Core → Core) : Work :=
  { w with dev := { w.dev with cores := w.dev.cores.set c (f (w.dev.core c)) } }

/-- Change the coherent memory system. -/
def Work.updCoh (w : Work) (f : Coherence → Coherence) : Work :=
  { w with dev := { w.dev with coh := f w.dev.coh } }

/-- n more of an event in the counters that count it (Table 11.10): 1 bundles issued, 2 freeze cycles, 3 landings later
than LD, 4 passes completed, 5 engine bytes completed, 6 queue operations finding full or empty, 7 traps taken. -/
def Ctx.count (c : Ctx) (event n : Nat) : Ctx :=
  { c with cnt := c.evs.foldl (fun t e =>
      if e.2 = event then t.set e.1 (t.get e.1 0 + BitVec.ofNat 64 n) else t) c.cnt }

end Sys2Proof.Machine
end

