-- ==== Sys2Proof/Machine/Num.lean ====
section
/-! DEFINITION. Number formats, exact arithmetic and rounding (R236 to R241, R336 to R346). -/

namespace Sys2Proof.Machine

/-- The element formats, with the codes of Table 12.2. -/
inductive Fmt where
  | byte | int4 | int8 | uint8 | int16 | int32 | e4m3 | e5m2 | bf16 | fp16 | fp32
  deriving DecidableEq, Repr

/-- The format with a code of Table 12.2. -/
def Fmt.ofCode (n : Nat) : Option Fmt :=
  match n with
  | 0 => some .byte
  | 1 => some .int4
  | 2 => some .int8
  | 3 => some .uint8
  | 4 => some .int16
  | 5 => some .int32
  | 6 => some .e4m3
  | 7 => some .e5m2
  | 8 => some .bf16
  | 9 => some .fp16
  | 10 => some .fp32
  | _ => none

/-- Width in bits (Tables 10.1, 10.2). -/
def Fmt.bits : Fmt → Nat
  | .int4 => 4
  | .byte => 8
  | .int8 => 8
  | .uint8 => 8
  | .e4m3 => 8
  | .e5m2 => 8
  | .int16 => 16
  | .bf16 => 16
  | .fp16 => 16
  | .int32 => 32
  | .fp32 => 32

/-- The format is a floating format (Table 10.2). -/
def Fmt.isFloat : Fmt → Bool
  | .e4m3 => true
  | .e5m2 => true
  | .bf16 => true
  | .fp16 => true
  | .fp32 => true
  | .byte => false
  | .int4 => false
  | .int8 => false
  | .uint8 => false
  | .int16 => false
  | .int32 => false

/-- Fraction width of a floating format (Table 10.2). -/
def Fmt.frac : Fmt → Nat
  | .e4m3 => 3
  | .e5m2 => 2
  | .bf16 => 7
  | .fp16 => 10
  | .fp32 => 23
  | .byte => 0
  | .int4 => 0
  | .int8 => 0
  | .uint8 => 0
  | .int16 => 0
  | .int32 => 0

/-- Exponent bias of a floating format (Table 10.2). -/
def Fmt.bias : Fmt → Nat
  | .e4m3 => 7
  | .e5m2 => 15
  | .bf16 => 127
  | .fp16 => 15
  | .fp32 => 127
  | .byte => 0
  | .int4 => 0
  | .int8 => 0
  | .uint8 => 0
  | .int16 => 0
  | .int32 => 0

/-- The canonical NaN of a format (R238). -/
def Fmt.nan : Fmt → Nat
  | .e4m3 => 0x7F
  | .e5m2 => 0x7E
  | .bf16 => 0x7FC0
  | .fp16 => 0x7E00
  | .fp32 => 0x7FC00000
  | .byte => 0
  | .int4 => 0
  | .int8 => 0
  | .uint8 => 0
  | .int16 => 0
  | .int32 => 0

/-- The magnitude code of the largest finite value (Table 10.2). -/
def Fmt.maxFin : Fmt → Nat
  | .e4m3 => 0x7E
  | .e5m2 => 0x7B
  | .bf16 => 0x7F7F
  | .fp16 => 0x7BFF
  | .fp32 => 0x7F7FFFFF
  | .byte => 0
  | .int4 => 0
  | .int8 => 0
  | .uint8 => 0
  | .int16 => 0
  | .int32 => 0

/-- A value: a NaN, an infinity, or (-1)^neg * m * 2^e; a zero has m = 0 and keeps its sign. -/
inductive Real where
  | nan
  | inf (neg : Bool)
  | fin (neg : Bool) (m : Nat) (e : Int)
  deriving DecidableEq, Repr

/-- Two's complement of n bits read as a signed integer. -/
def sx (n : Nat) (x : Nat) : Int :=
  let y := x % 2 ^ n
  if y < 2 ^ (n - 1) then (y : Int) else (y : Int) - (2 ^ n : Nat)

/-- An integer's low n bits. -/
def wrap (n : Nat) (x : Int) : Nat := (x % ((2 ^ n : Nat) : Int)).toNat

/-- An integer limited to a range. -/
def clampInt (lo hi x : Int) : Int := if x < lo then lo else if hi < x then hi else x

/-- The value of an integer. -/
def Real.ofInt (x : Int) : Real := .fin (decide (x < 0)) x.natAbs 0

/-- The value of a bit pattern of a floating format (R237). -/
def floatValue (f : Fmt) (x : Nat) : Real :=
  let b := f.bits
  let fr := f.frac
  let neg := decide (x / 2 ^ (b - 1) % 2 = 1)
  let ebits := b - 1 - fr
  let ex := x / 2 ^ fr % 2 ^ ebits
  let fx := x % 2 ^ fr
  let allOnes := 2 ^ ebits - 1
  if ex = allOnes ∧ (f = .e4m3 → fx = 7) then
    (if f ≠ .e4m3 ∧ fx = 0 then .inf neg else .nan)
  else if ex = 0 then .fin neg fx (1 - (f.bias : Int) - fr)
  else .fin neg (2 ^ fr + fx) ((ex : Int) - f.bias - fr)

/-- The value of an element's bit pattern in any format (R236, R237). -/
def value (f : Fmt) (x : Nat) : Real :=
  match f with
  | .byte => .ofInt (x % 256)
  | .uint8 => .ofInt (x % 256)
  | .int4 => .ofInt (sx 4 x)
  | .int8 => .ofInt (sx 8 x)
  | .int16 => .ofInt (sx 16 x)
  | .int32 => .ofInt (sx 32 x)
  | .e4m3 => floatValue .e4m3 x
  | .e5m2 => floatValue .e5m2 x
  | .bf16 => floatValue .bf16 x
  | .fp16 => floatValue .fp16 x
  | .fp32 => floatValue .fp32 x

/-- m divided by 2^k, rounded to nearest with ties to even; `sticky` says that the value lies above m by less than one
unit (R240). -/
def rneShift (m k : Nat) (sticky : Bool) : Nat :=
  let q := m / 2 ^ k
  let r := m % 2 ^ k
  let h := 2 ^ k / 2
  if k = 0 then q
  else if h < r ∨ (r = h ∧ (sticky ∨ q % 2 = 1)) then q + 1 else q

/-- m divided by 2^k, rounded up whenever it is not exact. -/
def upShift (m k : Nat) : Nat := if m % 2 ^ k = 0 then m / 2 ^ k else m / 2 ^ k + 1

/-- Number of significant bits. -/
def bitLen (m : Nat) : Nat := if m = 0 then 0 else Nat.log2 m + 1

/-- The quantum's exponent at which m * 2^e rounds in a floating format with unbounded exponent range above. -/
def quantum (f : Fmt) (m : Nat) (e : Int) : Int :=
  max ((bitLen m : Int) - 1 + e - f.frac) (1 - (f.bias : Int) - f.frac)

/-- The magnitude code of q * 2^qe, where q has at most one bit more than a significand; above the format's range this
is a code above `maxFin`. -/
def magCode (f : Fmt) (q : Nat) (qe : Int) : Nat :=
  let fr := f.frac
  if q < 2 ^ fr then q
  else (qe + fr + f.bias).toNat * 2 ^ fr + (q - 2 ^ fr)

/-- What an overflow or an infinity becomes (R241, Table 10.4). -/
inductive Overflow where
  /-- infinity (E4M3, which has none: its largest finite value) -/
  | infinity
  /-- the largest finite value of the sign -/
  | saturate
  /-- with OVF set: the NaN of E4M3, the infinity of E5M2 -/
  | flag
  deriving DecidableEq, Repr

/-- The code of an overflowed or infinite value. -/
def overflowCode (f : Fmt) (neg : Bool) (o : Overflow) : Nat :=
  let s := if neg then 2 ^ (f.bits - 1) else 0
  match o with
  | .infinity => if f = .e4m3 then s + f.maxFin else s + (2 ^ (f.bits - 1 - f.frac) - 1) * 2 ^ f.frac
  | .saturate => s + f.maxFin
  | .flag => if f = .e4m3 then f.nan else s + (2 ^ (f.bits - 1 - f.frac) - 1) * 2 ^ f.frac

/-- Rounding an exact finite value to a floating format by RNE, once (R240). -/
def roundFin (f : Fmt) (o : Overflow) (neg : Bool) (m : Nat) (e : Int) (sticky : Bool) : Nat :=
  let s := if neg then 2 ^ (f.bits - 1) else 0
  if m = 0 ∧ sticky = false then s
  else
    let qe := quantum f m e
    let q := if e ≤ qe then rneShift m (qe - e).toNat sticky else m * 2 ^ (e - qe).toNat
    let c := if 2 ^ (f.frac + 1) ≤ q then magCode f (q / 2) (qe + 1) else magCode f q qe
    if f.maxFin < c then overflowCode f neg o else s + c

/-- A value in a floating format, by RNE (R240, R241). -/
def toFloat (f : Fmt) (o : Overflow) (x : Real) : Nat :=
  match x with
  | .nan => f.nan
  | .inf neg => overflowCode f neg o
  | .fin neg m e => roundFin f o neg m e false

/-- A value in a floating format under the arithmetic rule: RNE with overflow to infinity (R336). -/
def rne (f : Fmt) (x : Real) : Nat := toFloat f .infinity x

/-- A value rounded to FP32 toward +infinity (R254). -/
def roundUpF32 (x : Real) : Nat :=
  match x with
  | .nan => Fmt.nan .fp32
  | .inf neg => overflowCode .fp32 neg .infinity
  | .fin neg m e =>
    let qe := quantum .fp32 m e
    let q := if e ≤ qe then (if neg then m / 2 ^ (qe - e).toNat else upShift m (qe - e).toNat)
             else m * 2 ^ (e - qe).toNat
    let c := if 2 ^ 24 ≤ q then magCode .fp32 (q / 2) (qe + 1) else magCode .fp32 q qe
    if neg then 2 ^ 31 + min c (Fmt.maxFin .fp32)
    else if Fmt.maxFin .fp32 < c then 0x7F800000 else c

/-- A value rounded to an integer, ties to even. -/
def toIntRne (neg : Bool) (m : Nat) (e : Int) : Int :=
  let a : Nat := if 0 ≤ e then m * 2 ^ e.toNat else rneShift m (-e).toNat false
  if neg then -(a : Int) else a

/-- x / 2^k rounded to nearest, ties away from zero (R240). -/
def rna (x : Int) (k : Nat) : Int :=
  let a := x.natAbs
  let q := if k = 0 then a else (a + 2 ^ (k - 1)) / 2 ^ k
  if x < 0 then -(q : Int) else q

/-- The range of an integer format (Table 10.1). -/
def Fmt.intRange : Fmt → Int × Int
  | .int4 => (-8, 7)
  | .int8 => (-128, 127)
  | .uint8 => (0, 255)
  | .byte => (0, 255)
  | .int16 => (-32768, 32767)
  | .int32 => (-2147483648, 2147483647)
  | .e4m3 => (0, 0)
  | .e5m2 => (0, 0)
  | .bf16 => (0, 0)
  | .fp16 => (0, 0)
  | .fp32 => (0, 0)

/-- The conversion of a value to a format (R241, Table 10.4): `ovf` is the OVF flag of `vcvt`. -/
def convert (f : Fmt) (ovf : Bool) (x : Real) : Nat :=
  if f.isFloat then
    let o : Overflow := if f = .e4m3 ∨ f = .e5m2 then (if ovf then .flag else .saturate) else .infinity
    toFloat f o x
  else
    let r := f.intRange
    match x with
    | .nan => 0
    | .inf neg => wrap f.bits (if neg then r.1 else r.2)
    | .fin neg m e => wrap f.bits (clampInt r.1 r.2 (toIntRne neg m e))

/-- The signed significand of a finite value at exponent e0, which must not exceed its own. -/
def atExp (neg : Bool) (m : Nat) (e e0 : Int) : Int :=
  let a : Int := ((m * 2 ^ (e - e0).toNat : Nat) : Int)
  if neg then -a else a

/-- The exact sum; an exact zero of operands of opposite sign is +0 (R238). -/
def Real.add : Real → Real → Real
  | .nan, _ => .nan
  | .inf _, .nan => .nan
  | .inf a, .inf b => if a = b then .inf a else .nan
  | .inf a, .fin _ _ _ => .inf a
  | .fin _ _ _, .nan => .nan
  | .fin _ _ _, .inf b => .inf b
  | .fin n1 m1 e1, .fin n2 m2 e2 =>
    let e0 := min e1 e2
    let x := atExp n1 m1 e1 e0 + atExp n2 m2 e2 e0
    if x = 0 then .fin (n1 && n2) 0 e0 else .fin (decide (x < 0)) x.natAbs e0

/-- The value with its sign changed. -/
def Real.neg : Real → Real
  | .nan => .nan
  | .inf a => .inf (!a)
  | .fin n m e => .fin (!n) m e

/-- The exact product; 0 times infinity is a NaN (R336). -/
def Real.mul : Real → Real → Real
  | .nan, _ => .nan
  | .inf _, .nan => .nan
  | .inf a, .inf b => .inf (a != b)
  | .inf a, .fin n m _ => if m = 0 then .nan else .inf (a != n)
  | .fin _ _ _, .nan => .nan
  | .fin n m _, .inf b => if m = 0 then .nan else .inf (b != n)
  | .fin n1 m1 e1, .fin n2 m2 e2 => .fin (n1 != n2) (m1 * m2) (e1 + e2)

/-- The value times 2^k. -/
def Real.scale : Real → Int → Real
  | .nan, _ => .nan
  | .inf a, _ => .inf a
  | .fin n m e, k => .fin n m (e + k)

/-- x < y, where neither is a NaN; +0 equals -0. -/
def Real.lt : Real → Real → Bool
  | .nan, _ => false
  | _, .nan => false
  | .inf a, .inf b => a && !b
  | .inf a, .fin _ _ _ => a
  | .fin _ _ _, .inf b => !b
  | .fin n1 m1 e1, .fin n2 m2 e2 =>
    let e0 := min e1 e2
    decide (atExp n1 m1 e1 e0 < atExp n2 m2 e2 e0)

/-- x = y, where neither is a NaN. -/
def Real.eq (x y : Real) : Bool := x != .nan && y != .nan && !(x.lt y) && !(y.lt x)

/-- The value is a NaN. -/
def Real.isNan (x : Real) : Bool := decide (x = .nan)

/-- The sign of a value. -/
def Real.isNeg : Real → Bool
  | .nan => false
  | .inf a => a
  | .fin n _ _ => n

/-- x comes before y in the order of `vmin`: -0 is smaller than +0 (R336). -/
def Real.before (x y : Real) : Bool := x.lt y || (x.eq y && x.isNeg && !y.isNeg)

/-- The value is a zero. -/
def Real.isZero : Real → Bool
  | .nan => false
  | .inf _ => false
  | .fin _ m _ => decide (m = 0)

/-- Rounding to an integral value: 0 nearest even, 1 toward zero, 2 toward -infinity, 3 toward +infinity (R339). -/
def Real.roundInt (mode : Nat) : Real → Real
  | .nan => .nan
  | .inf a => .inf a
  | .fin n m e =>
    if 0 ≤ e then .fin n m e
    else
      let k := (-e).toNat
      let q := m / 2 ^ k
      let exact := decide (m % 2 ^ k = 0)
      let q' := match mode with
        | 0 => rneShift m k false
        | 1 => q
        | 2 => if exact || !n then q else q + 1
        | _ => if exact || n then q else q + 1
      .fin n q' 0

/-- The exact sum of a list, with the zero rule of R346: +0 unless every element is -0. -/
def sumReals : List Real → Real
  | [] => .fin false 0 0
  | [x] => x
  | x :: y :: t => Real.add x (sumReals (y :: t))

/-- floor(log2 |x|) of a finite nonzero value. -/
def Real.log2 : Real → Option Int
  | .nan => none
  | .inf _ => none
  | .fin _ m e => if m = 0 then none else some ((bitLen m : Int) - 1 + e)

/-- The greater or smaller of two elements: signed, -0 below +0, NaN if either is (R336, R380, R382). -/
def pickElem (f : Fmt) (most : Bool) (x y : Nat) : Nat :=
  let a := value f x
  let b := value f y
  if a.isNan || b.isNan then f.nan
  else if most then (if a.before b then y else x)
  else if b.before a then y else x

end Sys2Proof.Machine
end

