-- ==== Sys2Proof/Machine/Operands.lean ====
section
/-! DEFINITION. Every operand form: source selectors, operand ports, guards, lane masks and element views
(R209, R267, R272, R273, R296, R330 to R332). -/

namespace Sys2Proof.Machine

/-- Why a slot form does not take its effect (R226, R418): a fault found at issue, with cw.tval where the spec gives it;
a malformed page-table entry, which is also entered in the error ring (R162); a hold; a park on a translation fault
(R224); or the fault of an earlier posted operation, reported at this bundle: 0 of a posted store or range operation
(R304), 1 of a publish (R169; with the handle of the access that waits), 2 of an enqueue (R121), 3 of a `qbind` (R309,
with the binding). -/
inductive Stop where
  | trap (cause : Nat) (tval : Option Nat)
  | malformed (cause va : Nat)
  | hold (why : FreezeWhy)
  | park (cause line va : Nat)
  | report (kind : Nat) (key : Option Nat)
  deriving DecidableEq, Repr

/-- What issuing a slot form does to the state, or why it does not. -/
abbrev Plan := Except Stop Work

/-- Raise a cause whose value the spec does not give. -/
def trapOn {α : Type} (cause : Nat) : Except Stop α := .error (.trap cause none)

/-- Raise a cause when a check fails. -/
def check (ok : Bool) (cause : Nat) : Except Stop Unit := if ok then .ok () else .error (.trap cause none)

/-- Raise a cause with its value when a check fails. -/
def checkVal (ok : Bool) (cause val : Nat) : Except Stop Unit := if ok then .ok () else .error (.trap cause (some val))

/-- The issuing context. -/
def Work.me (w : Work) : Ctx := w.dev.ctx w.dev.issue.core w.dev.issue.bank

/-- Change the issuing context. -/
def Work.updMe (w : Work) (f : Ctx → Ctx) : Work := w.updCtx w.dev.issue.core w.dev.issue.bank f

/-- The issuing core. -/
def Work.myCore (w : Work) : Core := w.dev.core w.dev.issue.core

/-- Register sn; s0 reads 0 (Table 11.2). -/
def Ctx.sreg (c : Ctx) (n : Nat) : Word := if n = 0 then 0 else c.s.get n 0

/-- Predicate pn; p0 reads 1 (Table 11.2). -/
def Ctx.preg (c : Ctx) (n : Nat) : Bool := if n = 0 then true else c.p.get n false

/-- Mask vmn; vm0 reads all ones (R332). -/
def Ctx.vmreg (c : Ctx) (n : Nat) : Mask := if n = 0 then BitVec.allOnes 256 else c.vm.get n 0

/-- Vector register vn. -/
def Ctx.vreg (c : Ctx) (n : Nat) : Vec := c.v.get n 0

/-- Scalar latch n: 0 `alu.r`, 1 `mul.r`, 2 `ls.r`, 3 `q.r`, 4 `br.r`, 5 `sys.r`, 6 `m.r`, 7 `cp0.r`, 8 `cp1.r`. -/
def Ctx.latch (c : Ctx) (n : Nat) : Word := c.lat.get n 0

/-- Vector latch n: 0 `va0.r`, 1 `va1.r`, 2 `vred.r`, 3 `acc.r`, 4-7 `mrow.0`-`mrow.3`. -/
def Ctx.vlatch (c : Ctx) (n : Nat) : Vec := c.vlat.get n 0

/-- The predicate file as a word: bit n is pn (Table 11.2). -/
def Ctx.preds (c : Ctx) : Nat :=
  (List.range 8).foldr (fun n a => (if c.preg n then 1 else 0) + 2 * a) 0

/-- The constants of Table 11.3. -/
def scalarConst (n : Nat) : Word :=
  match n with
  | 0x70 => 0
  | 0x71 => 1
  | 0x72 => BitVec.allOnes 64
  | 0x73 => 2
  | 0x74 => 4
  | 0x75 => 8
  | 0x76 => 16
  | 0x77 => 32
  | 0x78 => 64
  | 0x79 => 128
  | 0x7A => 256
  | 0x7B => 255
  | 0x7C => 0xFFFFFFFF
  | 0x7D => 0x7FFFFFFFFFFFFFFF
  | 0x7E => 0x8000000000000000
  | _ => 0x100000

/-- The key of a poison mark: 0-63 s0-s63, 64-72 scalar latches, 80-87 vector latches, 96-127 v0-v31 (R212). -/
def Ctx.marked (c : Ctx) (k : Nat) : Nat := c.mark.get k 0

/-- A source whose poison mark, if it has one, raises the recorded cause (R212). -/
def Ctx.good {α : Type} (c : Ctx) (k : Nat) (x : α) : Except Stop α :=
  if c.marked k = 0 then .ok x else .error (.trap (c.marked k) none)

/-- cw.rank (R131). -/
def Ctx.rankWord (c : Ctx) : Word := BitVec.ofNat 64 c.rank

/-- The source named by a selector of the S-slot space (R272). -/
def readSel (w : Work) (sel : Nat) : Except Stop Word :=
  let c := w.me
  if sel ≤ 0x3F then (if sel = 0 then .ok 0 else c.good sel (c.sreg sel))
  else if sel ≤ 0x48 then c.good (sel - 0x40 + 64) (c.latch (sel - 0x40))
  else if 0x50 ≤ sel ∧ sel ≤ 0x57 then c.good (sel - 0x50 + 80) ((c.vlatch (sel - 0x50)).truncate 64)
  else if sel = 0x60 then .ok (BitVec.ofNat 64 c.preds)
  else if sel = 0x61 then .ok c.rankWord
  else if sel = 0x62 then .ok c.wid
  else if sel = 0x63 then .ok c.widHi
  else if 0x64 ≤ sel ∧ sel ≤ 0x69 then .ok (BitVec.ofNat 64 (c.loop.ctr.getD (sel - 0x64) 0))
  else if sel = 0x6A then .ok (BitVec.ofNat 64 w.dev.issue.pc)
  else if 0x70 ≤ sel then .ok (scalarConst sel)
  else trapOn 2

/-- The operand port of a scalar unit: 0 ALU, 1 multiplier, 2 load/store, 3 queue, 4 branch, 5 system, 6 M, 7 C0, 8 C1
(Table 9.3); the value it holds after the load of R209. -/
def readPort (w : Work) (unit : Nat) (om : BitVec 2) (os : BitVec 7) : Except Stop Word :=
  match om.toNat with
  | 0 => .ok (w.me.port.get unit 0)
  | 1 => readSel w os.toNat
  | 2 => .ok (os.signExtend 64)
  | _ => .ok w.dev.issue.long

/-- The operand port with the value it received. -/
def Work.setPort (w : Work) (unit : Nat) (b : Word) : Work :=
  w.updMe fun c => { c with port := c.port.set unit b }

/-- The guard of the S slot is true (R209). -/
def guardTrue (w : Work) : Bool := w.me.preg w.dev.issue.gp != w.dev.issue.gn

/-- The slot issuing is V1. -/
def Work.isV1 (w : Work) : Bool := decide (w.dev.issue.slot = 3)

/-- The lane mask of the issuing V slot (R332). -/
def laneMask (w : Work) : Mask := w.me.vmreg (if w.isV1 then w.dev.issue.mv1 else w.dev.issue.mv0)

/-- The header's mask field of the issuing V slot. -/
def laneSel (w : Work) : Nat := if w.isV1 then w.dev.issue.mv1 else w.dev.issue.mv0

/-- n-bit elements packed, lowest index first. -/
def packN (n : Nat) : List Nat → Nat
  | [] => 0
  | x :: t => x % 2 ^ n + 2 ^ n * packN n t

/-- Elements packed as a 2,048-bit value. -/
def packVec (n : Nat) (xs : List Nat) : Vec := BitVec.ofNat 2048 (packN n xs)

/-- count n-bit elements of a number, lowest first. -/
def unpackN (n : Nat) : Nat → Nat → List Nat
  | _, 0 => []
  | x, k + 1 => x % 2 ^ n :: unpackN n (x / 2 ^ n) k

/-- The elements of a vector value (R330). -/
def elements (n : Nat) (v : Vec) : List Nat := unpackN n v.toNat (2048 / n)

/-- An n-bit pattern in every element. -/
def splat (n : Nat) (x : Nat) : Vec := packVec n (List.replicate (2048 / n) x)

/-- Mask bits spread to bytes: byte k all ones where mask bit k is 1. -/
def spreadMask (m : Mask) : Vec :=
  packVec 8 ((unpackN 1 m.toNat 256).map fun b => if b = 1 then 255 else 0)

/-- The mask whose bits are those of the lowest bytes of n-bit elements, repeated over each element: the bytes of the
active elements (R332). For 4-bit elements a byte is active when its mask bit is 1. -/
def elementMask (n : Nat) (m : Mask) : Mask :=
  let k := if n ≤ 8 then 1 else n / 8
  BitVec.ofNat 256 (packN k ((unpackN k m.toNat (256 / k)).map fun b => if b % 2 = 1 then 2 ^ k - 1 else 0))

/-- Which n-bit elements are active (R332). -/
def activeList (n : Nat) (m : Mask) : List Bool :=
  if n < 8 then ((unpackN 1 m.toNat 256).map fun b => [decide (b = 1), decide (b = 1)]).flatten
  else (unpackN (n / 8) m.toNat (2048 / n)).map fun b => decide (b % 2 = 1)

/-- The bytes of x where the mask is set, and those of y elsewhere. -/
def blend (m : Mask) (x y : Vec) : Vec :=
  let s := spreadMask m
  (x &&& s) ||| (y &&& ~~~s)

/-- The constants of Table 11.5 in a format. -/
def vectorConst (f : Fmt) (n : Nat) : Nat :=
  if f.isFloat then
    match n with
    | 0x60 => 0
    | 0x61 => rne f (.ofInt 1)
    | 0x62 => rne f (.ofInt (-1))
    | 0x63 => rne f (.fin false 1 (-1))
    | 0x64 => rne f (.ofInt 2)
    | 0x65 => f.maxFin
    | 0x66 => f.maxFin + 2 ^ (f.bits - 1)
    | 0x67 => overflowCode f false .infinity
    | 0x68 => f.nan
    -- ln 2 and log2 e to 64 fraction bits; no format's rounding is decided below them
    | 0x69 => roundFin f .infinity false 0xB17217F7D1CF79AB (-64) true
    | 0x6A => roundFin f .infinity false 0x171547652B82FE177 (-64) true
    | 0x6B => 2 ^ f.frac
    | 0x6C => rne f (.fin false 1 (-2))
    | _ => rne f (.fin false 1 (-(f.frac : Int)))
  else
    match n with
    | 0x60 => 0
    | 0x61 => 1
    | 0x62 => convert f false (.ofInt (-1))
    | 0x64 => 2
    | 0x65 => wrap f.bits f.intRange.2
    | 0x66 => wrap f.bits f.intRange.1
    | 0x67 => wrap f.bits f.intRange.2
    | 0x6A => 1
    | 0x6B => 1
    | 0x6D => 1
    | _ => 0

/-- How a V form reads its sources: in an element format, as 64-bit lane groups, or as bare elements of n bits, whose
constants come from the INT32 column (R273, R331). -/
inductive View where
  | fmt (f : Fmt)
  | groups
  | bare (n : Nat)
  deriving DecidableEq, Repr

/-- The width in bits of the view's elements. -/
def View.bits : View → Nat
  | .fmt f => f.bits
  | .groups => 64
  | .bare n => n

/-- A 64-bit scalar given to every element (R331). -/
def View.scalar (v : View) (x : Word) : Vec := splat v.bits x.toNat

/-- A constant selector 0x60-0x6D (R273). -/
def View.const (v : View) (n : Nat) : Vec :=
  match v with
  | .fmt f => splat f.bits (vectorConst f n)
  | .groups => splat 64 (wrap 64 (sx 32 (vectorConst .int32 n)))
  | .bare k => splat k (wrap k (sx 32 (vectorConst .int32 n)))

/-- Selector 0x70: the element index in every element (Table 11.4). -/
def View.index (v : View) : Vec :=
  match v with
  | .fmt f => packVec f.bits ((List.range (2048 / f.bits)).map fun i => convert f false (.ofInt (Int.ofNat i)))
  | .groups => packVec 64 (List.range 32)
  | .bare k => packVec k (List.range (2048 / k))

/-- The source named by a selector of the V-slot space (R273, R331). -/
def readVSel (w : Work) (v : View) (sel : Nat) : Except Stop Vec :=
  let c := w.me
  if sel ≤ 0x1F then c.good (96 + sel) (c.vreg sel)
  else if sel ≤ 0x3F then
    (if sel = 0x20 then .ok (v.scalar 0) else (c.good (sel - 0x20) (c.sreg (sel - 0x20))).map v.scalar)
  else if sel ≤ 0x48 then (c.good (sel - 0x40 + 64) (c.latch (sel - 0x40))).map v.scalar
  else if 0x50 ≤ sel ∧ sel ≤ 0x57 then c.good (sel - 0x50 + 80) (c.vlatch (sel - 0x50))
  else if 0x60 ≤ sel ∧ sel ≤ 0x6D then .ok (v.const sel)
  else if sel = 0x70 then .ok v.index
  else trapOn 2

/-- The signed immediate of OM = 10 in a view: exact in integer formats, RNE in float formats (R331). -/
def View.imm (v : View) (x : Int) : Vec :=
  match v with
  | .fmt f => splat f.bits (convert f false (.ofInt x))
  | .groups => splat 64 (wrap 64 x)
  | .bare k => splat k (wrap k x)

/-- The operand port of VA0 or VA1 after the load of R209, in a view (R331). -/
def readVPort (w : Work) (v : View) (om : BitVec 2) (os : BitVec 7) : Except Stop Vec :=
  match om.toNat with
  | 0 => .ok (w.me.vport.get (if w.isV1 then 1 else 0) 0)
  | 1 => readVSel w v os.toNat
  | 2 => .ok (v.imm os.toInt)
  | _ => .ok (v.scalar w.dev.issue.long)

/-- The VA port with the value it received. -/
def Work.setVPort (w : Work) (b : Vec) : Work :=
  w.updMe fun c => { c with vport := c.vport.set (if w.isV1 then 1 else 0) b }

/-- Lane group 0 of a vector value (R331). -/
def lane0 (v : Vec) : Word := v.truncate 64

/-- Put a fixed-latency result in flight: it lands L cycles from now (R208). -/
def Work.launchAt (w : Work) (lat : Nat) (e : Effect) : Work :=
  let t := w.myCore.clk
  w.updMe fun c => { c with
    seq := c.seq + 1
    flights := c.flights ++ [{ due := t + lat, slot := w.dev.issue.slot, seq := c.seq, eff := e }] }

/-- The register that a form writes back, if WE = 1 (R210). -/
def dest (we : BitVec 1) (n : Nat) : Option Nat := if we = 1 then some n else none

end Sys2Proof.Machine
end

