-- ==== Sys2Proof/Machine/Coherence.lean ====
section
/-! DEFINITION. Physical and virtual memory: the physical map, page-table walks, the lease protocol at a line's home,
the DRAM arrays under dirty lines, and what a write to a line sets off (files 07 and 08). -/

namespace Sys2Proof.Machine

/-- The regions of the physical map (Table 7.2). -/
inductive Region where
  | stacked | unmapped | host | peer
  deriving DecidableEq, Repr

/-- The region of a physical address (Table 7.2). -/
def regionOf (pa : Nat) : Region :=
  if pa < 0x4000000000 then .stacked
  else if pa < 0x8000000000000 then .unmapped
  else if pa < 0xC000000000000 then .host
  else if pa < 0x10000000000000 then .peer
  else .unmapped

/-- The column (0-511) of a stacked-memory address (R159). -/
def columnOf (pa : Nat) : Nat := pa / 2 ^ 29 % 512

/-- The layer of a stacked-memory address (R159). -/
def layerOf (pa : Nat) : Nat := pa / 2 ^ 26 % 8

/-- The bank (0-127) of a stacked-memory address (R159). -/
def bankOf (pa : Nat) : Nat := layerOf pa * 16 + pa / 64 % 16

/-- The 2 MiB granule number of a physical address. -/
def granuleOf (pa : Nat) : Nat := pa / 2 ^ 21

/-- The column record. -/
def Dev.column (d : Dev) (k : Nat) : Column := d.cols.get k {}

/-- The partition entry. -/
def Dev.partOf (d : Dev) (k : Nat) : Part := d.parts.get k {}

/-- A number lies in one of some ranges, given as first and count. -/
def inRanges : List (Nat × Nat) → Nat → Bool
  | [], _ => false
  | (a, n) :: t, x => (decide (a ≤ x) && decide (x < a + n)) || inRanges t x

/-- A granule is owned by an owner number: 0-15 a partition, 16 no partition (Table 5.1). -/
def granuleOwned (d : Dev) (owner g : Nat) : Bool :=
  if owner < 16 then inRanges (d.partOf owner).granules g
  else (List.range 16).all fun k => !inRanges (d.partOf k).granules g

/-- The private tag of the granule of a stacked-memory address (R165). -/
def privateTag (d : Dev) (pa : Nat) : Nat := (d.column (columnOf pa)).tags.get (pa / 2 ^ 21 % 256) 0

/-- Where an exchange serves a physical address from: by the state of its chunk (R179). -/
def swapKey : List Swap → Nat → Nat
  | [], pa => Key.phys pa
  | x :: t, pa =>
    let at1 := decide (x.f1 ≤ pa) && decide (pa < x.f1 + x.size)
    let at2 := decide (x.f2 ≤ pa) && decide (pa < x.f2 + x.size)
    if at1 || at2 then
      let own := if at1 then x.f1 else x.f2
      let other := if at1 then x.f2 else x.f1
      let off := pa - own
      let c := off / 4096
      if c < x.done then Key.phys (other + off)
      else if c = x.done ∧ x.inFlight then Key.swapBuf x.die (if at1 then 0 else 1) (off % 4096)
      else Key.phys pa
    else swapKey t pa

/-- The key of a byte of physical memory. -/
def Work.pkey (w : Work) (pa : Nat) : Nat := swapKey w.dev.coh.swaps pa

/-- The bits that the keys changed since a byte was written alter in it (R67). -/
def keysBetween (ks : List Nat) (k : Nat) : Byte := ks.foldl (fun b e => b ^^^ Config.keyPad e k) 0

/-- The byte at a key, as the owner of its granule reads it: where the owner has changed, through another key than it was written
with (R67, notes/assumptions/111.md). -/
def Work.seen (w : Work) (k : Nat) : Byte :=
  match w.dev.dataKeys.get? (k / 2 ^ 21) with
  | none => w.byte k
  | some ks => w.byte k ^^^ keysBetween ks k

/-- A byte written through the key of the owner of its granule (R67). -/
def Work.put (w : Work) (k : Nat) (v : Byte) : Work :=
  match w.dev.dataKeys.get? (k / 2 ^ 21) with
  | none => w.setByte k v
  | some ks => w.setByte k (v ^^^ keysBetween ks k)

/-- n bytes of physical memory, as its home holds them. -/
def Work.pread (w : Work) (pa : Nat) : Nat → Nat
  | 0 => 0
  | n + 1 => (w.seen (w.pkey pa)).toNat + 256 * w.pread (pa + 1) n

/-- Write n bytes of physical memory at its home. -/
def Work.pwrite (w : Work) (pa : Nat) : Nat → Nat → Work
  | 0, _ => w
  | n + 1, v => (w.put (w.pkey pa) (BitVec.ofNat 8 v)).pwrite (pa + 1) n (v / 256)

/-- Enter an event in the error ring of 64 entries, the oldest leaving (R79). -/
def Work.logError (w : Work) (cause part agent value : Nat) : Work :=
  w.mapDev fun d => { d with errRing :=
    ({ cause := cause, part := part, agent := agent, time := d.now, value := value } :: d.errRing).take 64 }

-- Reaching a home (R25, R28, R30, R181)

/-- The link to the peer of a peer-window address is down (R30, R158). -/
def linkDown (d : Dev) (pa : Nat) : Bool :=
  match d.routes.get? (pa / 2 ^ 38 % 2 ^ 12) with
  | none => true
  | some p => !(d.ports.get p {}).up

/-- A fault that an access meets at its home after issue (R304): a failed column or a link that is down. -/
def homeFault (d : Dev) (pa : Nat) : Nat :=
  let col := d.column (columnOf pa)
  match regionOf pa with
  | .stacked => if col.rfail then 44 else if col.bus = 3 then 45 else 0
  | .peer => if linkDown d pa then 47 else 0
  | .host => 0
  | .unmapped => 0

/-- The die of a core (R16). -/
def coreDie (core : Nat) : Nat := core / 128

/-- The die of a peer port (R19). -/
def portDie (port : Nat) : Nat := port / 4

/-- A boundary carries traffic while one of its 16 bundles is good (R28): 0 D0-D1, 1 D2-D3, 2 D0-D2, 3 D1-D3. -/
def boundaryUp (d : Dev) (i : Nat) : Bool := decide (d.bounds.get i 0 < 16)

/-- Some route of live boundaries joins two dies (R28): the boundary between them or the way round for two that adjoin,
either two-hop route for two that lie diagonally. Where both horizontal or both vertical boundaries have failed, no route
joins the halves though no die is isolated; the spec gives no outcome for that, and the model ends an access across with
the cause of an isolated die, 47 (DESIGN CHOICE, notes/assumptions/93.md; safe). -/
def joined (d : Dev) (a b : Nat) : Bool :=
  let up := boundaryUp d
  if a = b then true
  else match min a b, max a b with
    | 0, 1 => up 0 || (up 2 && up 1 && up 3)
    | 2, 3 => up 1 || (up 2 && up 0 && up 3)
    | 0, 2 => up 2 || (up 0 && up 3 && up 1)
    | 1, 3 => up 3 || (up 0 && up 2 && up 1)
    | _, _ => if a = 0 ∨ b = 0 then (up 0 && up 3) || (up 2 && up 1) else (up 0 && up 2) || (up 3 && up 1)

/-- The die at which an address is reached (R18, R19): its column's, the host link's, or its peer's port's. -/
def homeDie (d : Dev) (pa : Nat) : Nat :=
  match regionOf pa with
  | .stacked => columnOf pa / 128
  | .host => 0
  | .peer => portDie (d.routes.get (pa / 2 ^ 38 % 2 ^ 12) 0)
  | .unmapped => 0

/-- A fault that an agent of a die meets at an address's home: 47 where no route joins the dies, or that of the home
(R28). -/
def reachFault (d : Dev) (die pa : Nat) : Nat :=
  if regionOf pa ≠ .unmapped ∧ joined d die (homeDie d pa) = false then 47 else homeFault d pa

-- What a read waits for

/-- The guest holds a line in its directory (R50). -/
def guestHolds (d : Dev) (l : Nat) : Bool := d.sock.dir.any fun x => decide (x.line = l)

/-- The guest owns a line (R50). -/
def guestOwns (d : Dev) (l : Nat) : Bool := d.sock.dir.any fun x => decide (x.line = l) && x.owned

/-- The host's caches hold a line (R76, R185). -/
def hostHolds (d : Dev) (l : Nat) : Bool := d.host.dir.any fun x => decide (x.line = l)

/-- The host's caches own a line (R76, R185). -/
def hostOwns (d : Dev) (l : Nat) : Bool := d.host.dir.any fun x => decide (x.line = l) && x.owned

/-- The bias of a line's granule is flipping (R78), or its column's bus retrains (R24). -/
def homeBusy (d : Dev) (l : Nat) : Bool :=
  d.coh.flipping.contains (l / 64) ||
    (decide (regionOf (64 * l) = .stacked) && (d.column (columnOf (64 * l))).retrain.isSome)

/-- A read of a line at its home waits: the home is busy, or the guest or the host has the line as its own and must first
give it back (R24, R50, R76, R78). -/
def readWaits (d : Dev) (l : Nat) : Bool := homeBusy d l || guestOwns d l || hostOwns d l

-- Translation (R160 to R164, R168)

/-- What a translation asks for. -/
inductive Need where
  | read | write | atomic | fetch
  deriving DecidableEq, Repr

/-- A translated address (R162): the physical address, the leaf's permissions (bit 0 R, 1 W, 2 A, 3 X), class, handle
and page size, and the lines it depends on (R163). -/
structure Xlat where
  pa : Nat
  perms : Nat
  cls : Nat
  handle : Option Nat
  size : Nat
  frame : Nat
  lines : List Nat
  deriving DecidableEq, Repr

/-- Why a translation fails. -/
inductive XErr where
  /-- no valid entry: the line of the entry on which the walk ended (R162 step 1) -/
  | absent (line : Nat)
  /-- a malformed entry (R162 step 2) -/
  | malformed
  /-- a later check (R162 steps 3 to 9) -/
  | refused (cause : Nat)
  /-- the walk waits for a line: its home is busy, or the host's or the guest's caches own it (R24, R50, R76, R78, R160) -/
  | busy (line : Nat)
  deriving DecidableEq, Repr

/-- One bit of a number. -/
def bit (x n : Nat) : Bool := decide (x / 2 ^ n % 2 = 1)

/-- Bits hi down to lo of a number. -/
def bits (x hi lo : Nat) : Nat := x / 2 ^ lo % 2 ^ (hi + 1 - lo)

/-- log2 of the page size of a leaf (R160, R161). -/
def leafLog (level : Nat) (cont : Bool) : Nat :=
  match level with
  | 0 => if cont then 16 else 12
  | 1 => 21
  | _ => if cont then 34 else 30

/-- A valid entry that is malformed at its level (R162 step 2). -/
def entryMalformed (level e : Nat) : Bool :=
  let leaf := bit e 1
  let cont := bit e 10
  let kind := bits e 9 8
  bit e 11 || decide (bits e 63 52 ≠ 0) ||
    (if leaf then
      decide (3 ≤ level) || (decide (level = 1) && cont) || decide (2 ≤ kind) ||
        (decide (kind = 0) && decide (bits e 51 12 * 4096 % 2 ^ leafLog level cont ≠ 0))
    else decide (level = 0) || decide (bits e 11 2 ≠ 0))

/-- The first of some lines that a read waits for. -/
def firstBusy (d : Dev) (ls : List Nat) : Option Nat := ls.find? (readWaits d)

/-- The lines of the CONT group of an entry, two of 64 bytes. -/
def contLines (table idx : Nat) : List Nat := [(table + 128 * (idx / 16)) / 64, (table + 128 * (idx / 16)) / 64 + 1]

/-- The lines that the reading of an entry touches: its own, and those of its group where it may be a leaf with CONT (R162). -/
def entryLines (level table idx e : Nat) : List Nat :=
  if bit e 0 && bit e 1 && decide (level ≠ 1) then contLines table idx else []

/-- The members of the CONT group of an entry that are leaves with CONT set (R162). -/
def contMembers (w : Work) (level table idx : Nat) : List Nat :=
  ((List.range 16).map fun k => w.pread (table + 8 * (idx / 16 * 16 + k)) 8).filter fun e =>
    bit e 0 && bit e 1 && bit e 10 && !entryMalformed level e

/-- The entry by which an address translates: its own, or, where the entries of a CONT group disagree, its own or that
of a member with CONT set (R162). -/
def pickEntry (w : Work) (level table idx e : Nat) : Nat :=
  if level = 1 then e
  else
    let ms := (contMembers w level table idx).filter fun x => decide (x ≠ e)
    if ms.isEmpty then e
    else (e :: ms).getD (Config.freeValue w.dev.fresh % (ms.length + 1)) e

/-- The walk from a level down (R160): the leaf, its level and the lines read, or why it ended; an entry in a failed column,
or one that the walker's die does not reach, ends it with that cause (R25, R28, R181), and one whose line a read waits for has
the walk wait (R24, R50, R76, R78, R160). Levels are counted down
structurally. -/
def walkFrom (w : Work) (die va : Nat) : Nat → Nat → List Nat → Except XErr (Nat × Nat × List Nat)
  | 0, table, lines =>
    let a := table + 8 * bits va 20 12
    let e0 := w.pread a 8
    let ls := a / 64 :: lines
    if reachFault w.dev die a ≠ 0 then .error (.refused (reachFault w.dev die a))
    else match firstBusy w.dev (a / 64 :: entryLines 0 table (bits va 20 12) e0) with
    | some l => .error (.busy l)
    | none =>
    if bit e0 0 = false then .error (.absent (a / 64))
    else
      let e := pickEntry w 0 table (bits va 20 12) e0
      if entryMalformed 0 e then .error .malformed else .ok (e, 0, ls)
  | k + 1, table, lines =>
    let idx := if k = 3 then bits va 55 48 else bits va (20 + 9 * (k + 1)) (12 + 9 * (k + 1))
    let a := table + 8 * idx
    let e0 := w.pread a 8
    let ls := a / 64 :: lines
    if reachFault w.dev die a ≠ 0 then .error (.refused (reachFault w.dev die a))
    else match firstBusy w.dev (a / 64 :: entryLines (k + 1) table idx e0) with
    | some l => .error (.busy l)
    | none =>
    if bit e0 0 = false then .error (.absent (a / 64))
    else
      let e := if bit e0 1 then pickEntry w (k + 1) table idx e0 else e0
      if entryMalformed (k + 1) e then .error .malformed
      else if bit e 1 then .ok (e, k + 1, ls)
      else walkFrom w die va k (bits e 51 12 * 4096) ls

/-- Who asks for a translation: the partition, the world it is in, and the die from which the tables are read. -/
structure Asker where
  part : Nat
  sec : Bool
  die : Nat
  deriving DecidableEq, Repr

/-- The checks of R162 steps 5 to 9 on a physical address. -/
def physChecks (d : Dev) (who : Asker) (pa : Nat) : Option Nat :=
  let stacked := decide (regionOf pa = .stacked)
  let col := d.column (columnOf pa)
  if regionOf pa = .unmapped then some 14
  else if regionOf pa = .peer ∧ (d.routes.get? (bits pa 49 38)).isNone then some 14
  else if stacked ∧ col.layers ≤ layerOf pa then some 14
  else if regionOf pa ≠ .peer ∧ granuleOwned d who.part (granuleOf pa) = false then some 11
  else if stacked ∧ privateTag d pa ≠ 0 then some 11
  else if regionOf pa ≠ .peer ∧ inRanges d.secGran (granuleOf pa) ∧ who.sec = false then some 12
  else if stacked ∧ col.rfail then some 44
  else if stacked ∧ col.bus = 3 then some 45
  else none

/-- Resolution of a handle leaf (R167, R168): the physical address and the entry's line. -/
def resolveHandle (w : Work) (who : Asker) (e lg va : Nat) : Except XErr (Nat × Nat) :=
  let p := w.dev.partOf who.part
  let hidx := bits e 31 12
  let hpage := bits e 51 32
  let a := p.htab + 16 * hidx
  let lo := w.pread a 8
  let pages := w.pread (a + 8) 4
  if p.hcount ≤ hidx then .error (.refused 14)
  else if reachFault w.dev who.die a ≠ 0 then .error (.refused (reachFault w.dev who.die a))
  else if readWaits w.dev (a / 64) then .error (.busy (a / 64))
  else if bit lo 6 = false ∨ bits lo 5 0 ≠ lg ∨ pages ≤ hpage then .error (.refused 14)
  else .ok (bits lo 51 12 * 4096 + hpage * 2 ^ lg + va % 2 ^ lg, a / 64)

/-- The permission bit a need asks for (R161). -/
def Need.bit : Need → Nat
  | .read => 0
  | .write => 1
  | .atomic => 2
  | .fetch => 3

/-- The address lies in the system page (R164). -/
def inSystemPage (va : Nat) : Bool := decide (0xFFFFFFFFFF0000 ≤ va) && decide (va < 0x100000000000000)

/-- A translation, its checks in the order of R162. `need` none asks for no permission (R140). Page tables cannot map the
system page: what is not a load of a core is refused there with cause 11 (R164). -/
def translate (w : Work) (who : Asker) (need : List Need) (va : Nat) : Except XErr Xlat :=
  if inSystemPage va then .error (.refused 11)
  else match walkFrom w who.die va 4 (w.dev.partOf who.part).root [] with
  | .error x => .error x
  | .ok (e, level, lines) =>
    let lg := leafLog level (bit e 10)
    let perms := bits e 5 2
    if need.any (fun n => !bit perms n.bit) then .error (.refused 11)
    else if bits e 9 8 = 1 then
      match resolveHandle w who e lg va with
      | .error x => .error x
      | .ok (pa, hl) =>
        match physChecks w.dev who pa with
        | some c => .error (.refused c)
        | none => .ok { pa := pa, perms := perms, cls := bits e 7 6, handle := some (bits e 31 12),
                        size := 2 ^ lg, frame := pa - va % 2 ^ lg, lines := hl :: lines }
    else
      let frame := bits e 51 12 * 4096
      let pa := frame + va % 2 ^ lg
      match physChecks w.dev who pa with
      | some c => .error (.refused c)
      | none => .ok { pa := pa, perms := perms, cls := bits e 7 6, handle := none, size := 2 ^ lg, frame := frame,
                      lines := lines }

/-- The latest write of the page-table lines that a translation came from. -/
def linesTime (d : Dev) (ls : List Nat) : Nat :=
  ls.foldl (fun a l => max a (max (d.coh.lines.get l {}).wts d.coh.floor)) 0

/-- The first address of the page on which a translation of an address ends: 4 KiB where no leaf is found. -/
def pageStart (w : Work) (who : Asker) (va : Nat) : Nat :=
  match walkFrom w who.die va 4 (w.dev.partOf who.part).root [] with
  | .ok (e, level, _) => va / 2 ^ leafLog level (bit e 10) * 2 ^ leafLog level (bit e 10)
  | .error _ => va / 4096 * 4096

/-- Enter a translation in a core's cache of 64 entries; the entry that leaves is the oldest (R163). -/
def Work.tlbFill (w : Work) (core part va : Nat) (x : Xlat) : Work :=
  w.updCore core fun c =>
    let e : TlbEntry := { part := part, base := va - va % x.size, size := x.size, frame := x.frame,
                          perms := x.perms, cls := x.cls, handle := x.handle, lines := x.lines }
    { c with tlb := (e :: c.tlb.filter fun y => decide (y ≠ e)).take 64 }

-- The lease protocol (R188)

/-- The times of a line, raised to the floor when touched (R188, R191). -/
def Coherence.line (h : Coherence) (l : Nat) : LineTime :=
  let x := h.lines.get l {}
  { wts := max x.wts h.floor, rts := max x.rts h.floor }

/-- The way is claimed as staging by a value of cw.l2div (R172). -/
def claims (l2div way : Nat) : Bool :=
  decide (bits l2div 4 0 ≤ way) && decide (way < bits l2div 4 0 + bits l2div 9 5)

/-- A way of a cluster's slices is staging: some claim covers it (R172). -/
def isStaging (d : Dev) (cluster way : Nat) : Bool :=
  (List.range 32).any fun k => claims (d.ctx (16 * cluster + k / 2) (k % 2)).l2div way

/-- The way of a cluster's set that a fill of a class with a quota may take: a cache way that holds nothing while the class
holds fewer than its cap, else that of the least recently used line among those that it may replace; none where nothing is
allocated (R175). -/
def fillWay (d : Dev) (cl l cls quota : Nat) : Option Nat :=
  let ways := (List.range 16).filter fun k => !isStaging d cl k
  let here := d.coh.copies.filter fun x => decide (x.cluster = cl) && decide (x.line ≠ l) &&
    decide (Config.setOf x.line = Config.setOf l)
  let mine := here.filter fun x => decide (x.cls = cls)
  let cap := min quota ways.length
  if cap = 0 then none
  else if cap ≤ mine.length then mine.getLast?.map (·.way)
  else match ways.find? fun k => here.all fun x => decide (x.way ≠ k) with
    | some k => some k
    | none => here.getLast?.map (·.way)

/-- The copies with one in a way of its set, in place of what the way held. -/
def placeCopy (cs : List LineCopy) (x : LineCopy) : List LineCopy :=
  x :: cs.filter fun y => decide (y.cluster ≠ x.cluster) ||
    (decide (y.line ≠ x.line) && !(decide (y.way = x.way) && decide (Config.setOf y.line = Config.setOf x.line)))

-- What an access waits for

/-- A live extent depends on the page-table line (R141). -/
def extentHolds (d : Dev) (l : Nat) : Bool :=
  d.ctxs.any fun p => p.2.ext.any fun e => e.2.lines.contains l

/-- The guest holds translations that came from a line, or their recall is not yet acknowledged (R53, R163). -/
def guestTranslates (d : Dev) (l : Nat) : Bool :=
  (d.sock.tlb.any fun e => e.lines.contains l) || (d.sock.stale.any fun e => e.lines.contains l) ||
    d.sock.ctl.any fun c => c.lines.contains l

/-- A write of a line at its home waits, besides, for every copy that the guest or the host holds, for every guest
translation that came from the line, and for the live extents that do (R50, R76, R141, R163). -/
def writeWaits (d : Dev) (l : Nat) : Bool :=
  homeBusy d l || guestHolds d l || hostHolds d l || guestTranslates d l || extentHolds d l

/-- A chunk of an exchange that is in flight holds the address: cache fills wait (R179). -/
def inExchange (swaps : List Swap) (pa : Nat) : Bool :=
  swaps.any fun x => x.inFlight &&
    ((decide (x.f1 + 4096 * x.done ≤ pa) && decide (pa < x.f1 + 4096 * (x.done + 1))) ||
      (decide (x.f2 + 4096 * x.done ≤ pa) && decide (pa < x.f2 + 4096 * (x.done + 1))))

/-- The action has to wait for a line: what it does then is not kept, and it is taken again (Machine/Step.lean). -/
def Work.waitFor (w : Work) (b : Bool) (l : Nat) : Work :=
  if b then w.updCoh fun c => { c with waits := l :: c.waits } else w

/-- The cause that a failed translation has for the device's own reads (8) or writes (9). -/
def XErr.cause (e : XErr) (base : Nat) : Nat :=
  match e with
  | .absent _ => base
  | .malformed => base
  | .refused c => c
  | .busy _ => base

/-- The action has to wait where a translation does. -/
def Work.awaits (w : Work) (e : XErr) : Work :=
  match e with
  | .busy l => w.waitFor true l
  | .absent _ => w
  | .malformed => w
  | .refused _ => w

/-- The copy of a line that a cluster holds. -/
def findCopy : List LineCopy → Nat → Nat → Option LineCopy
  | [], _, _ => none
  | x :: t, cl, l => if x.cluster = cl ∧ x.line = l then some x else findCopy t cl l

/-- The copies but one. -/
def dropCopy (cs : List LineCopy) (cl l : Nat) : List LineCopy :=
  cs.filter fun x => decide (x.cluster ≠ cl) || decide (x.line ≠ l)

/-- n bytes at offset off of packed data. -/
def packedBytes (data off n : Nat) : Nat := data / 2 ^ (8 * off) % 2 ^ (8 * n)

/-- A read of a line at its home by an agent at logical time t: its lease end rises, and an owner elsewhere is waited for
(R188). -/
def Work.lease (w : Work) (t lease l : Nat) : Work :=
  let h := w.dev.coh.line l
  (w.waitFor (readWaits w.dev l) l).updCoh fun c => { c with
    lines := c.lines.set l { wts := h.wts, rts := max h.rts (t + lease) } }

/-- A read of n bytes that lie in one line, by an agent of a cluster at logical time t: the value, the new time, and
the state with its copy renewed (R188). A fill takes a way of its set within its class's quota, and waits for an exchange
of its chunk; where the class is not allocated the home serves the access (R175, R179). -/
def Work.cohRead (w : Work) (cl t lease cls quota pa n : Nat) : Nat × Nat × Work :=
  let l := pa / 64
  let h := w.dev.coh.line l
  let fresh : Nat × Nat × Work :=
    let data := w.pread (l * 64) 64
    let w1 := w.lease t lease l
    let w2 := match fillWay w.dev cl l cls quota with
      | none => w1.updCoh fun c => { c with copies := dropCopy c.copies cl l }
      | some k => (w1.waitFor (inExchange w.dev.coh.swaps pa) l).updCoh fun c => { c with
          copies := placeCopy c.copies { cluster := cl, line := l, wts := h.wts, rts := max h.rts (t + lease),
                                         data := data, cls := cls, way := k } }
    (packedBytes data (pa % 64) n, max t h.wts, w2)
  if (w.dev.homes.get? (l * 64)).isSome then
    -- an adopted control block: the home's live bytes, and no copy (R106)
    (packedBytes (w.pread (l * 64) 64) (pa % 64) n, max t h.wts, w.lease t lease l)
  else match findCopy w.dev.coh.copies cl l with
  | none => fresh
  | some cp =>
    if cp.rts < t then fresh
    else (packedBytes cp.data (pa % 64) n, max t cp.wts,
      (w.waitFor (w.dev.coh.flipping.contains (l / 64)) l).updCoh fun c => { c with copies := cp :: dropCopy c.copies cl l })

/-- A bank operation has written the line's array, and the home still serves the bytes from before (R204). -/
def Coherence.isBanked (h : Coherence) (l : Nat) : Bool := h.banked.any fun x => decide (x.line = l)

/-- The line's array holds bytes of its own, apart from those that its home serves (R177). -/
def Coherence.apart (h : Coherence) (l : Nat) : Bool := h.dirty.contains l || h.isBanked l

/-- A line of stacked memory that becomes dirty keeps its array bytes apart (R177): those that a bank operation has left there,
or a copy of the home's. -/
def Work.makeDirty (w : Work) (l : Nat) : Work :=
  if regionOf (l * 64) ≠ .stacked ∨ w.dev.coh.dirty.contains l then w
  else
    (if w.dev.coh.isBanked l then w else w.writeN (Key.array (l * 64)) 64 (w.pread (l * 64) 64)).updCoh fun c =>
      { c with dirty := l :: c.dirty, banked := c.banked.filter fun x => decide (x.line ≠ l) }

/-- A dirty line is written back: its array takes the home's bytes (R177, R203). -/
def Work.writeBack (w : Work) (l : Nat) : Work :=
  if l ∈ w.dev.coh.dirty then
    (w.writeN (Key.array (l * 64)) 64 0).updCoh fun c => { c with dirty := c.dirty.filter fun x => decide (x ≠ l) }
  else w

/-- The home of a line takes the bytes that a bank operation has left in its array (R177, R204). -/
def Work.takeArray (w : Work) (l : Nat) : Work :=
  if w.dev.coh.isBanked l then
    ((w.pwrite (l * 64) 64 (w.readN (Key.array (l * 64)) 64)).writeN (Key.array (l * 64)) 64 0).updCoh fun c =>
      { c with banked := c.banked.filter fun x => decide (x.line ≠ l) }
  else w

/-- The line's home and its array hold the same bytes again: dirty data are written back, and what a bank operation has
written is taken. -/
def Work.settleLine (w : Work) (l : Nat) : Work := (w.writeBack l).takeArray l

/-- The lines of n bytes from an address whose arrays hold bytes of their own are settled, and every copy is removed. -/
def Work.sweepLines (w : Work) (pa n : Nat) : Work :=
  let inside (l : Nat) : Bool := decide (pa / 64 ≤ l) && decide (64 * l < pa + n)
  let ls := (w.dev.coh.dirty ++ w.dev.coh.banked.map (·.line)).filter inside
  (ls.foldl Work.settleLine w).updCoh fun c => { c with copies := c.copies.filter fun x => !inside x.line }

/-- A line that a bank operation has written is evicted: from then on, at a time above its leases, its home serves the array's
bytes (R177). A context that follows the sequence of R177 invalidates the line itself, so the model evicts it only once that
context no longer runs the task (DESIGN CHOICE, notes/assumptions/118.md). -/
def Work.evictBanked (w : Work) (l : Nat) : Work :=
  match w.dev.coh.banked.find? fun x => decide (x.line = l) with
  | none => w
  | some _ =>
    let t := (w.dev.coh.line l).rts + 1
    (w.takeArray l).updCoh fun c => { c with
      lines := c.lines.set l { wts := t, rts := t }, copies := c.copies.filter fun x => decide (x.line ≠ l) }

/-- The bank operation that wrote a line belongs to a task that its context no longer runs. -/
def Banked.ended (d : Dev) (x : Banked) : Bool :=
  let c := d.ctx x.core x.bank
  decide (c.ix ≠ x.ix) || decide (c.task.toNat ≠ x.task) || decide (c.st = .idle) || decide (c.st = .reported)

/-- What a write to a line means for a context parked on it (R225, R329). -/
def wakeOn (l : Nat) (c : Ctx) : Ctx :=
  match c.st with
  | .parked (.line x t _) => if x = l then { c with st := .parked (.line x t true) } else c
  | .parked (.walk x _ _) => if x = l then { c with st := .parked (.woken true) } else c
  | .parked (.queue _) => c
  | .parked (.woken _) => c
  | .idle => c
  | .ready => c
  | .entering e =>
    match e.watch with
    | some (x, t, _) => if x = l then { c with st := .entering { e with watch := some (x, t, true) } } else c
    | none => c
  | .reported => c

/-- The ring of the queue whose control block lies at an address holds the line (R103). -/
def ringHolds (w : Work) (cb l : Nat) : Bool :=
  let r := w.pread (cb + 32) 8
  decide (r / 64 ≤ l) && decide (64 * l < r + 2 ^ (w.pread (cb + 5) 1 + w.pread (cb + 6) 1))

/-- The WAIT nodes of a graph whose words lie in a line are evaluated again (R94, R95). -/
def Graph.noted (g : Graph) (l now : Nat) : Graph :=
  { g with checks := g.watch.foldl (fun t x => if x.2 = l then t.set x.1 now else t) g.checks }

/-- A write to a line: every cached translation that came from it is recalled (R163), the guest's through an INVAL (R53),
contexts parked on it wake, the tests of a WAIT's or a dependence's word in it are due (R94, R147), and the consumers of a queue
whose slots it holds get notice (R108). -/
def Work.noteWrite (w : Work) (l : Nat) : Work :=
  w.mapDev fun d => { d with
    ctxs := d.ctxs.map fun p => (p.1, wakeOn l p.2)
    homes := d.homes.map fun p => (p.1, if ringHolds w p.1 l then { p.2 with notice := true } else p.2)
    sock := { d.sock with
      tlb := d.sock.tlb.filter fun e => !e.lines.contains l
      stale := d.sock.stale ++ d.sock.tlb.filter fun e => e.lines.contains l }
    streams := d.streams.map fun p => (p.1, if p.2.watch = some l then { p.2 with recheck := d.now } else p.2)
    launches := d.launches.map fun p => (p.1, if p.2.watch = some l then { p.2 with recheck := d.now } else p.2)
    fe := { d.fe with graphs := d.fe.graphs.map fun g => (g.1, g.2.noted l d.now) }
    cores := d.cores.map fun p => (p.1, { p.2 with tlb := p.2.tlb.filter fun e => !e.lines.contains l }) }

/-- Sectors written whole lose their poison marks and errors. -/
def Work.cleanSectors (w : Work) (pa n : Nat) : Work :=
  let s0 := pa / 32
  let s1 := (pa + n - 1) / 32
  let k := columnOf pa
  w.mapDev fun d => { d with
    coh := { d.coh with poison := (d.coh.poison.del s0).del s1, errors := (d.coh.errors.del s0).del s1 }
    cols := if (d.column k).wiped then
        d.cols.set k { d.column k with whole := s0 :: s1 :: (d.column k).whole.filter fun s => s ≠ s0 && s ≠ s1 }
      else d.cols }

/-- The sectors of n bytes from a column's address pa written whole. -/
def Work.cleanRange (w : Work) (pa n : Nat) : Work :=
  let inside (s : Nat) : Bool := decide (pa / 32 ≤ s) && decide (s < (pa + n) / 32)
  let k := columnOf pa
  let all : List Nat := (List.range (n / 32)).map fun i => pa / 32 + i
  w.mapDev fun d => { d with
    coh := { d.coh with
      poison := d.coh.poison.filter fun p => !inside p.1
      errors := d.coh.errors.filter fun p => !inside p.1 }
    cols := if (d.column k).wiped then
        d.cols.set k { d.column k with whole := all ++ ((d.column k).whole.filter fun s => !inside s) }
      else d.cols }

/-- A write of n bytes that lie in one line, by an agent at logical time t: its time and the state (R188). -/
def Work.cohWrite (w : Work) (t pa n v : Nat) : Nat × Work :=
  let l := pa / 64
  let h := w.dev.coh.line l
  let t' := max t (h.rts + 1)
  let w1 := ((w.waitFor (writeWaits w.dev l) l).makeDirty l).pwrite pa n v
  let w2 := w1.updCoh fun c => { c with lines := c.lines.set l { wts := t', rts := t' } }
  (t', ((if n = 32 ∨ n = 64 then w2.cleanSectors pa n else w2).noteWrite l))

/-- The cause of the uncorrectable error in a sector of memory or of a staging way, by the number of its first byte's key in
units of 32, or 0 (R378, Table 9.5). -/
def sectorError (d : Dev) (s : Nat) : Nat := d.coh.errors.get s 0

/-- The cause with which a read of a sector of memory lands marked, or 0: that of its poison mark, that of an uncorrectable
error in it, or 43 in a column whose lines were all marked (R181, R212). -/
def sectorPoison (d : Dev) (s : Nat) : Nat :=
  let a := d.coh.poison.get s 0
  let c := d.column (columnOf (32 * s))
  if a ≠ 0 then a
  else if sectorError d s ≠ 0 then sectorError d s
  else if regionOf (32 * s) = .stacked ∧ c.wiped ∧ s ∉ c.whole then 43
  else 0

/-- The cause of the poison mark on the sectors of n bytes of memory, or 0. -/
def Work.poisonAt (w : Work) (pa n : Nat) : Nat :=
  let a := sectorPoison w.dev (pa / 32)
  if a ≠ 0 then a else sectorPoison w.dev ((pa + n - 1) / 32)

/-- A 64-byte line's bytes as the DRAM array holds them (R177). -/
def Work.arrayRead (w : Work) (pa : Nat) : Nat → Nat
  | 0 => 0
  | n + 1 =>
    (if w.dev.coh.apart (pa / 64) then (w.byte (Key.array pa)).toNat else (w.seen (w.pkey pa)).toNat) +
      256 * w.arrayRead (pa + 1) n

/-- Bytes written to the DRAM array alone (R177). -/
def Work.arrayPut (w : Work) (pa : Nat) : Nat → Nat → Work
  | 0, _ => w
  | n + 1, v =>
    (w.put (if w.dev.coh.apart (pa / 64) then Key.array pa else w.pkey pa) (BitVec.ofNat 8 v)).arrayPut
      (pa + 1) n (v / 256)

/-- The line of a shared granule keeps serving the bytes from before a bank operation of a context, apart from its array, until
it is invalidated or evicted (R204); a private granule has no home to serve it (R166). -/
def Work.makeBanked (w : Work) (core bank l : Nat) : Work :=
  if w.dev.coh.apart l ∨ privateTag w.dev (l * 64) ≠ 0 then w
  else
    let c := w.ctx core bank
    (w.writeN (Key.array (l * 64)) 64 (w.pread (l * 64) 64)).updCoh fun h => { h with
      banked := { line := l, core := core, bank := bank, ix := c.ix, task := c.task.toNat } :: h.banked }

/-- A write of n bytes of one line by a bank operation of a context: to the array alone, with no copy touched (R177), but
sectors written whole lose their marks (R181), and translations that came from the line are recalled (R163). -/
def Work.arrayWrite (w : Work) (core bank pa n v : Nat) : Work :=
  let l := pa / 64
  let w1 := ((w.waitFor (homeBusy w.dev l || guestTranslates w.dev l || extentHolds w.dev l) l).makeBanked core bank l).arrayPut
    pa n v
  (if n = 32 ∨ n = 64 then w1.cleanSectors pa n else w1).noteWrite l

-- Local store (R154, R155)

/-- A byte of a core's local store as the slots of a bundle read it: as it stood before the bundle (R155). -/
def Work.lsByte (w : Work) (core a : Nat) : Nat :=
  match logFind w.dev.issue.lsOld (Key.ls core a) with
  | some b => b.toNat
  | none => (w.byte (Key.ls core a)).toNat

/-- n bytes of local store as the slots of a bundle read them. -/
def Work.lsRead (w : Work) (core a : Nat) : Nat → Nat
  | 0 => 0
  | n + 1 => w.lsByte core a + 256 * w.lsRead core (a + 1) n

/-- The first value of a byte that a list of replaced bytes keeps is what stood before its first store. -/
def keepOld (l : List Host.Cell) (k : Nat) (old : Byte) : List Host.Cell := if l.any fun c => decide (c.1 = k) then l else l ++ [(k, old)]

/-- The lists of replaced bytes of a core's accepted commands and passes changed (R156). -/
def Core.mapSnaps (c : Core) (f : List Host.Cell → List Host.Cell) : Core :=
  let item (x : EngineItem) : EngineItem := match x with
    | .cmd y => .cmd { y with snap := f y.snap }
    | .fence o b => .fence o b
  { c with
    ce := c.ce.map fun p => (p.1, p.2.map item)
    strm := c.strm.map fun x => { x with snap := f x.snap }
    passes := c.passes.map fun x => { x with snap := f x.snap } }

/-- A byte that something else than a store has written is read as it is (R156): no older value is kept. -/
def Work.lsFixed (w : Work) (core a n : Nat) : Work :=
  let inside (k : Nat) : Bool := decide (Key.ls core a ≤ k) && decide (k < Key.ls core (a + n))
  w.updCore core fun c => c.mapSnaps fun l => l.filter fun x => !inside x.1

/-- A byte stored by a slot; the byte it replaces stays readable by the bundle's other slots (R155), and by the engine commands that
are accepted already (R156). -/
def Work.lsSet (w : Work) (core a v : Nat) : Work :=
  let k := Key.ls core a
  let old := w.byte k
  ((w.setByte k (BitVec.ofNat 8 v)).mapDev fun d => { d with issue := { d.issue with
    lsOld := d.issue.lsOld ++ [(k, old)] } }).updCore core fun c => c.mapSnaps fun l => keepOld l k old

/-- n bytes stored by a slot. -/
def Work.lsWrite (w : Work) (core a : Nat) : Nat → Nat → Work
  | 0, _ => w
  | n + 1, v => (w.lsSet core a v).lsWrite core (a + 1) n (v / 256)

/-- A context's local-store address after the relocation of R148. -/
def Ctx.relocate (c : Ctx) (a : Nat) : Nat := ((a : Int) + c.reloc).toNat

/-- The n bytes from a lie in the declared range (R152). -/
def Ctx.declares (c : Ctx) (a n : Nat) : Bool := decide (c.lsb ≤ a) && decide (a + n ≤ c.lsb + c.lssz)

/-- The unit that a declared accumulator unit names after the relocation of R148, if it is declared. -/
def Ctx.unit (c : Ctx) (u : Nat) : Option Nat :=
  if bit c.acc u = false then none
  else if c.alt then
    let i := ((List.range u).filter fun k => bit c.acc k).length
    ((List.range 8).filter fun k => bit c.altacc k)[i]?
  else some u

end Sys2Proof.Machine
end

