-- ==== Sys2Proof/Machine/Home.lean ====
section
/-! DEFINITION. Queue control blocks and what a home controller does to them (file 05). -/

namespace Sys2Proof.Machine

/-- One bit through the CRC-16 register (R47): polynomial 0x1021, most significant bit first. -/
def crc16Bit (crc : Nat) : Nat :=
  if 0x8000 ≤ crc % 0x10000 then (crc * 2 % 0x10000) ^^^ 0x1021 else crc * 2 % 0x10000

/-- One byte through the CRC-16 register. -/
def crc16Byte (crc b : Nat) : Nat :=
  crc16Bit (crc16Bit (crc16Bit (crc16Bit (crc16Bit (crc16Bit (crc16Bit (crc16Bit (crc ^^^ (b * 256)))))))))

/-- CRC-16 of the n low bytes of packed data, initial value 0xFFFF (R47). -/
def crc16From (crc : Nat) (x : Nat) : Nat → Nat
  | 0 => crc
  | n + 1 => crc16From (crc16Byte crc (x % 256)) (x / 256) n

/-- CRC-16 of the n low bytes of packed data. -/
def crc16 (x n : Nat) : Nat := crc16From 0xFFFF x n

/-- A control block as its 64 bytes packed (Table 5.1). -/
abbrev Block := Nat

/-- n bytes of a block from byte off. -/
def Block.field (b : Block) (off n : Nat) : Nat := packedBytes b off n

/-- A block with n bytes from byte off replaced. -/
def Block.put (b : Block) (off n v : Nat) : Block :=
  b % 2 ^ (8 * off) + 2 ^ (8 * off) * (v % 2 ^ (8 * n)) + 2 ^ (8 * (off + n)) * (b / 2 ^ (8 * (off + n)))

def Block.elog (b : Block) : Nat := b.field 5 1
def Block.cap (b : Block) : Nat := 2 ^ b.field 6 1
def Block.flag (b : Block) (n : Nat) : Bool := bit (b.field 7 1) n
def Block.blk (b : Block) : Bool := b.flag 0
def Block.md (b : Block) : Bool := b.flag 1
def Block.quar (b : Block) : Bool := b.flag 2
def Block.pois (b : Block) : Bool := b.flag 3
def Block.sec (b : Block) : Bool := b.flag 4
def Block.gv (b : Block) : Bool := b.flag 5
def Block.head (b : Block) : Nat := b.field 8 8
def Block.tail (b : Block) : Nat := b.field 16 8
def Block.free (b : Block) : Nat := b.field 24 8
def Block.ring (b : Block) : Nat := b.field 32 8
def Block.owner (b : Block) : Nat := b.field 48 1 % 32
def Block.home (b : Block) : Nat := b.field 49 2 % 0x800
def Block.role (b : Block) : Nat := b.field 51 1 % 8
def Block.wenq (b : Block) : Nat := b.field 44 2
def Block.wdeq (b : Block) : Nat := b.field 46 2

/-- TAIL - HEAD modulo 2^64: the slots in use (R103). -/
def Block.used (b : Block) : Nat := (b.tail + 2 ^ 64 - b.head) % 2 ^ 64

/-- The smallest page size that holds a ring (R104). -/
def ringPage (n : Nat) : Nat :=
  if n ≤ 2 ^ 12 then 2 ^ 12 else if n ≤ 2 ^ 16 then 2 ^ 16 else if n ≤ 2 ^ 21 then 2 ^ 21
  else if n ≤ 2 ^ 30 then 2 ^ 30 else 2 ^ 34

/-- A control block is whole at the slice that checks it (R104). -/
def Block.whole (b : Block) (d : Dev) (cb slice : Nat) : Bool :=
  let e := b.elog
  let c := b.field 6 1
  let z := ringPage (2 ^ (c + e))
  let r := b.ring
  let g0 := granuleOf r
  let g1 := granuleOf (r + 2 ^ (c + e) - 1)
  decide (b.field 0 4 = 0x51554542) && decide (b.field 4 1 = 1) && decide (3 ≤ e) && decide (e ≤ 12) &&
    decide (1 ≤ c) && decide (c ≤ 20) && decide (b.role ≠ 7) && (decide (b.role = 0) || decide (e = 6)) &&
    decide (b.owner ≤ 16) && decide (bits (b.field 7 1) 7 6 = 0) &&
    decide (bits (b.field 40 8) 15 13 = 0) && decide (bits (b.field 40 8) 31 29 = 0) &&
    decide (bits (b.field 48 8) 7 5 = 0) && decide (bits (b.field 48 8) 23 19 = 0) &&
    decide (bits (b.field 48 8) 63 27 = 0) &&
    decide (crc16 b 62 = b.field 62 2) && decide (b.used ≤ b.cap) && decide (b.free = b.cap - b.used) &&
    (decide (b.wenq = 0) || decide (b.used = b.cap)) && (decide (b.wdeq = 0) || decide (b.used = 0)) &&
    decide (r % 2 ^ e = 0) && decide (r / z = (r + 2 ^ (c + e) - 1) / z) && decide (cb / z ≠ r / z) &&
    ((List.range (g1 - g0 + 1)).all fun k => granuleOwned d b.owner (g0 + k)) &&
    decide (b.home = slice) && !d.slicesOff.contains slice

/-- A block with its CRC rewritten (R113). -/
def Block.seal (b : Block) : Block := b.put 62 2 (crc16 b 62)

/-- The block at a physical address, as it stands live (R106). -/
def Work.block (w : Work) (cb : Nat) : Block := w.pread cb 64

/-- The home's record of an adopted block. -/
def Dev.homeOf (d : Dev) (cb : Nat) : Home := d.homes.get cb {}

/-- The block written by its home, at the time of the queue's last operation; the consumer's engine gets notice that the
queue's lines have changed (R108). The write waits as any write of the line does. -/
def Work.setBlock (w : Work) (cb : Nat) (b : Block) : Work :=
  let l := cb / 64
  let x := w.dev.coh.line l
  let t := (w.dev.homeOf cb).lts
  let w1 := ((w.waitFor (writeWaits w.dev l) l).pwrite cb 64 b).updCoh fun c => { c with
    lines := c.lines.set l { wts := max x.wts t, rts := max x.rts t } }
  (w1.mapDev fun d => { d with
    homes := if (d.homes.get? cb).isSome then d.homes.set cb { d.homeOf cb with notice := true } else d.homes }).noteWrite l

/-- Change the home's record; one that is made for it stands at the slice that HOME names. -/
def Work.updHome (w : Work) (cb : Nat) (f : Home → Home) : Work :=
  w.mapDev fun d => { d with homes := d.homes.set cb (f (d.homes.get cb { slice := (w.block cb).home })) }

/-- The pinned blocks that a slice holds. -/
def pinnedAt (w : Work) (slice : Nat) : List (Nat × Home) :=
  w.dev.homes.filter fun p => p.2.pinned && decide (p.2.slice = slice)

/-- The slice that checks a block which a requester asks a slice for: the one that holds it, where it is adopted and pinned,
whatever HOME a store has since put into it (R104, R106). -/
def Dev.sliceOf (d : Dev) (cb asked : Nat) : Nat :=
  match d.homes.get? cb with
  | some h => if h.pinned then h.slice else asked
  | none => asked

/-- The least recently used of some homes. -/
def oldestHome : List (Nat × Home) → Option (Nat × Home)
  | [] => none
  | p :: t =>
    match oldestHome t with
    | none => some p
    | some q => if p.2.used ≤ q.2.used then some p else some q

/-- Adoption of a block at its home: a 65th at a slice unpins the one unused for longest (R106, R171). -/
def Work.adopt (w : Work) (cb handle part asked : Nat) : Work :=
  let n := w.dev.homeOps
  let b := w.block cb
  let slice := w.dev.sliceOf cb asked
  let role := if b.whole w.dev cb slice then b.role else (w.dev.homeOf cb).role
  let w1 := (w.updHome cb fun h => { h with handle := if h.handle = 0 then handle else h.handle, part := part,
                                            pinned := true, used := n, role := role, slice := slice }).mapDev fun d => { d with homeOps := n + 1 }
  let ps := pinnedAt w1 slice
  if 64 < ps.length then
    match oldestHome (ps.filter fun p => decide (p.1 ≠ cb)) with
    | none => w1
    | some p => w1.updHome p.1 fun h => { h with pinned := false }
  else w1

/-- Who asks a home for an operation (R105, R125). -/
inductive Requester where
  | ctx (core bank op : Nat)
  | host (part : Nat)
  | peer
  | guest (part : Nat)
  /-- front end, scheduler, copy service -/
  | device
  deriving DecidableEq, Repr

/-- What is asked of a home (R113). -/
inductive HomeOp where
  /-- an enqueue transaction with its element; `wait` for the forms that may wait -/
  | enqueue (elem : Nat) (wait : Bool)
  | claim
  | dequeue (wait : Bool)
  | peek
  | release (n : Nat)
  deriving DecidableEq, Repr

/-- What a home answers (R111, R113, R118). -/
inductive HomeAns where
  /-- performed: TAIL or HEAD before, the element of a dequeue or peek, and the poison cause of its slot, if any -/
  | done (pos elem mark : Nat)
  | full
  | empty
  | waiting
  /-- held at the home: a fifth waiter of its context (R103) -/
  | held
  | refused (cause : Nat)
  deriving DecidableEq, Repr

/-- The role lets the requester produce (Table 5.2). -/
def mayProduce (role : Nat) (r : Requester) : Bool :=
  match r with
  | .ctx _ _ _ => decide (role = 0) || decide (role = 1) || decide (role = 3) || decide (role = 4)
  | .host _ => decide (role = 0) || decide (role = 1)
  | .peer => decide (role = 0) || decide (role = 1) || decide (role = 3)
  | .guest _ => decide (role = 6)
  | .device => decide (role ≠ 1) && decide (role ≠ 6)

/-- The role lets the requester consume (Table 5.2). -/
def mayConsume (role : Nat) (r : Requester) : Bool :=
  match r with
  | .ctx _ _ _ => decide (role = 0) || decide (role = 2)
  | .host _ => decide (role = 2)
  | .peer => false
  | .guest _ => decide (role = 4) || decide (role = 5)
  | .device => decide (role = 1) || decide (role = 3) || decide (role = 6)

/-- The partition a requester acts for. -/
def Requester.part (r : Requester) (d : Dev) (b : Block) : Nat :=
  match r with
  | .ctx c k _ => (d.ctx c k).part
  | .host p => p
  | .peer => b.owner
  | .guest p => p
  | .device => b.owner

/-- The requester is in the secure world. -/
def Requester.sec (r : Requester) (d : Dev) : Bool :=
  match r with
  | .ctx c k _ => (d.ctx c k).sec
  | .host p => (d.partOf p).world
  | .peer => false
  | .guest _ => d.sock.sec
  | .device => true

/-- The requester is a core (Table 5.5). -/
def Requester.isCore : Requester → Bool
  | .ctx _ _ _ => true
  | .host _ => false
  | .peer => false
  | .guest _ => false
  | .device => false

/-- The requester is the guest. -/
def Requester.isGuest : Requester → Bool
  | .ctx _ _ _ => false
  | .host _ => false
  | .peer => false
  | .guest _ => true
  | .device => false

/-- The checks the home makes before every operation (R125, Table 5.5), in their order: wholeness comes first (R107). -/
def homeCheck (w : Work) (cb slice : Nat) (r : Requester) : Option Nat :=
  let b := w.block cb
  if b.whole w.dev cb (w.dev.sliceOf cb slice) = false then some 18
  else if (w.dev.homeOf cb).pois || b.pois then some 20
  else if b.quar ∧ r.isCore then some 23
  else if b.sec ∧ r.sec w.dev = false then some 12
  else if b.gv = false ∧ r.isGuest then some 12
  else if b.owner ≠ r.part w.dev b then some 11
  else none

/-- The role of a block forbids the requester an operation (R105). -/
def roleForbids (role : Nat) (r : Requester) (op : HomeOp) : Bool :=
  match op with
  | .enqueue _ _ => !mayProduce role r
  | .claim => !mayProduce role r
  | .dequeue _ => !mayConsume role r
  | .peek => !mayConsume role r
  | .release _ => !mayConsume role r

/-- A QNOTICE record of a queue's new state, which the stream of a command queue waits with (R101, R126). -/
def Work.qnotice (w : Work) (part handle seq cause reason st : Nat) (stream : Option Nat) : Work :=
  let body := handle % 2 ^ 64 + 2 ^ 64 * (seq % 2 ^ 32) + 2 ^ 96 * (cause % 2 ^ 16) + 2 ^ 112 * (reason % 256) +
    2 ^ 120 * (st % 256)
  w.mapDev fun d => { d with
    events := d.events ++ [{ part := part, kind := 0x91, body := body, stream := stream }]
    quarantined := if st = 0 then d.quarantined.filter fun q => decide (q ≠ (part, handle))
                   else (part, handle) :: d.quarantined.filter fun q => decide (q ≠ (part, handle)) }

/-- Table 5.1's waiter fields from the home's list: oldest and newest waiter ids. -/
def waiterFields (ws : List Waiter) : Nat :=
  let idOf (x : Waiter) : Nat := x.core + 512 * x.bank + 1024 * x.entry
  match ws with
  | [] => 0
  | x :: t => (4096 + idOf x) + 2 ^ 16 * (4096 + idOf (t.getLastD x)) +
      2 ^ 32 * (ws.filter fun y => y.enq).length + 2 ^ 48 * (ws.filter fun y => !y.enq).length

/-- The block with the waiter fields of its home's list. -/
def Block.withWaiters (b : Block) (ws : List Waiter) : Block := b.put 40 8 (waiterFields ws)

/-- The lines that the n bytes of a slot touch. -/
def slotLines (pa n : Nat) : List Nat :=
  (List.range ((pa + n - 1) / 64 + 1 - pa / 64)).map fun k => pa / 64 + k

/-- Write an element into a slot of the ring, at the home's time. -/
def writeSlot (w : Work) (t pa v : Nat) : Nat → Nat → Work
  | 0, _ => w
  | k + 1, n =>
    let m := min n (64 - pa % 64)
    if n = 0 then w else writeSlot (w.cohWrite t pa m v).2 t (pa + m) (v / 2 ^ (8 * m)) k (n - m)

/-- Read the element of a slot of the ring at the home's time, so that no later write of the slot comes before (R188). -/
def readSlot (w : Work) (t pa n : Nat) : Nat × Work :=
  (w.pread pa n, (slotLines pa n).foldl (fun a l => a.lease t 0 l) w)


/-- A register's or latch's poison mark after a landing (R212). -/
def Ctx.setMark (c : Ctx) (k cause : Nat) : Ctx :=
  { c with mark := if cause = 0 then c.mark.del k else c.mark.set k cause }

/-- A scalar register write-back; a write to s0 is discarded (R210). -/
def Ctx.putS (c : Ctx) (dst : Option Nat) (v : Word) (mark : Nat) : Ctx :=
  match dst with
  | none => c
  | some n => if n = 0 then c else { c with s := c.s.set n v }.setMark n mark

/-- What an operation performed while its context is parked does to the parked bank at the wake (R119): the landing and the
local-store element. A fault is delivered when the context next runs (R121). -/
def Work.landParked (w : Work) (core bank id : Nat) (a : Arrived) : Work :=
  match (w.ctx core bank).outs.find? fun o => o.id = id with
  | none => w
  | some o =>
    if a.fault.isSome then w
    else
      (if a.lsLen = 0 then w else (w.writeN (Key.ls core a.lsAddr) a.lsLen a.lsData).lsFixed core a.lsAddr a.lsLen).updCtx core bank fun c =>
        (({ c with lat := c.lat.set o.latch a.val, lts := max c.lts a.lts,
                   outs := c.outs.filter fun x => decide (x.id ≠ id) }.setMark (64 + o.latch) a.mark).putS o.dst a.val a.mark)

/-- What a `cp.q` makes of its home's answer: 0 where it was performed, else the cause it raises (R384). -/
def HomeAns.packetCause (a : HomeAns) : Nat :=
  match a with
  | .done _ _ _ => 0
  | .full => 38
  | .empty => 38
  | .waiting => 38
  | .held => 38
  | .refused c => c

/-- The result of a waiter's or requester's operation enters the issuing context: the operation leaves its list, the
landing-buffer entry receives the data, and a context parked on it wakes when nothing it waits for is left
(R113, R119, R121). -/
def Work.answerOp (w : Work) (core bank op : Nat) (ans : HomeAns) (free : Option Nat) (time : Nat) : Work :=
  let c := w.ctx core bank
  match c.qops.find? fun q => q.id = op with
  | none => w
  | some q =>
    let c1 : Ctx := { c with qops := c.qops.filter fun x => decide (x.id ≠ op) }
    let c2 : Ctx := { c1 with qb := match free with
      | none => c1.qb
      | some f =>
        if (c1.qb.get q.bnd {}).handle = q.handle then c1.qb.set q.bnd { c1.qb.get q.bnd {} with free := f } else c1.qb }
    let enqTime : Nat := match ans with
      | .done _ _ _ => if (0x41 ≤ q.form ∧ q.form ≤ 0x43) ∨ q.form = 8 then time else 0
      | .full => 0
      | .empty => 0
      | .waiting => 0
      | .held => 0
      | .refused _ => 0
    let status (st pos : Nat) : Word := BitVec.ofNat 64 (st + 256 * (pos % 2 ^ 56))
    let isDeq := decide (q.form = 0x44) || decide (q.form = 0x46) || decide (q.form = 0x47)
    let arrived : Option Arrived := match ans with
      | .done pos elem mark =>
        if q.form = 0x45 then some { val := BitVec.ofNat 64 elem, mark := mark, lts := time,
                                     fault := if mark = 0 then none else some (mark, q.handle) }
        else some { val := status 0 pos, mark := mark, lts := if isDeq then time else 0,
                    fault := if mark = 0 then none else some (mark, q.handle),
                    lsAddr := c.relocate q.arg.toNat, lsLen := if isDeq then 2 ^ q.elog else 0, lsData := elem }
      | .full => some { val := status 1 0 }
      | .empty => some { val := status 2 0 }
      | .waiting => none
      | .held => none
      | .refused cause => some { val := 0, mark := cause, fault := some (cause, q.handle) }
    let c3 : Ctx := if q.form = 8 then { c2 with packets := c2.packets.map fun p =>
        if p.op = op then { p with ans := some ans.packetCause } else p } else match q.land with
      | none => match ans with
        | .refused cause => { c2 with qlate := c2.qlate ++ [(cause, q.handle, q.pc)] }
        | .done _ _ _ => c2
        | .full => c2
        | .empty => c2
        | .waiting => c2
        | .held => c2
      | some id => { c2 with outs := c2.outs.map fun o => if o.id = id then { o with res := arrived } else o }
    let c4 : Ctx := match c3.st with
      | .parked (.queue ops) =>
        let left := ops.filter fun x => decide (x ≠ op)
        { c3 with st := if left.isEmpty then .parked (.woken false) else .parked (.queue left) }
      | .idle => c3
      | .ready => c3
      | .parked (.woken _) => c3
      | .parked (.line _ _ _) => c3
      | .parked (.walk _ _ _) => c3
      | .entering _ => c3
      | .reported => c3
    let w1 := w.updCtx core bank fun _ => { c4 with enqLts := max c4.enqLts enqTime }
    let parked : Bool := match c3.st with
      | .parked (.queue _) => true
      | .idle => false
      | .ready => false
      | .parked (.woken _) => false
      | .parked (.line _ _ _) => false
      | .parked (.walk _ _ _) => false
      | .entering _ => false
      | .reported => false
    match parked, q.land, arrived with
    | true, some id, some a => w1.landParked core bank id a
    | _, _, _ => w1

/-- The result of a waiter's operation goes to its context; a host's RELEASE was a posted write, and has none (R113). -/
def Work.answerWaiter (w : Work) (x : Waiter) (ans : HomeAns) (free : Option Nat) (time : Nat) : Work :=
  if x.rel.isSome then w else w.answerOp x.core x.bank x.op ans free time

/-- The home finds the block whole and has found no corruption of it, so that it may rewrite it (R113, R126). -/
def wholeHere (w : Work) (cb : Nat) : Bool :=
  !(w.dev.homeOf cb).pois && (w.block cb).whole w.dev cb (w.dev.sliceOf cb (w.block cb).home)

/-- The waiter list of a queue replaced, with the block's waiter fields where the home may rewrite it. -/
def Work.setWaiters (w : Work) (cb : Nat) (ws : List Waiter) : Work :=
  let ok := wholeHere w cb && !(w.block cb).pois
  let w1 := w.updHome cb fun h => { h with waiters := ws }
  if ok then w1.setBlock cb ((w1.block cb).withWaiters ws).seal else w1

/-- End every waiting operation of a queue with a cause (R120, R125). -/
def Work.endWaiters (w : Work) (cb cause : Nat) : Work :=
  let ws := (w.dev.homeOf cb).waiters
  if ws.isEmpty then w
  else ws.foldl (fun a x => a.answerWaiter x (.refused cause) none 0) (w.setWaiters cb [])

/-- The queue is a command queue, by its stream or by its role when its block was last whole (R84). -/
def Dev.hasStream (d : Dev) (cb : Nat) : Bool := (d.streams.get? cb).isSome || decide ((d.homeOf cb).role = 1)

/-- The stream that a command queue's records wait with (R101). -/
def streamOf (w : Work) (cb : Nat) : Option Nat := if w.dev.hasStream cb then some cb else none

/-- The stream of a command queue whose block has gone bad is Halted (R98). -/
def Dev.haltStream (d : Dev) (q reason : Nat) : Tab Stream :=
  if d.hasStream q then d.streams.set q { d.streams.get q {} with
    st := 2, reason := reason, pkt := none, waiting := false, limit := none, watch := none }
  else d.streams

/-- The flags of a block with one of them set: bit 2 QUAR, bit 3 POIS. -/
def Block.withFlag (b : Block) (n : Nat) : Block :=
  if b.flag n then b else b.put 7 1 (b.field 7 1 + 2 ^ n)

/-- Setting QUAR: on a whole block the CRC is rewritten; of a poisoned one, or one that is corrupt and not yet found so, only
the bit is written (R126). -/
def Work.quarantineQueue (w : Work) (cb : Nat) : Work :=
  let b := w.block cb
  let b1 := b.withFlag 2
  (w.setBlock cb (if wholeHere w cb && !b.pois then b1.seal else b1)).endWaiters cb 23

/-- The block of a queue that becomes poisoned: POIS, and QUAR beside it in a command queue, which is Halted (Table 4.6). -/
def poisonFlags (w : Work) (cb : Nat) : Block :=
  let b := (w.block cb).withFlag 3
  if w.dev.hasStream cb then b.withFlag 2 else b

/-- A queue becomes poisoned with a new block: the home's record, the stream of a command queue, which enters Halted, the notice, and its waiters, which end with cause 20 (R98, R125, R126). The notice goes to
the partition of the home's record; a queue that was never adopted has a record with partition 0, to whose event queue it then
goes (DESIGN CHOICE, notes/assumptions/96.md). -/
def Work.poisonAs (w : Work) (cb : Nat) (b : Block) : Work :=
  let h := w.dev.homeOf cb
  if h.pois then w
  else
    let w1 := (w.setBlock cb b).updHome cb fun x => { x with pois := true }
    ((w1.mapDev fun d => { d with streams := d.haltStream cb 8 }).qnotice h.part h.handle 0 18 8 2
      (streamOf w cb)).endWaiters cb 20

/-- A block found corrupt: POIS is set in the home's record and in the block, nothing else is written, and the front end
is notified, once (R98, R126). -/
def Work.poisonQueue (w : Work) (cb : Nat) : Work := w.poisonAs cb (poisonFlags w cb)

/-- A queue whose block is whole is poisoned: its check is kept right (R45, R113). -/
def Work.poisonWhole (w : Work) (cb : Nat) : Work :=
  if wholeHere w cb then w.poisonAs cb (poisonFlags w cb).seal else w.poisonQueue cb

/-- The poison cause of the sectors of a slot, or 0 (R113). -/
def slotMark (w : Work) (pa : Nat) : Nat → Nat
  | 0 => 0
  | n + 1 => if sectorPoison w.dev ((pa + n * 32) / 32) ≠ 0 then sectorPoison w.dev ((pa + n * 32) / 32)
             else slotMark w pa n

/-- The slot that an operation reads or writes, as its address; none for one that moves no element. -/
def HomeOp.slot (op : HomeOp) (b : Block) : Option Nat :=
  match op with
  | .enqueue _ _ => some (b.ring + b.tail % b.cap * 2 ^ b.elog)
  | .claim => none
  | .dequeue _ => some (b.ring + b.head % b.cap * 2 ^ b.elog)
  | .peek => some (b.ring + b.head % b.cap * 2 ^ b.elog)
  | .release _ => none

/-- The fault that the home meets at the slot of an operation, or 0 (R25, R181). -/
def slotFault (w : Work) (slice : Nat) (b : Block) (op : HomeOp) : Nat :=
  match op.slot b with
  | none => 0
  | some pa => (slotLines pa (2 ^ b.elog)).foldl (fun f l => if f ≠ 0 then f else reachFault w.dev (slice / 512) (64 * l)) 0

/-- The effect of an operation that can be performed, at a logical time: the answer and the new block, with the slot
written. -/
def performNow (w : Work) (t : Nat) (b : Block) (op : HomeOp) : HomeAns × Block × Work :=
  match op with
  | .enqueue elem _ =>
    let k := b.tail
    let w1 := writeSlot w t (b.ring + k % b.cap * 2 ^ b.elog) elem 65 (2 ^ b.elog)
    let b1 := (((b.put 16 8 (k + 1)).put 24 8 (b.free - 1)).put 56 4 (b.field 56 4 + 1))
    (.done k 0 0, b1, w1)
  | .claim =>
    let k := b.tail
    (.done k 0 0, ((b.put 16 8 (k + 1)).put 24 8 (b.free - 1)).put 56 4 (b.field 56 4 + 1), w)
  | .dequeue _ =>
    let h := b.head
    let pa := b.ring + h % b.cap * 2 ^ b.elog
    let r := readSlot w t pa (2 ^ b.elog)
    (.done h r.1 (slotMark w pa ((2 ^ b.elog + 31) / 32)), (b.put 8 8 (h + 1)).put 24 8 (b.free + 1), r.2)
  | .peek =>
    let h := b.head
    let pa := b.ring + h % b.cap * 2 ^ b.elog
    let r := readSlot w t pa (2 ^ b.elog)
    (.done h r.1 (slotMark w pa ((2 ^ b.elog + 31) / 32)), b, r.2)
  | .release n =>
    let k := min n b.used
    (.done b.head 0 0, (b.put 8 8 (b.head + k)).put 24 8 (b.free + k), w)

/-- The time at which a home performs an operation asked for at a time: above that of the queue's last one, and for an
enqueue above every lease on the slot, which is written in the same act (R108, R116). -/
def opTime (w : Work) (cb time : Nat) (b : Block) (op : HomeOp) : Nat :=
  let t := max time ((w.dev.homeOf cb).lts + 1)
  match op with
  | .enqueue _ _ =>
    match op.slot b with
    | none => t
    | some pa => (slotLines pa (2 ^ b.elog)).foldl (fun m l => max m ((w.dev.coh.line l).rts + 1)) t
  | .claim => t
  | .dequeue _ => t
  | .peek => t
  | .release _ => t

/-- The operation of a waiter. -/
def waiterOp (w : Work) (x : Waiter) : HomeOp :=
  match x.rel with
  | some n => .release n
  | none => match (w.ctx x.core x.bank).qops.find? fun q => q.id = x.op with
    | some q => if x.enq then .enqueue q.elem true else .dequeue true
    | none => .dequeue true

/-- RETIRE_WAITERS (R113): the oldest waiter is performed while it can proceed, each at a time above the last and not below
its context's (R116); one whose slot lies in a failed column or is not reached ends with that cause (R25, R28). Fuel is the
number of waiters. -/
def retireWaiters (w : Work) (cb slice : Nat) : Nat → Block → Block × Work
  | 0, b => (b, w)
  | k + 1, b =>
    match (w.dev.homeOf cb).waiters with
    | [] => (b, w)
    | x :: t =>
      if (x.enq ∧ b.used = b.cap) ∨ (x.enq = false ∧ b.used = 0) then (b, w)
      else
        let op := waiterOp w x
        let bad := slotFault w slice b op
        if bad ≠ 0 then
          retireWaiters ((w.updHome cb fun h => { h with waiters := t }).answerWaiter x (.refused bad) none 0) cb slice k b
        else
          let time := opTime w cb (if x.rel.isSome then 0 else (w.ctx x.core x.bank).lts) b op
          let r := performNow w time b op
          let w1 := r.2.2.updHome cb fun h => { h with waiters := t, lts := time }
          retireWaiters (w1.answerWaiter x r.1 (some r.2.1.free) time) cb slice k r.2.1

/-- The lowest queue-wait entry of a context that no waiter of it holds at this queue (R103). -/
def freeEntry (ws : List Waiter) (core bank : Nat) : Option Nat :=
  (List.range 4).find? fun e => !(ws.any fun x =>
    x.rel.isNone && decide (x.core = core) && decide (x.bank = bank) && decide (x.entry = e))

/-- The requester may wait with this operation (R113, R118). -/
def HomeOp.mayWait : HomeOp → Bool
  | .enqueue _ w => w
  | .claim => false
  | .dequeue w => w
  | .peek => false
  | .release _ => true

/-- The operation needs a free slot. -/
def HomeOp.produces : HomeOp → Bool
  | .enqueue _ _ => true
  | .claim => true
  | .dequeue _ => false
  | .peek => false
  | .release _ => false

/-- The packets that stand in the service queue of a die: those its copy service has taken and not started, and those in the
whole queues of its role homed there (R102). -/
def serviceLoad (w : Work) (die : Nat) : Nat :=
  w.dev.homes.foldl (fun n p =>
    if (w.block p.1).role = 3 ∧ p.2.slice / 512 = die ∧ wholeHere w p.1 then n + (w.block p.1).used else n)
    ((w.dev.fe.jobs.get die []).filter fun j => !j.running).length

/-- An operation finds no room, or nothing to take; a copy-service queue has room only while its die's has (R102, R113). -/
def HomeOp.stuck (w : Work) (slice : Nat) (b : Block) (op : HomeOp) : Bool :=
  if op.produces then decide (b.used = b.cap) || (decide (b.role = 3) && decide (1024 ≤ serviceLoad w (slice / 512)))
  else decide (b.used = 0)

/-- A host's RELEASE that found its queue empty, as a waiter: it has no context and no queue-wait entry of which R103 makes a
waiter id, so the id is a free value (notes/assumptions/95.md). -/
def hostWaiter (f : Nat) (op : HomeOp) : Waiter :=
  { core := f % 512, bank := f / 512 % 2, op := 0, entry := f / 1024 % 4, enq := false, rel := match op with
    | .release n => some n
    | .enqueue _ _ => some 0
    | .claim => some 0
    | .dequeue _ => some 0
    | .peek => some 0 }

/-- One operation at the home of a block (R105, R113, R125, R126): the answer and the state. A block or slot in a failed column
ends the operation with that column's cause (R25), and a role that forbids it with cause 21. A host's RELEASE that finds the
queue empty joins the waiter list as the pseudocode of R113 has it. -/
def Work.atHome (w0 : Work) (cb asked handle time : Nat) (r : Requester) (op : HomeOp) : HomeAns × Work :=
  let slice := w0.dev.sliceOf cb asked
  let b0 := w0.block cb
  let w := w0.adopt cb handle (r.part w0.dev b0) slice
  if reachFault w0.dev (slice / 512) cb ≠ 0 then (.refused (reachFault w0.dev (slice / 512) cb), w0)
  else match homeCheck w cb slice r with
  | some 18 => (.refused 18, w.poisonQueue cb)
  | some c => (.refused c, w)
  | none =>
    let b := w.block cb
    let t := opTime w cb time b op
    if roleForbids b.role r op then (.refused 21, w)
    else if op.stuck w slice b then
      let b1 := b.put 60 2 (b.field 60 2 + 1)
      let no : HomeAns := if op.produces then .full else .empty
      if op.mayWait = false then (no, (w.setBlock cb b1.seal))
      else if b.blk = false then (.refused (if op.produces then 16 else 17), w.setBlock cb b1.seal)
      else
        match r with
        | .ctx core bank id =>
          match freeEntry (w.dev.homeOf cb).waiters core bank with
          | none => (.held, w0)
          | some e =>
            let x : Waiter := { core := core, bank := bank, op := id, entry := e, enq := op.produces }
            let ws := (w.dev.homeOf cb).waiters ++ [x]
            let w1 := w.updHome cb fun h => { h with waiters := ws }
            (.waiting, w1.setBlock cb (b1.withWaiters ws).seal)
        | .host _ =>
          let f := w.free
          let ws := (w.dev.homeOf cb).waiters ++ [hostWaiter f.1 op]
          (.waiting, (f.2.updHome cb fun h => { h with waiters := ws }).setBlock cb (b1.withWaiters ws).seal)
        | .peer => (no, w.setBlock cb b1.seal)
        | .guest _ => (no, w.setBlock cb b1.seal)
        | .device => (no, w.setBlock cb b1.seal)
    else if slotFault w slice b op ≠ 0 then (.refused (slotFault w slice b op), w)
    else
      let p := performNow w t b op
      let w1 := p.2.2.updHome cb fun h => { h with lts := t }
      let q := retireWaiters w1 cb slice (w1.dev.homeOf cb).waiters.length p.2.1
      let w2 := q.2
      (p.1, w2.setBlock cb ((q.1.withWaiters (w2.dev.homeOf cb).waiters).seal))

/-- Withdrawal of a waiting operation (R123): the waiter is removed and nothing is placed or taken. -/
def Work.withdraw (w : Work) (cb core bank op : Nat) : Work :=
  w.setWaiters cb ((w.dev.homeOf cb).waiters.filter fun x =>
    x.rel.isSome || !(decide (x.core = core) && decide (x.bank = bank) && decide (x.op = op)))

/-- The die of a global slice number (R18): 512 slices to a die. -/
def sliceDie (slice : Nat) : Nat := slice / 512

/-- The global cluster of a core (R16). -/
def coreCluster (core : Nat) : Nat := core / 16

/-- A home slice is reachable from a die (R28, R120). -/
def reachable (d : Dev) (die slice : Nat) : Bool :=
  joined d die (sliceDie slice)

/-- The operation a queue form asks for (R110). -/
def QueueOp.homeOp (q : QueueOp) : HomeOp :=
  match q.form with
  | 0x41 => .enqueue q.elem true
  | 0x42 => .enqueue q.elem true
  | 0x43 => .enqueue q.elem false
  | 8 => .enqueue q.elem false
  | 0x44 => .dequeue true
  | 0x45 => .dequeue true
  | 0x46 => .dequeue false
  | _ => .peek

/-- The checks of `qbind` at the home, in the order of R107 and R125, and the confirmed binding; wholeness comes first. -/
def bindAtHome (w : Work) (core bank : Nat) (q : QueueOp) : Except Nat Binding :=
  let b := w.block q.cb
  let c := w.ctx core bank
  let h := w.dev.homeOf q.cb
  if reachable w.dev (coreDie core) q.home = false then .error 22
  else if reachFault w.dev (sliceDie q.home) q.cb ≠ 0 then .error (reachFault w.dev (sliceDie q.home) q.cb)
  else if b.whole w.dev q.cb (w.dev.sliceOf q.cb q.home) = false then .error 18
  else if h.pois ∨ b.pois then .error 20
  else if b.quar then .error 23
  else if b.sec ∧ c.sec = false then .error 12
  else if b.owner ≠ c.part then .error 11
  else if b.elog ≠ q.elog then .error 19
  else if (mayProduce b.role (.ctx core bank 0) = false ∧ mayConsume b.role (.ctx core bank 0) = false) ∨
      (b.md = false ∧ coreDie core ≠ sliceDie q.home) then .error 21
  else .ok { st := .bound, handle := q.handle, cb := q.cb, home := q.home, elog := b.elog, role := b.role,
             free := b.free }

/-- An operation that has found its queue full or empty is counted (Table 11.10). -/
def Work.countQueue (w : Work) (core bank : Nat) (a : HomeAns) : Work :=
  let found : Bool := match a with
    | .waiting => true
    | .full => true
    | .empty => true
    | .refused cause => decide (cause = 16) || decide (cause = 17)
    | .held => false
    | .done _ _ _ => false
  if found then w.updCtx core bank fun c => c.count 6 1 else w

/-- Perform one queue operation of a context at its home (R113, R107, R115). -/
def Work.performQueueOp (w : Work) (core bank : Nat) (q : QueueOp) : Work :=
  if q.form = 0x40 then
    let r := bindAtHome w core bank q
    let there := reachable w.dev (coreDie core) q.home && decide (reachFault w.dev (sliceDie q.home) q.cb = 0)
    let w1 := if there then
        (w.waitFor (homeBusy w.dev (q.cb / 64)) (q.cb / 64)).adopt q.cb q.handle (w.ctx core bank).part q.home
      else w
    let w2 := match r with
      | .ok x => w1.updCtx core bank fun c => { c with qb := c.qb.set q.bnd x }
      | .error e => (if e = 18 then w1.poisonQueue q.cb else w1).updCtx core bank fun c => { c with
          qb := c.qb.set q.bnd { st := .failed e q.pc, handle := q.handle } }
    w2.updCtx core bank fun c => { c with qops := c.qops.filter fun x => decide (x.id ≠ q.id) }
  else if q.stale then w.answerOp core bank q.id (.refused 20) none 0
  else if reachable w.dev (coreDie core) q.home = false then
    w.answerOp core bank q.id (.refused 22) none 0
  else
    let lts := (w.ctx core bank).lts
    let time := opTime w q.cb lts (w.block q.cb) q.homeOp
    let r0 := w.atHome q.cb q.home q.handle lts (.ctx core bank q.id) q.homeOp
    let r := (r0.1, r0.2.countQueue core bank r0.1)
    match r.1 with
    | .waiting =>
      let e := ((r.2.dev.homeOf q.cb).waiters.find? fun x =>
        x.rel.isNone ∧ x.op = q.id ∧ x.core = core ∧ x.bank = bank).map (·.entry)
      r.2.updCtx core bank fun c => { c with
        qops := c.qops.map fun x => if x.id = q.id then { x with waiting := some (e.getD 0), held := false } else x }
    | .held => r.2.updCtx core bank fun c => { c with
        qops := c.qops.map fun x => if x.id = q.id then { x with held := true } else x }
    | .done pos elem mark =>
      r.2.answerOp core bank q.id (.done pos elem mark) (some (r.2.block q.cb).free) time
    | .full => r.2.answerOp core bank q.id .full (some (r.2.block q.cb).free) 0
    | .empty => r.2.answerOp core bank q.id .empty (some (r.2.block q.cb).free) 0
    | .refused cause => r.2.answerOp core bank q.id (.refused cause) none 0

/-- The queue operation of a context that its home may perform next: a `qbind`, or the first operation not yet at its
home behind operations to the same home, once every access issued before an enqueue has been performed (R115, R116). -/
def Ctx.nextQueueOp (c : Ctx) : Option QueueOp :=
  match c.qops.find? fun q => q.form = 0x40 with
  | some q => some q
  | none =>
    match c.qops.find? fun q => q.waiting.isNone with
    | none => none
    | some q =>
      if (c.qops.all fun x => x.waiting.isNone || decide (x.home = q.home)) &&
          (decide (q.form = 0x44) || decide (q.form = 0x45) || decide (q.form = 0x46) || decide (q.form = 0x47) ||
            c.accs.all fun a => decide (q.seq ≤ a.seq)) then some q
      else none

end Sys2Proof.Machine
end

