-- ==== Sys2Proof/Machine/Walk.lean ====
section
/-! DEFINITION. Nest registers and their walks (R323 to R326, R376). -/

namespace Sys2Proof.Machine

/-- n bytes of a nest image from byte off (Table 12.2). -/
def nestBytes (i : NestImage) (off n : Nat) : Nat := packedBytes i.toNat off n

def nestBase (i : NestImage) : Nat := nestBytes i 0 8
def nestKind (i : NestImage) : Nat := nestBytes i 8 1 % 8
def nestFmt (i : NestImage) : Nat := nestBytes i 9 1
def nestDims (i : NestImage) : Nat := nestBytes i 10 1
def nestBlk (i : NestImage) : Nat := nestBytes i 12 4
def nestScBase (i : NestImage) : Nat := nestBytes i 16 8
def nestScStr (i : NestImage) : Int := sx 64 (nestBytes i 24 8)
def nestCount (i : NestImage) (d : Nat) : Nat := nestBytes i (32 + 16 * d) 4
def nestStride (i : NestImage) (d : Nat) : Int := sx 40 (nestBytes i (36 + 16 * d) 5)

/-- An image with n bytes from byte off replaced (R326). -/
def nestPut (i : NestImage) (off n v : Nat) : NestImage :=
  let x := i.toNat
  BitVec.ofNat 1024 (x % 2 ^ (8 * off) + 2 ^ (8 * off) * (v % 2 ^ (8 * n)) +
    2 ^ (8 * (off + n)) * (x / 2 ^ (8 * (off + n))))

/-- The bits of BASE or SCBASE that must be 0 for a KIND are 0 (R324). -/
def baseOk (kind b : Nat) : Bool :=
  match kind with
  | 1 => decide (bits b 63 56 = 0)
  | 2 => decide (bits b 7 4 = 0) && decide (bits b 63 48 = 0)
  | 3 => decide (bits b 63 20 = 0)
  | 4 => decide (bits b 63 29 = 0)
  | 5 => decide (bits b 7 6 = 0) && decide (bits b 63 26 = 0)
  | _ => false

/-- The register is valid (R325). -/
def nestValid (i : NestImage) : Bool :=
  let k := nestKind i
  let n := nestDims i
  let f := nestFmt i
  let b := nestBlk i
  decide (1 ≤ k) && decide (k ≤ 5) && decide (f ≤ 10) && decide (1 ≤ n) && decide (n ≤ 6) &&
    (decide (b = 0) || (decide (b = 32) && (decide (f = 2) || decide (f = 6) || decide (f = 7)) &&
      decide (nestCount i 0 % 32 = 0))) &&
    decide (nestBytes i 8 1 / 8 = 0) && decide (nestBytes i 11 1 = 0) &&
    ((List.range n).all fun d => decide (nestBytes i (41 + 16 * d) 7 = 0)) &&
    baseOk k (nestBase i) && baseOk k (nestScBase i)

/-- The element format (Table 12.2). -/
def nestFormat (i : NestImage) : Fmt := (Fmt.ofCode (nestFmt i)).getD .byte

/-- Bytes of a position: INT4 positions name bytes (R347, R376). -/
def nestUnit (i : NestImage) : Nat := max 1 ((nestFormat i).bits / 8)

/-- The counts of the dimensions, innermost first. -/
def nestCounts (i : NestImage) : List Nat := (List.range (nestDims i)).map (nestCount i)

/-- The number of positions of the walk (R347). -/
def nestPositions (i : NestImage) : Nat := (nestCounts i).foldl (· * ·) 1

/-- The byte offset of a position, the dimensions from d up (R324). -/
def offsetFrom (i : NestImage) : Nat → Nat → Nat → Int
  | 0, _, _ => 0
  | k + 1, d, p =>
    let c := nestCount i d
    ((p % c : Nat) : Int) * nestStride i d + offsetFrom i k (d + 1) (p / c)

/-- The byte offset of position p (R324). -/
def nestOffset (i : NestImage) (p : Nat) : Int := offsetFrom i (nestDims i) 0 p

/-- The byte offset of the MX scale byte of position p from SCBASE (R324). -/
def scaleOffset (i : NestImage) (p : Nat) : Int :=
  let c := nestCount i 0
  ((p % c / 32 : Nat) : Int) + ((p / c : Nat) : Int) * nestScStr i

/-- The byte offset within its space that BASE or SCBASE names (R324). -/
def baseOffset (kind b : Nat) : Nat :=
  match kind with
  | 2 => bits b 47 8
  | 5 => bits b 25 8
  | _ => b

/-- Lowest and highest byte offset of the walk from its base, the dimensions from d up (R377). -/
def spanFrom (i : NestImage) : Nat → Nat → Int × Int
  | 0, _ => (0, 0)
  | k + 1, d =>
    let r := spanFrom i k (d + 1)
    let x := ((nestCount i d : Int) - 1) * nestStride i d
    if x < 0 then (r.1 + x, r.2) else (r.1, r.2 + x)

/-- First and last byte of a walk whose byte offset starts at base; none when it visits no element (R377). -/
def nestSpan (i : NestImage) (base : Int) : Option (Int × Int) :=
  if nestPositions i = 0 then none
  else
    let r := spanFrom i (nestDims i) 0
    some (base + r.1, base + r.2 + nestUnit i - 1)

/-- Positions of the walk as offsets, n of them from p. -/
def offsetsFrom (i : NestImage) (p : Nat) : Nat → List Int
  | 0 => []
  | n + 1 => nestOffset i p :: offsetsFrom i (p + 1) n

/-- The two byte ranges meet. -/
def spansMeet (a : Option (Int × Int)) (lo hi : Int) : Bool :=
  match a with
  | none => false
  | some (x, y) => decide (x ≤ hi) && decide (lo ≤ y)

/-- The destination of a copy command in its own column, if it has one: first and last byte offset (R169). -/
def CopyCmd.columnDest (c : CopyCmd) : Option (Int × Int) :=
  if c.form ≠ 3 ∧ c.form ≠ 5 ∧ c.form ≠ 13 ∧ nestKind c.n2 = 4 then
    nestSpan c.n2 ((nestBase c.n2 : Int) + (if c.form = 1 ∨ c.form = 2 then c.b.toInt else 0))
  else none

/-- The commands of an engine's list. -/
def engineCmds (l : List EngineItem) : List CopyCmd :=
  l.filterMap fun x => match x with
    | .cmd c => some c
    | .fence _ _ => none

/-- Change the commands of an engine list. -/
def mapCmds (f : CopyCmd → CopyCmd) (l : List EngineItem) : List EngineItem :=
  l.map fun x => match x with
    | .cmd c => .cmd (f c)
    | .fence o b => .fence o b

/-- All commands of a core's two engines that are not complete. -/
def Core.cmds (c : Core) : List CopyCmd := engineCmds (c.ce.get 0 []) ++ engineCmds (c.ce.get 1 [])

end Sys2Proof.Machine
end

