-- ==== Sys2Proof/Machine/Access.lean ====
section
/-! DEFINITION. Performing the accesses of a context at their homes: loads, stores, atomics, range operations and
publishes (R186 to R203, R304 to R307, R169). -/

namespace Sys2Proof.Machine

/-- The formats of `amo.fadd` by Q (Table 11.1). -/
def faddFmt (q : Nat) : Fmt :=
  match q with
  | 0 => .fp16
  | 1 => .bf16
  | _ => .fp32

/-- The new value of an atomic (R307): operation number N - 0x30. -/
def amoNew (op n fmt old b w : Nat) : Nat :=
  let m := 2 ^ (8 * n)
  let o := old % m
  let y := b % m
  match op with
  | 0 => (o + y) % m
  | 1 => o &&& y
  | 2 => o ||| y
  | 3 => o ^^^ y
  | 4 => if sx (8 * n) o < sx (8 * n) y then o else y
  | 5 => if sx (8 * n) o < sx (8 * n) y then y else o
  | 6 => min o y
  | 7 => max o y
  | 8 => y
  | 9 => if o = y then w % m else o
  | _ =>
    let f := faddFmt fmt
    let r := Real.add (floatValue f o) (floatValue f y)
    rne f r

/-- The value an atomic lands: zero-extended for minu, maxu and fadd, else sign-extended (R307). -/
def amoLands (op n old : Nat) : Word :=
  if op = 6 ∨ op = 7 ∨ op = 10 then BitVec.ofNat 64 (old % 2 ^ (8 * n)) else BitVec.ofInt 64 (sx (8 * n) old)

/-- Data arrives for a landing-buffer entry (R215). -/
def Work.arrive (w : Work) (core bank id : Nat) (a : Arrived) : Work :=
  w.updCtx core bank fun c => { c with
    outs := c.outs.map fun o => if o.id = id then { o with res := some a } else o }

/-- The cache-way quota that a context's cw.l2div gives a class (Table 7.5, R175). -/
def quotaOf (l2div cls : Nat) : Nat := bits l2div (14 + 5 * (cls % 4)) (10 + 5 * (cls % 4))

/-- The context's logical time never decreases (R189). -/
def Ctx.raiseLts (c : Ctx) (t : Nat) : Ctx := { c with lts := max c.lts t }

/-- Causes that an arriving landing raises as landing-time faults (Table 9.5). -/
def landingFault (cause va : Nat) : Option (Nat × Nat) :=
  if cause = 41 ∨ cause = 42 ∨ cause = 43 ∨ cause = 44 ∨ cause = 45 ∨ cause = 47 then some (cause, va) else none

/-- The armed-word entry for an address after an act on the word: freed when the word has completed or failed
(R327, R357), at logical time t. -/
def Ctx.armedNow (c : Ctx) (pa val t : Nat) : Ctx :=
  let done := decide (bits val 41 40 ≠ 0) || decide (bits val 39 0 = 0)
  if done then { c with
    armed := c.armed.filter fun a => decide (a.pa ≠ pa)
    freed := (c.armed.filter fun a => decide (a.pa = pa)).foldl (fun f a => f.set a.va t) c.freed }
  else { c with armed := c.armed.map fun a => if a.pa = pa then { a with count := bits val 39 0 } else a }

/-- One line of a range operation by a context at logical time t (R203): the state, and the time above the lease ends of
what was removed. A line that is invalidated begins anew at that time, so that what a bank operation has put into the array
is observed from there on (R204). Lines of host-biased granules and of the host window see no effect. -/
def rangeLine (w : Work) (t op l : Nat) : Nat × Work :=
  if regionOf (l * 64) ≠ .stacked ∨ w.dev.coh.devBias.contains (l / 64) = false then (0, w)
  else
    let wA := w.waitFor (homeBusy w.dev l) l
    let w1 := if op = 1 then wA else wA.writeBack l
    if op = 0 then (0, w1)
    else
      let time := max t ((w.dev.coh.line l).rts + 1)
      -- what the home holds apart is discarded by an invalidation: it takes the array's bytes back
      let w2 := if w1.dev.coh.apart l then
          ((((w1.waitFor (writeWaits w1.dev l) l).pwrite (l * 64) 64 (w1.arrayRead (l * 64) 64)).writeBack l).takeArray l).noteWrite l
        else w1
      (time, w2.updCoh fun c => { c with
        lines := c.lines.set l { wts := time, rts := time }
        copies := c.copies.filter fun x => decide (x.line ≠ l) })

/-- The lines of one page that a range touches: n lines from l, from logical time t on. -/
def rangeLines (op : Nat) : Nat → Nat → Work → Nat → Nat × Work
  | 0, _, w, t => (t, w)
  | n + 1, l, w, t =>
    let r := rangeLine w t op l
    rangeLines op n (l + 1) r.2 (max t r.1)

/-- A range operation page by page in ascending order (R320): fuel bounds the number of 4 KiB pages. A page without a
valid leaf is skipped; a refusal, or a page that is not reached, stops the operation and is reported later (R28). -/
def rangePages (core bank op pc : Nat) : Nat → Nat → Nat → Work → Work
  | 0, _, _, w => w
  | k + 1, va, last, w =>
    if last < va then w
    else
      let c := w.ctx core bank
      let need : Need := if op = 1 then .write else .read
      let pageEnd := va / 4096 * 4096 + 4095
      let stop := min last pageEnd
      let who : Asker := { part := c.part, sec := c.sec, die := coreDie core }
      match translate w who [need] va with
      | .error (.busy l) => w.waitFor true l
      | .error (.absent _) => rangePages core bank op pc k (stop + 1) last w
      | .error .malformed => rangePages core bank op pc k (stop + 1) last (w.logError 8 c.part core va)
      | .error (.refused cause) =>
        w.updCtx core bank fun x => { x with late := x.late ++ [(cause, pageStart w who va, pc)] }
      | .ok x =>
        let hf := reachFault w.dev (coreDie core) x.pa
        if hf ≠ 0 then w.updCtx core bank fun y => { y with late := y.late ++ [(hf, va / x.size * x.size, pc)] }
        else
          let l0 := x.pa / 64
          let l1 := (x.pa + (stop - va)) / 64
          let r := rangeLines op (l1 + 1 - l0) l0 w (if op = 0 then 0 else c.lts)
          rangePages core bank op pc k (stop + 1) last (r.2.updCtx core bank fun y => y.raiseLts r.1)

/-- The checks of `publish` at the handle's home, in the order of R169: the failing cause. An offset of 2^64 or more stands for
an operand whose handle counts as one outside the table (R321). An entry in a failed column, or one
that is not reached, gives that cause (R25, R28). -/
def publishCheck (w : Work) (core bank o h : Nat) (free : Bool) : Option Nat :=
  let c := w.ctx core bank
  let p := w.dev.partOf c.part
  let a := p.htab + 16 * h
  let lo := w.pread a 8
  let pages := w.pread (a + 8) 4
  let lg := bits lo 5 0
  let len := pages * 2 ^ lg
  let old := bits lo 51 12 * 4096
  let col0 := core * 2 ^ 29
  let tags := (w.dev.column core).tags
  let region := col0 + o
  if p.hcount ≤ h ∨ 2 ^ 64 ≤ o then some 33
  else if reachFault w.dev (coreDie core) a ≠ 0 then some (reachFault w.dev (coreDie core) a)
  else if bit lo 6 = false ∨ len % 2 ^ 21 ≠ 0 then some 33
  else if o % 2 ^ 21 ≠ 0 ∨ 2 ^ 29 < o + len then some 33
  else if ((List.range (len / 2 ^ 21)).any fun i => decide (tags.get (o / 2 ^ 21 + i) 0 ≠ bank + 1)) then some 33
  else if ((w.core core).cmds.any fun x => spansMeet x.columnDest o ((o : Int) + len - 1)) then some 33
  else if free = false ∧ (old < col0 ∨ col0 + 2 ^ 29 < old + len) then some 33
  else if ((List.range (len / 2 ^ 21)).any fun i => !c.sec &&
      (inRanges w.dev.secGran (granuleOf old + i) || inRanges w.dev.secGran (granuleOf region + i))) then some 12
  else if ((List.range (len / 4096)).any fun i =>
      !(w.dev.coh.devBias.contains (old / 4096 + i)) || !(w.dev.coh.devBias.contains (region / 4096 + i))) then some 59
  else none

/-- Tags of n granules of a column from granule g set. -/
def setTags (w : Work) (col g v : Nat) : Nat → Work
  | 0 => w
  | n + 1 =>
    setTags (w.mapDev fun d => { d with cols := d.cols.set col { d.column col with
      tags := (d.column col).tags.set g v } }) col (g + 1) v n

/-- The lines of a region begin anew at a time, with no copy of them left: what private accesses wrote there, which took no
times, is observed from that time on (R166, R201). -/
def Coherence.renew (h : Coherence) (lo hi t : Nat) : Coherence :=
  { h with
    copies := h.copies.filter fun x => !(decide (lo ≤ 64 * x.line) && decide (64 * x.line < hi))
    lines := h.lines.map fun p =>
      (p.1, if lo ≤ 64 * p.1 ∧ 64 * p.1 < hi then { wts := max p.2.wts t, rts := max p.2.rts t } else p.2) }

/-- A logical time above every lease granted in a region. -/
def Coherence.above (h : Coherence) (lo hi : Nat) : Nat :=
  h.lines.foldl (fun m p => if lo ≤ 64 * p.1 ∧ 64 * p.1 < hi then max m (p.2.rts + 1) else m) h.floor

/-- A publish performed at the home of the handle's entry (R169, R201, R321), at a time above the context's completed engine
commands and every lease on the region's lines. An access through the handle that has translated and not performed translates again, and
sees the new extent (R170). A granule that becomes private keeps no line apart from its array (R166). -/
def Work.performPublish (w : Work) (core bank pc o h : Nat) (free : Bool) : Work :=
  match publishCheck w core bank o h free with
  | some cause => w.updCtx core bank fun c => { c with plate := c.plate ++ [(cause, h, pc)] }
  | none =>
    let c := w.ctx core bank
    let p := w.dev.partOf c.part
    let a := p.htab + 16 * h
    let lo := w.pread a 8
    let len := w.pread (a + 8) 4 * 2 ^ bits lo 5 0
    let old := bits lo 51 12 * 4096
    let region := core * 2 ^ 29 + o
    let pubs := w.pread (a + 12) 4
    let lo' := lo % 2 ^ 12 + region / 4096 * 4096
    -- BASE and PUBS change at one logical time
    let r := w.cohWrite (max (max c.lts c.engLts) (w.dev.coh.above region (region + len))) a 16 (lo' + 2 ^ 64 * (w.pread (a + 8) 4 + 2 ^ 32 * ((pubs + 1) % 2 ^ 32)))
    let w1 := (r.2.updCoh fun h => h.renew region (region + len) r.1).updCtx core bank fun x => x.raiseLts r.1
    let w2 := setTags w1 core (o / 2 ^ 21) 0 (len / 2 ^ 21)
    if free then
      let w3 := if regionOf old = .stacked then setTags w2 (columnOf old) (old / 2 ^ 21 % 256) 0 (len / 2 ^ 21) else w2
      let body := h + 2 ^ 64 * old + 2 ^ 128 * len + 2 ^ 192 * (core + 512 * bank)
      w3.mapDev fun d => { d with events := d.events ++ [{ part := c.part, kind := 0x93, body := body }] }
    else setTags (w2.sweepLines old len) core (old / 2 ^ 21 % 256) (bank + 1) (len / 2 ^ 21)

/-- What an access asks of its translation (R161). -/
def AccessKind.need : AccessKind → Need
  | .load _ _ _ => .read
  | .store _ _ => .write
  | .atomic _ _ _ _ _ _ => .atomic
  | .prefetch _ => .read
  | .range _ _ => .read
  | .publish _ _ _ => .write

/-- The access as it is performed: where a line that its translation came from has been written since, that translation has
been recalled, and it translates again (R163, R170). -/
def Access.current (w : Work) (core bank : Nat) (a : Access) : Except XErr Access :=
  if linesTime w.dev a.lines ≤ a.tmin then .ok a
  else
    let c := w.ctx core bank
    match translate w { part := c.part, sec := c.sec, die := coreDie core } [a.kind.need] a.va with
    | .error e => .error e
    | .ok x => .ok { a with pa := x.pa, cls := x.cls, handle := x.handle, lines := x.lines,
                            tmin := linesTime w.dev x.lines }

/-- An access whose translation, made again, fails: the fault is one found after issue (R304; DESIGN CHOICE,
notes/assumptions/119.md), and one that waits for a line goes on waiting. -/
def Work.failAccess (w : Work) (core bank : Nat) (a : Access) (e : XErr) : Work :=
  let lands (id base : Nat) : Work :=
    w.arrive core bank id { val := 0, mark := e.cause base, fault := some (e.cause base, a.va) }
  let later : Work := w.updCtx core bank fun x => { x with late := x.late ++ [(e.cause 9, a.va, a.pc)] }
  match e, a.kind with
  | .busy l, _ => w.waitFor true l
  | _, .load _ _ id => lands id 8
  | _, .atomic _ _ _ _ _ id => lands id 9
  | _, .store _ _ => later
  | _, .prefetch _ => w
  | _, .range _ _ => w
  | _, .publish _ _ _ => w

/-- The word of a `bw.init` that translates again lies where its access goes (R327). -/
def Ctx.armedAt (c : Ctx) (a : Access) : Ctx :=
  if a.arms then { c with armed := c.armed.map fun x => if x.va = a.va then { x with pa := a.pa } else x } else c

/-- Perform the oldest access of a context at its home. -/
def Work.performAccess (w0 : Work) (core bank : Nat) : Work :=
  match (w0.ctx core bank).accs with
  | [] => w0
  | a0 :: rest =>
    match a0.current w0 core bank with
    | .error e => (w0.updCtx core bank fun x => { x with accs := rest }).failAccess core bank a0 e
    | .ok a =>
    let w := w0.updCtx core bank fun x => x.armedAt a
    let c := w.ctx core bank
    let w1 := w.updCtx core bank fun x => { x with accs := rest }
    let t := max c.lts a.tmin
    let hf := reachFault w.dev (coreDie core) a.pa
    let peer := decide (regionOf a.pa = .peer)
    match a.kind with
    | .load n signed id =>
      if hf ≠ 0 then
        w1.arrive core bank id { val := 0, mark := hf, fault := some (hf, a.va) }
      else if peer then
        -- the peer's memory is outside the package: what it returns is free (R193)
        let f := w1.free
        f.2.arrive core bank id { val := BitVec.ofInt 64 (sx (8 * n) f.1) }
      else
        let r := w1.cohRead (coreCluster core) t c.lease a.cls (quotaOf c.l2div a.cls) a.pa n
        let m := w.poisonAt a.pa n
        let v := if signed then BitVec.ofInt 64 (sx (8 * n) r.1) else BitVec.ofNat 64 r.1
        (r.2.2.updCtx core bank fun x => x.raiseLts r.2.1).arrive core bank id
          { val := v, mark := m, fault := landingFault m a.va, lts := r.2.1 }
    | .store n v =>
      if hf ≠ 0 then w1.updCtx core bank fun x => { x with late := x.late ++ [(hf, a.va, a.pc)] }
      else if peer then w1
      else
        let r := w1.cohWrite t a.pa n v
        let w2 := r.2.updCtx core bank fun x => x.raiseLts r.1
        if a.arms then w2.updCtx core bank fun x => x.armedNow a.pa v r.1 else w2
    | .atomic op n b ww fmt id =>
      if hf ≠ 0 then w1.arrive core bank id { val := 0, mark := hf, fault := some (hf, a.va) }
      else if peer then
        let f := w1.free
        f.2.arrive core bank id { val := amoLands op n f.1 }
      else
        let m := w.poisonAt a.pa n
        if m ≠ 0 then w1.arrive core bank id { val := 0, mark := m, fault := landingFault m a.va }
        else
          let old := w1.pread a.pa n
          let r := w1.cohWrite t a.pa n (amoNew op n fmt old b ww)
          (r.2.updCtx core bank fun x => x.raiseLts r.1).arrive core bank id
            { val := amoLands op n old, lts := r.1 }
    | .prefetch cls =>
      if hf ≠ 0 ∨ peer then w1
      else (w1.cohRead (coreCluster core) t c.lease cls (quotaOf c.l2div cls) (a.pa / 64 * 64) 64).2.2
    | .range op len =>
      if len = 0 then w1
      else rangePages core bank op a.pc ((a.va % 4096 + len + 4095) / 4096) a.va (a.va + len - 1) w1
    | .publish off h free => w1.performPublish core bank a.pc off h free

/-- The oldest access of a context may be performed: nothing that an access to its line waits for is left (R24, R50, R76,
R78, R141, R163). -/
def Work.accessReady (w : Work) (core bank : Nat) : Bool :=
  match (w.ctx core bank).accs with
  | [] => false
  | a0 :: _ =>
    match a0.current w core bank with
    | .error _ => true
    | .ok a =>
    let l := a.pa / 64
    match a.kind with
    | .load _ _ _ => !readWaits w.dev l
    | .prefetch _ => !readWaits w.dev l
    | .range _ _ => true
    | .store _ _ => !writeWaits w.dev l
    | .atomic _ _ _ _ _ _ => !writeWaits w.dev l
    | .publish _ _ _ => !writeWaits w.dev l

/-- The access is a range operation. -/
def AccessKind.isRange : AccessKind → Bool
  | .load _ _ _ => false
  | .store _ _ => false
  | .atomic _ _ _ _ _ _ => false
  | .prefetch _ => false
  | .range _ _ => true
  | .publish _ _ _ => false

/-- A range operation takes in the line of an access. -/
def Access.takesIn (r a : Access) : Bool :=
  match r.kind with
  | .range _ len => decide (0 < len) && decide (r.va / 64 ≤ a.va / 64) && decide (a.va / 64 ≤ (r.va + len - 1) / 64)
  | .load _ _ _ => false
  | .store _ _ => false
  | .atomic _ _ _ _ _ _ => false
  | .prefetch _ => false
  | .publish _ _ _ => false

/-- The first access that is no range operation, with the others, where no range operation before it takes in its line: range
operations keep the order among themselves, and nothing but a fence orders them before the accesses that follow (R203,
R194, R195). `rs` are those passed over. -/
def firstOther : List Access → List Access → Option (Access × List Access)
  | _, [] => none
  | rs, a :: t =>
    if a.kind.isRange then firstOther (rs ++ [a]) t
    else if rs.any fun r => r.takesIn a then none
    else some (a, rs ++ t)

/-- The list of a context's accesses with one that may overtake range operations put first. -/
def Ctx.overtaken (c : Ctx) : Option (List Access) :=
  match c.accs with
  | [] => none
  | r :: _ => if r.kind.isRange then (firstOther [] c.accs).map fun x => x.1 :: x.2 else none

/-- An access overtakes the range operations before it, and is performed. -/
def Work.overtake (w : Work) (core bank : Nat) : Work :=
  match (w.ctx core bank).overtaken with
  | none => w
  | some l =>
    let w1 := w.updCtx core bank fun c => { c with accs := l }
    if w1.accessReady core bank then w1.performAccess core bank else w

/-- Perform every access of a context, oldest first (R196): fuel is their number. -/
def Work.performAll (core bank : Nat) : Nat → Work → Work
  | 0, w => w
  | n + 1, w => Work.performAll core bank n (w.performAccess core bank)

end Sys2Proof.Machine
end

