-- ==== Sys2Proof/Machine/Land.lean ====
section
/-! DEFINITION. Results reaching their latches and registers (R208 to R212), and the accumulator and bound stores. -/

namespace Sys2Proof.Machine

/-- Column col of an accumulator row: 16 bits (R255). -/
def Core.cell (c : Core) (unit row col : Nat) : Nat := c.acc.get (64 * unit + row) 0 / 2 ^ (16 * col) % 2 ^ 16

/-- An accumulator row with one column replaced. -/
def Core.setCell (c : Core) (unit row col v : Nat) : Core :=
  let k := 64 * unit + row
  let x := c.acc.get k 0
  { c with acc := c.acc.set k (x % 2 ^ (16 * col) + 2 ^ (16 * col) * (v % 2 ^ 16) +
      2 ^ (16 * (col + 1)) * (x / 2 ^ (16 * (col + 1)))) }

/-- An element of a tile in an accumulation format: FP32 spans a pair of units (R255). -/
def Core.tile (c : Core) (f : Fmt) (u0 u1 row col : Nat) : Nat :=
  if f = .fp32 then c.cell u0 row col + 2 ^ 16 * c.cell u1 row col else c.cell u0 row col

/-- A tile element written. -/
def Core.setTile (c : Core) (f : Fmt) (u0 u1 row col v : Nat) : Core :=
  if f = .fp32 then (c.setCell u0 row col v).setCell u1 row col (v / 2 ^ 16) else c.setCell u0 row col v

/-- The accumulation formats by AF: 0 FP16, 1 BF16, 2 FP32 (R278). -/
def accFmt (af : Nat) : Fmt :=
  match af with
  | 0 => .fp16
  | 1 => .bf16
  | _ => .fp32

/-- Active lanes of `vacc.wr` reach their unit (R349). -/
def Core.accWrite (c : Core) (f : Fmt) (u0 u1 row col : Nat) : List Nat → List Bool → Core
  | [], _ => c
  | _ :: _, [] => c
  | x :: xs, a :: as =>
    let c' := if a then c.setTile f u0 u1 row col (convert f false (floatValue .fp32 x)) else c
    Core.accWrite c' f u0 u1 row (col + 1) xs as

/-- The core with its accumulator as the auditor's replay has it (R262). -/
def Core.digital (c : Core) : Core := { c with acc := c.dig.foldl (fun t x => t.set x.1 x.2) c.acc }

/-- The rows of some keys, as a replay has left them in `d`, where they differ from what the core holds. -/
def Core.withDigital (c d : Core) (keys : List Nat) : Core :=
  keys.foldl (fun x k =>
    { x with dig := if d.acc.get k 0 = x.acc.get k 0 then x.dig.del k else x.dig.set k (d.acc.get k 0) }) c

/-- `vacc.wr` in the core and in its replay, whose vector results are the same (R262). -/
def Core.accWriteBoth (c : Core) (f : Fmt) (u0 u1 row col : Nat) (xs : List Nat) (act : List Bool) : Core :=
  let c1 := c.accWrite f u0 u1 row col xs act
  if c.dig.isEmpty then c1
  else c1.withDigital (c.digital.accWrite f u0 u1 row col xs act) [64 * u0 + row, 64 * u1 + row]

/-- A unit and its bound vector zeroed (R255, R369): n rows from the row. -/
def Core.zeroRows (c : Core) (unit : Nat) : Nat → Core
  | 0 => c
  | n + 1 =>
    let k := 64 * unit + n
    Core.zeroRows { c with acc := c.acc.del k, bnd := c.bnd.del k, dig := c.dig.del k,
                           adds := (c.adds.del (2 * k)).del (2 * k + 1) } unit n

/-- The units of a mask zeroed (R369). -/
def Core.zeroUnits (c : Core) (mask : Nat) : Nat → Core
  | 0 => c
  | n + 1 => Core.zeroUnits (if bit mask n then c.zeroRows n 64 else c) mask n

/-- The writable bits of a limit word: [31:0], 0 stored as 1, a write at level 0 above the current value without effect
(Table 9.2); `cap` is what the word may hold at most (R99). -/
def limitWrite (cap lvl old new : Nat) : Nat :=
  let v := min (new % 2 ^ 32) cap
  if lvl = 0 ∧ old < v then old else if v = 0 then 1 else v

/-- cw.l2div as a write stores it (Table 7.5). -/
def l2divWrite (v : Nat) : Nat :=
  let sb := min (bits v 4 0) 15
  let sc := min (bits v 9 5) (16 - sb)
  let q (n : Nat) : Nat := min (bits v (14 + 5 * n) (10 + 5 * n)) 16
  sb + 2 ^ 5 * sc + 2 ^ 10 * q 0 + 2 ^ 15 * q 1 + 2 ^ 20 * q 2 + 2 ^ 25 * q 3

/-- n bytes from a key zeroed. -/
def Work.zeroKeys (w : Work) (k n : Nat) : Work :=
  w.base.cells.foldl (fun a c => if k ≤ c.1 ∧ c.1 < k + n then a.setByte c.1 0 else a)
    (w.log.foldl (fun a c => if k ≤ c.1 ∧ c.1 < k + n then a.setByte c.1 0 else a) w)

/-- A way of every slice of a cluster changes role: its staging bytes read zero afterwards (R173, R174). -/
def zeroWay (w : Work) (cluster way : Nat) : Work :=
  let base := Key.staging cluster 0 0
  let inWay (k : Nat) : Bool := decide (base ≤ k) && decide (k < base + 0x1000000) && decide ((k - base) / 16384 % 16 = way)
  ((List.range 64).foldl (fun a s => a.zeroKeys (Key.staging cluster s (way * 16384)) 16384) w).updCoh fun c =>
    { c with errors := c.errors.filter fun e => !inWay (32 * e.1) }

/-- The ways whose role changes when a context's claim changes. -/
def roleChanges (d d' : Dev) (cluster : Nat) : List Nat :=
  (List.range 16).filter fun k => isStaging d cluster k != isStaging d' cluster k

/-- A way becomes staging: the dirty lines that it holds are written back, and every line in it is invalidated (R173). -/
def Work.clearWay (w : Work) (cluster way : Nat) : Work :=
  ((w.dev.coh.dirty.filter fun l => decide (Config.dirtyPlace l = 16 * cluster + way)).foldl Work.writeBack w).updCoh
    fun c => { c with copies := c.copies.filter fun x => decide (x.cluster ≠ cluster) || decide (x.way ≠ way) }

/-- A context's claim replaced, with the contents of the ways whose role changes (R172, R173). -/
def Work.setClaim (w : Work) (core bank v : Nat) : Work :=
  let cl := coreCluster core
  let w' := w.updCtx core bank fun c => { c with l2div := v }
  (roleChanges w.dev w'.dev cl).foldl (fun a k => zeroWay (if isStaging w'.dev cl k then a.clearWay cl k else a) cl k) w'

/-- A control word takes a written value; reserved bits are discarded (Tables 7.5, 8.2, 9.2, 10.6, 10.7, 10.9, 11.10). -/
def controlWrite (w : Work) (core bank num : Nat) (val : Word) : Work :=
  let v := val.toNat
  let up (f : Ctx → Ctx) : Work := w.updCtx core bank f
  -- the most that a freeze limit may be: 65,536 for a launch of the quarantine class (R99)
  let cap := if (w.dev.launches.get (w.ctx core bank).ix {}).quarantine then 65536 else 2 ^ 32 - 1
  match num with
  | 0x014 => up fun c => { c with tvec := bits v 55 5 * 32 }
  | 0x015 => up fun c => { c with tdel := BitVec.ofNat 64 (bits v 4 0 + bits v 55 5 * 32) }
  | 0x016 => up fun c => { c with tframe := bits v 19 5 * 32 }
  | 0x020 => up fun c => { c with frz := val }
  | 0x021 => up fun c => { c with frzlim := limitWrite cap c.lvl c.frzlim v }
  | 0x022 => up fun c => { c with qwait := limitWrite cap c.lvl c.qwait v }
  | 0x030 => up fun c => { c with split := v % 16 }
  | 0x031 => up fun c => { c with bndlim := v % 2 ^ 32 }
  | 0x032 => up fun c => { c with mmode := v % 2 }
  | 0x040 => w.setClaim core bank (l2divWrite v)
  | 0x042 => up fun c => { c with lease := if v % 2 ^ 16 = 0 then 1 else v % 2 ^ 16 }
  | _ =>
    if 0x050 ≤ num ∧ num ≤ 0x057 then up fun c => { c with barmask := c.barmask.set (num - 0x050) (BitVec.ofNat 16 v) }
    else if 0x100 ≤ num ∧ num ≤ 0x107 then up fun c => { c with cnt := c.cnt.set (num - 0x100) val }
    else if 0x108 ≤ num ∧ num ≤ 0x10F then up fun c => { c with
      evs := c.evs.set (num - 0x108) (if v % 256 ≤ 7 then v % 256 else 0) }
    else if num = 0x140 then up fun c => { c with
      trc := decide (v % 2 = 1), trcnt := if c.trc = false ∧ v % 2 = 1 then 0 else c.trcnt }
    else if num = 0x141 then up fun c => { c with trix := v % 1024 }
    else w

/-- What a landing does (R208 to R212, R300, R326, R332, R349, R364, R369, R370). -/
def landEffect (w : Work) (core bank : Nat) (e : Effect) : Work :=
  match e with
  | .scalar latch val dst mark =>
    w.updCtx core bank fun c => (({ c with lat := c.lat.set latch val }.setMark (64 + latch) mark).putS dst val mark)
  | .pred val dst =>
    w.updCtx core bank fun c =>
      let c1 := { c with lat := c.lat.set 0 (if val then 1 else 0) }.setMark 64 0
      match dst with
      | none => c1
      | some n => if n = 0 then c1 else { c1 with p := c1.p.set n val }
  | .vector latch lat val act dst mark =>
    w.updCtx core bank fun c =>
      let c1 := { c with vlat := c.vlat.set latch lat }.setMark (80 + latch) mark
      match dst with
      | none => c1
      | some n =>
        let c2 := { c1 with v := c1.v.set n (blend act val (c1.vreg n)) }
        if mark ≠ 0 then c2.setMark (96 + n) mark
        else if act = BitVec.allOnes 256 then c2.setMark (96 + n) 0 else c2
  | .mask latch lat val act dst =>
    w.updCtx core bank fun c =>
      let c1 := { c with vlat := c.vlat.set latch lat }.setMark (80 + latch) 0
      match dst with
      | none => c1
      | some n => if n = 0 then c1 else { c1 with vm := c1.vm.set n ((val &&& act) ||| (c1.vmreg n &&& ~~~act)) }
  | .control num val => controlWrite w core bank num val
  | .nestSet k img => w.updCtx core bank fun c => { c with nest := c.nest.set k img }
  | .nestField k off n val =>
    w.updCtx core bank fun c => { c with nest := c.nest.set k (nestPut (c.nest.get k 0) off n val) }
  | .loopBind k =>
    w.updCtx core bank fun c => { c with loop := { counts := nestCounts (c.nest.get k 0), bound := true } }
  | .accWrite af u0 u1 row col val act =>
    w.updCore core fun c => c.accWriteBoth (accFmt af) u0 u1 row col (elements 32 val) (activeList 32 act)
  | .unitsZero units => w.updCore core fun c => c.zeroUnits units 8
  | .bankSwap x =>
    w.updCore core fun c => { c with active := if x = 2 then 0 else if x = 3 then 1 else 1 - c.active }
  | .boundSet unit row val => w.updCore core fun c => { c with bnd := c.bnd.set (64 * unit + row) val }
  | .timeSeen t => w.updCtx core bank fun c => c.raiseLts t

/-- A landing comes before another: by cycle, then slot, then issue order, so that the winner of R211 is applied last. -/
def Flight.before (a b : Flight) : Bool :=
  decide (a.due < b.due) || (decide (a.due = b.due) &&
    (decide (a.slot < b.slot) || (decide (a.slot = b.slot) && decide (a.seq ≤ b.seq))))

/-- Insertion into a list of landings in the order of R211. -/
def insertFlight (f : Flight) : List Flight → List Flight
  | [] => [f]
  | g :: t => if g.before f then g :: insertFlight f t else f :: g :: t

/-- Landings in the order of R211. -/
def sortFlights : List Flight → List Flight
  | [] => []
  | f :: t => insertFlight f (sortFlights t)

/-- Land every result due at or before a cycle (R208). -/
def Work.landDue (w : Work) (core bank t : Nat) : Work :=
  let c := w.ctx core bank
  let now := sortFlights (c.flights.filter fun f => decide (f.due ≤ t))
  let w1 := w.updCtx core bank fun x => { x with flights := x.flights.filter fun f => decide (t < f.due) }
  now.foldl (fun a f => landEffect a core bank f.eff) w1

/-- Bytes of local store written outside a bundle: by the queue unit, engines or trap entry. -/
def Work.lsPut (w : Work) (core a n v : Nat) : Work := (w.writeN (Key.ls core a) n v).lsFixed core a n

/-- One variable-latency operation lands (R215): the latch, the register, the mark, cw.lts and the local-store
element. -/
def Work.landOut (w : Work) (core bank : Nat) (o : Outstanding) (a : Arrived) : Work :=
  let w1 := if a.lsLen = 0 then w else w.lsPut core a.lsAddr a.lsLen a.lsData
  landEffect (w1.updCtx core bank fun c =>
      { c.raiseLts a.lts with outs := c.outs.filter fun x => decide (x.id ≠ o.id) })
    core bank (.scalar o.latch a.val o.dst a.mark)

end Sys2Proof.Machine
end

