-- ==== Sys2Proof/Machine/Pass.lean ====
section
/-! DEFINITION. The arithmetic of the matrix engine: alignment, the array sums with their converters, pass exit, the
error bound and the checks (R239, R242 to R260, R365, R366). -/

namespace Sys2Proof.Machine

/-- A pass class of Table 10.5: outputs N, cycles per row, operand bits, greatest split, columns of a macro, the g of
R243. -/
structure PassClass where
  n : Nat
  cadence : Nat
  planes : Nat
  maxSplit : Nat
  g : Nat
  is16 : Bool
  isInt4 : Bool
  deriving DecidableEq, Repr

/-- The class of a weight format (Table 10.5, R360). -/
def passClass (weights : Fmt) : Option PassClass :=
  match weights with
  | .int8 => some { n := 256, cadence := 4, planes := 8, maxSplit := 8, g := 6, is16 := false, isInt4 := false }
  | .e4m3 => some { n := 256, cadence := 4, planes := 8, maxSplit := 8, g := 6, is16 := false, isInt4 := false }
  | .e5m2 => some { n := 256, cadence := 4, planes := 8, maxSplit := 8, g := 6, is16 := false, isInt4 := false }
  | .int4 => some { n := 512, cadence := 2, planes := 4, maxSplit := 4, g := 6, is16 := false, isInt4 := true }
  | .bf16 => some { n := 128, cadence := 8, planes := 16, maxSplit := 12, g := 14, is16 := true, isInt4 := false }
  | .fp16 => some { n := 128, cadence := 8, planes := 16, maxSplit := 12, g := 14, is16 := true, isInt4 := false }
  | .byte => none
  | .uint8 => none
  | .int16 => none
  | .int32 => none
  | .fp32 => none

/-- The activation and weight formats form a row of Table 10.5. -/
def classPair (act weights : Fmt) : Bool :=
  match passClass weights with
  | none => false
  | some k =>
    if k.isInt4 then decide (act = .int4)
    else if k.is16 then decide (act = .bf16) || decide (act = .fp16)
    else decide (act = .int8) || decide (act = .uint8) || decide (act = .e4m3) || decide (act = .e5m2)

/-- The accumulation format AF is allowed for the class (Table 10.5, R278). -/
def classAcc (k : PassClass) (af : Nat) : Bool := decide (af ≤ 2) && !(k.isInt4 && decide (af = 2))

/-- The tile of a class in an accumulation format spans a pair of units (R255). -/
def classPairs (k : PassClass) (af : Nat) : Bool := k.isInt4 || decide (af = 2)

/-- A value with the MX scale of its block; the code 255 is a NaN (R239). -/
def scaled (code : Option Nat) (x : Real) : Real :=
  match code with
  | none => x
  | some 255 => .nan
  | some e => x.scale ((e : Int) - 127)

/-- An aligned row or column (R243): mantissas, exponent, and whether it is marked non-finite. -/
structure Aligned where
  mant : List Int
  e : Int
  nonFinite : Bool
  deriving DecidableEq, Repr

/-- The largest floor(log2 |v|) of the finite nonzero values. -/
def topLog : List Real → Option Int
  | [] => none
  | x :: t =>
    match x.log2, topLog t with
    | none, r => r
    | some a, none => some a
    | some a, some b => some (max a b)

/-- v divided by 2^e, rounded to an integer by RNE; 0 for a value that is not finite (R243). -/
def mantissa (e : Int) (x : Real) : Int :=
  match x with
  | .nan => 0
  | .inf _ => 0
  | .fin n m k => toIntRne n m (k - e)

/-- The value is finite. -/
def Real.isFinite : Real → Bool
  | .nan => false
  | .inf _ => false
  | .fin _ _ _ => true

/-- The alignment of R243 to the format's g; INT8, UINT8 and INT4 pass unchanged. -/
def align (g : Nat) (f : Fmt) (vs : List Real) : Aligned :=
  if f.isFloat = false then { mant := vs.map (mantissa 0), e := 0, nonFinite := false }
  else
    let e := (topLog vs).getD g - g
    { mant := vs.map (mantissa e), e := e, nonFinite := vs.any fun x => !x.isFinite }

/-- A byte of the local store as an engine reads it (R156): where a store of the command's bundle or of a later one has replaced
it, the old value or the new one, by a free choice for each 32-byte sector; else as it stands. -/
def Work.engineByte (w : Work) (core id : Nat) (snap : List Host.Cell) (a : Nat) : Nat :=
  let now := (w.byte (Key.ls core a)).toNat
  match logFind snap (Key.ls core a) with
  | none => now
  | some b => if now = b.toNat ∨ Config.readsNew (512 * id + core) (a / 32) then now else b.toNat

/-- n bytes so read. -/
def Work.engineRead (w : Work) (core id : Nat) (snap : List Host.Cell) (a : Nat) : Nat → Nat
  | 0 => 0
  | n + 1 => w.engineByte core id snap a + 256 * w.engineRead core id snap (a + 1) n

/-- The bytes of a core's local store that slots of the present bundle have replaced, as the bundles before it left them: what an
engine command that the bundle issues may read there (R156). -/
def Work.lsSnap (w : Work) (core : Nat) : List Host.Cell :=
  w.dev.issue.lsOld.filter fun c => decide (Key.ls core 0 ≤ c.1) && decide (c.1 < Key.ls (core + 1) 0)

/-- The MX scale code of a position of a local-store walk, read by one of the two independent reads (R258). -/
def lsScale (w : Work) (core id : Nat) (snap : List Host.Cell) (reloc : Int) (img : NestImage) (p : Nat) : Nat :=
  w.engineByte core id snap (((nestScBase img : Int) + scaleOffset img p + reloc) % 0x100000).toNat

/-- The values of n positions of a local-store walk from position p, with the first copy of each scale (R239, R258); an integer
format passes unchanged (R243). The reads of the data have the number `id`, those of the two copies the next two. -/
def lsValues (w : Work) (core id : Nat) (snap : List Host.Cell) (reloc : Int) (img : NestImage) (p : Nat) :
    Nat → List Real
  | 0 => []
  | n + 1 =>
    let a := ((nestBase img : Int) + nestOffset img p + reloc).toNat
    let x := w.engineRead core id snap a (nestUnit img)
    let f := nestFormat img
    let sc := if nestBlk img = 0 ∨ f.isFloat = false then none else some (lsScale w core (id + 1) snap reloc img p)
    (if f = .int4 then [value .int4 x, value .int4 (x / 16)] else [scaled sc (value f x)]) ++
      lsValues w core id snap reloc img (p + 1) n

/-- Two copies of an MX scale of n positions from p differ (R258). -/
def scalesDiffer (w : Work) (core id : Nat) (snap : List Host.Cell) (reloc : Int) (img : NestImage) (p : Nat) :
    Nat → Bool
  | 0 => false
  | n + 1 =>
    decide (lsScale w core (id + 1) snap reloc img p ≠ lsScale w core (id + 2) snap reloc img p) ||
      scalesDiffer w core id snap reloc img (p + 1) n

/-- Positions per pass row: K, or 512 bytes for INT4 (R365). -/
def rowPositions (f : Fmt) : Nat := if f = .int4 then 512 else 1024

/-- The activation row r of a pass, aligned (R243, R365). -/
def passRowIn (w : Work) (core : Nat) (k : PassClass) (p : Pass) (r : Nat) : Aligned :=
  let f := nestFormat p.img
  let n := rowPositions f
  align k.g f (lsValues w core (8 * p.seq) p.snap p.reloc p.img (r * n) n)

/-- Weight column n of a bank, aligned (R243, R360): 1,024 values of k. -/
def weightColumn (b : WBank) (k : PassClass) (n : Nat) : Aligned :=
  let f := (Fmt.ofCode b.fmt).getD .byte
  let vs : List Real :=
    if k.isInt4 then
      (unpackN 8 (packedBytes b.data (1024 * (n / 2)) 1024) 1024).map fun x =>
        value .int4 (if n % 2 = 0 then x else x / 16)
    else if k.is16 then (unpackN 16 (packedBytes b.data (2048 * n) 2048) 1024).map (value f)
    else
      let xs := unpackN 8 (packedBytes b.data (1024 * n) 1024) 1024
      if b.hasScales ∧ f.isFloat then
        let ss := unpackN 8 (packedBytes b.scales (32 * n) 32) 32
        (xs.zip (List.range 1024)).map fun q => scaled (some (ss.getD (q.2 / 32) 0)) (value f q.1)
      else xs.map (value f)
  align k.g f vs

/-- The dot product of two lists of integers. -/
def dot : List Int → List Int → Int
  | a :: s, b :: t => a * b + dot s t
  | [], _ => 0
  | _ :: _, [] => 0

/-- Rows in which both bits are 1 (R245): plane i of a, plane j of b, in two's complement of the class's width. -/
def bothBits (planes i j : Nat) : List Int → List Int → Nat
  | a :: s, b :: t =>
    (if bit (wrap planes a) i && bit (wrap planes b) j then 1 else 0) + bothBits planes i j s t
  | [], _ => 0
  | _ :: _, [] => 0

/-- T(s) of R250. -/
def errorT (s : Nat) : Nat := if s = 0 then 0 else (s - 1) * 2 ^ s + 1

/-- E_mac(s, W) of R250. -/
def errorMac (s win : Nat) : Nat := win / 64 * errorT s

/-- The sign of plane i of a format (R245). -/
def planeSign (planes i : Nat) (signed : Bool) : Int := if signed && decide (i + 1 = planes) then -1 else 1

/-- A conversion (R248): the converted count's difference from the count n, and whether it clipped. `x` is a free value:
any integer from -E_c to E_c results. -/
def conversion (win n x : Nat) : Int × Bool :=
  let ec := win / 64
  if win < n then ((win : Int) - n, true) else (((x % (2 * ec + 1) : Nat) : Int) - ec, false)

/-- The difference that the analog pairs (i, j) with i + j < s make to the dot product of one macro column group, and
whether one clipped (R245, R248). `free` gives the free value of each pair. -/
def analogPart (planes s win : Nat) (signed : Bool) (free : Nat → Nat) (a b : List Int) : Int × Bool :=
  let pairs := (List.range (min s planes)).flatMap fun i => (List.range (min (s - i) planes)).map fun j => (i, j)
  pairs.foldl (fun r ij =>
    let c := conversion win (bothBits planes ij.1 ij.2 a b) (free (16 * ij.1 + ij.2))
    (r.1 + planeSign planes ij.1 signed * planeSign planes ij.2 true * ((2 ^ (ij.1 + ij.2) : Nat) : Int) * c.1,
      r.2 || c.2)) (0, false)

/-- What the array makes of one row and one weight column: the sum, the error of each of the four macros, and which of
them clipped. The digital part of R245 is exact, so the sum is the dot product and the errors of the analog pairs. -/
structure ColumnSum where
  sum : Int
  /-- the sum in digital mode -/
  exact : Int
  errs : List Int
  clips : List Bool
  deriving DecidableEq, Repr

/-- One output column of one row (R245, R247, R250: four macros chained along K). -/
def columnSum (k : PassClass) (s win : Nat) (signed : Bool) (free : Nat → Nat) (a b : List Int) : ColumnSum :=
  if s = 0 then { sum := dot a b, exact := dot a b, errs := [0, 0, 0, 0], clips := [false, false, false, false] }
  else
    let part (g : Nat) : Int × Bool :=
      analogPart k.planes s win signed (fun x => free (256 * g + x)) ((a.drop (256 * g)).take 256)
        ((b.drop (256 * g)).take 256)
    let ps := (List.range 4).map part
    { sum := dot a b + (ps.map (·.1)).foldl (· + ·) 0, exact := dot a b, errs := ps.map (·.1), clips := ps.map (·.2) }

/-- Digit n of a number in base 16, which gives any sequence of small free values from one. -/
def digit (x n : Nat) : Nat := x / 16 ^ n % 16

/-- A checksum miss in a row (R258): in some macro with no clipped column, the sum of its columns' errors exceeds
G times E_mac. The checksum group itself is formed digitally, and its mantissa sums are exact. -/
def checksumMiss (k : PassClass) (s win : Nat) (cols : List ColumnSum) : Bool :=
  let g := k.n / 4
  (List.range 4).any fun nm => (List.range 4).any fun km =>
    let cs := (cols.drop (g * nm)).take g
    let clipped := cs.any fun c => c.clips.getD km false
    let err : Int := (cs.map fun c => c.errs.getD km 0).foldl (· + ·) 0
    !clipped && decide (g * errorMac s win < err.natAbs)

/-- The cell of an element of a pass's tile (R255, R366): for pass column c the first unit and the column. -/
def passCell (k : PassClass) (p : Pass) (c : Nat) : Nat × Nat :=
  if k.isInt4 then (if c < 256 then (p.u0, c) else (p.u1, c - 256))
  else if k.is16 then (p.u0, 128 * p.ch + c)
  else (p.u0, c)

/-- What a row does at its exit cycle (R254, R260): cells of the accumulator, the row's bound, forwarded values, clips. -/
structure RowOut where
  cells : List (Nat × Nat × Nat)
  /-- the same cells in the auditor's replay (R262) -/
  digital : List (Nat × Nat × Nat)
  row : Nat
  /-- the row's entries of the bound vectors of the units written -/
  bound : Nat
  bound1 : Nat
  fwd : List Nat
  nonFinite : Bool
  clip : Mask
  miss : Bool
  scaleMiss : Bool
  deriving DecidableEq, Repr

/-- Row r of a pass at its exit (R254, R366), computed from the accumulator as it stands before the cycle (R350). -/
def passRow (w : Work) (core : Nat) (p : Pass) (r : Nat) (free : Nat) : RowOut :=
  let cr := w.core core
  let b := cr.wb.get p.wbank {}
  let k := (passClass ((Fmt.ofCode b.fmt).getD .int8)).getD
    { n := 256, cadence := 4, planes := 8, maxSplit := 8, g := 6, is16 := false, isInt4 := false }
  let a := passRowIn w core k p r
  let signed := decide (nestFormat p.img ≠ .uint8)
  let cols := (List.range k.n).map (weightColumn b k)
  let sums := (cols.zip (List.range k.n)).map fun q =>
    columnSum k p.split p.win signed (fun x => digit free (1024 * q.2 + x)) a.mant q.1.mant
  let outs (part : ColumnSum → Int) : List Real := (cols.zip sums).map fun q =>
    if a.nonFinite || q.1.nonFinite then .nan else (Real.ofInt (part q.2)).scale (a.e + q.1.e)
  let ys := outs ColumnSum.sum
  let f := accFmt p.af
  let row := p.row0 + r
  let added (from_ : Core) (vs : List Real) : List (Nat × Nat × Nat) := ((vs.zip (List.range k.n)).map fun q =>
    let pos := passCell k p q.2
    let y := rne f q.1
    let old := from_.tile f pos.1 p.u1 row pos.2
    let v := if p.add then rne f (Real.add (floatValue f old) (floatValue f y)) else y
    if f = .fp32 then [(p.u0, pos.2, v % 2 ^ 16), (p.u1, pos.2, v / 2 ^ 16)] else [(pos.1, pos.2, v)]).flatten
  let cells := added cr ys
  let ecmax := (cols.map (·.e)).foldl max ((cols.head?.map (·.e)).getD 0)
  let bound (u : Nat) : Nat := roundUpF32 (Real.add (floatValue .fp32 (cr.bnd.get (64 * u + row) 0))
    ((Real.ofInt (4 * errorMac p.split p.win : Nat)).scale (a.e + ecmax)))
  let clip := BitVec.ofNat 256 (packN 1 ((List.range 256).map fun c =>
    if (sums.getD c { sum := 0, exact := 0, errs := [], clips := [] }).clips.any id ||
       (k.isInt4 && (sums.getD (c + 256) { sum := 0, exact := 0, errs := [], clips := [] }).clips.any id) then 1 else 0))
  { cells := cells, digital := if p.split = 0 ∧ cr.dig.isEmpty then cells else added cr.digital (outs ColumnSum.exact)
    row := row, bound := bound p.u0, bound1 := bound p.u1, fwd := ys.map (rne .fp32),
    nonFinite := a.nonFinite, clip := clip, miss := checksumMiss k p.split p.win sums,
    scaleMiss := b.scaleMiss || (decide (nestBlk p.img ≠ 0) &&
      scalesDiffer w core (8 * p.seq) p.snap p.reloc p.img (r * rowPositions (nestFormat p.img))
        (rowPositions (nestFormat p.img))) }

/-- What the auditor has to know of a row that a pass has written: how its tile lies, and for a pass that adds, one addition more
in the half rows that it writes (R255, R262). -/
def Core.notePass (c : Core) (p : Pass) (o : RowOut) : Core :=
  let lay := 64 * p.af + 8 * p.u0 + p.u1
  let halves := (o.cells.map fun q => 128 * q.1 + 2 * o.row + q.2.1 / 128).eraseDups
  { c with
    accLay := (c.accLay.set p.u0 lay).set p.u1 lay
    adds := if p.add then halves.foldl (fun t k => t.set k (t.get k 0 + 1)) c.adds else c.adds }

/-- A row's additions in the accumulator and its bound in every unit written (R254, R255). -/
def Core.putRow (c : Core) (p : Pass) (o : RowOut) : Core :=
  let put (x : Core) (cs : List (Nat × Nat × Nat)) : Core := cs.foldl (fun y q => y.setCell q.1 o.row q.2.1 q.2.2) x
  let c0 := put c o.cells
  let c1 := (if c.dig.isEmpty ∧ o.digital = o.cells then c0
    else c0.withDigital (put c.digital o.digital) [64 * p.u0 + o.row, 64 * p.u1 + o.row]).notePass p o
  { c1 with bnd := (c1.bnd.set (64 * p.u0 + o.row) o.bound).set (64 * p.u1 + o.row) o.bound1 }

/-- The pass after a row: one row further, with the row's clips and checks (R249, R258). -/
def Pass.after (p : Pass) (o : RowOut) : Pass :=
  let any := decide (o.clip ≠ 0)
  { p with
    done := p.done + 1
    clipMask := p.clipMask ||| o.clip
    clipLo := if any then (if p.clipped then min p.clipLo o.row else o.row) else p.clipLo
    clipHi := if any then (if p.clipped then max p.clipHi o.row else o.row) else p.clipHi
    clipped := p.clipped || any
    checksumMiss := p.checksumMiss || o.miss
    scaleMiss := p.scaleMiss || o.scaleMiss }

/-- The cycles per row of a pass. -/
def Core.cadenceOf (c : Core) (p : Pass) : Nat :=
  match (Fmt.ofCode (c.wb.get p.wbank {}).fmt).bind passClass with
  | some k => k.cadence
  | none => 4

/-- The cycle x_r at which the next row of a pass leaves the array (R253). -/
def Core.nextExit (c : Core) (p : Pass) : Nat := p.start + 24 + (p.done + 1) * c.cadenceOf p

/-- A forwarded row lands in `mrow.0` to `mrow.3` with its tag (R260, R351). -/
def Ctx.forward (c : Ctx) (p : Pass) (r : Nat) (o : RowOut) : Ctx :=
  let lane (q : Nat) : Vec := packVec 32 (((o.fwd ++ List.replicate 256 0).drop (64 * q)).take 64)
  { c with
    vlat := (((c.vlat.set 4 (lane 0)).set 5 (lane 1)).set 6 (lane 2)).set 7 (lane 3)
    mrowHv := true, mrowRow := r, mrowNf := o.nonFinite, mrowSer := p.fser }

/-- The cause that a completed pass raises, the first of 26, 27, 24 and 25 (R259). -/
def passCause (w : Work) (core : Nat) (p : Pass) : Option Nat :=
  let lim := floatValue .fp32 (w.ctx core p.ctx).bndlim
  let above := (List.range 128).any fun k =>
    let u := if k < 64 then p.u0 else p.u1
    lim.lt (floatValue .fp32 ((w.core core).bnd.get (64 * u + k % 64) 0))
  if p.scaleMiss then some 26
  else if p.checksumMiss then some 27
  else if p.clipped then some 24
  else if above then some 25
  else none

/-- A pass completes (R249, R259): its clip record becomes the core's, and its cause waits for a bundle boundary. -/
def Work.finishPass (w : Work) (core : Nat) (p : Pass) : Work :=
  let w1 := w.updCore core fun c => { c with
    clipMask := p.clipMask, clipLo := p.clipLo, clipHi := p.clipHi, clipAny := p.clipped,
    passes := c.passes.filter fun q => decide (q.seq ≠ p.seq) }
  let w1 := w1.updCtx core p.ctx fun c =>
    { c.count 4 1 with winEnd := if p.fwd then some (w.core core).clk else c.winEnd }
  match passCause w core p with
  | none => w1
  | some cause =>
    let f := w1.free
    f.2.updCtx core p.ctx fun c => { c with after := c.after ++ [(cause, f.1, p.pc, (w.core core).clk)] }

/-- The row of a pass that leaves the array at cycle t, if one does. -/
def duePass (c : Core) (t : Nat) : Option Pass := c.passes.find? fun p => decide (c.nextExit p ≤ t)

/-- Compute a row's exit; with a split above 0 it takes a free value for its conversions (R248). -/
def Work.computeRow (w : Work) (core : Nat) (p : Pass) : RowOut × Work :=
  if p.split = 0 then (passRow w core p p.done 0, w)
  else
    let f := w.free
    (passRow w core p p.done f.1, f.2)

/-- A computed row is added; after the last row the pass completes (R253, R366). -/
def Work.addRow (w : Work) (core : Nat) (p : Pass) (o : RowOut) : Work :=
  let p' := p.after o
  let w1 := w.updCore core fun c => { c.putRow p o with
    passes := c.passes.map fun q => if q.seq = p.seq then p' else q }
  let w2 := if p.fwd then w1.updCtx core p.ctx fun c => c.forward p p.done o else w1
  if p'.done = p.rows then w2.finishPass core p' else w2

/-- The landings of cycle t in both banks, and the pass row that leaves the array at t, which is computed from the
accumulator as it stood before the cycle and remains where both write (R208, R253, R350). -/
def Work.cycle (w : Work) (core t : Nat) : Work :=
  match duePass (w.core core) t with
  | none => (w.landDue core 0 t).landDue core 1 t
  | some p =>
    let r := w.computeRow core p
    ((r.2.landDue core 0 t).landDue core 1 t).addRow core p r.1

/-- Every remaining row of one pass (R227 step 2), each at its exit cycle among the landings of its context: fuel is the
number of rows left. -/
def Work.runPass (core bank seq : Nat) : Nat → Work → Work
  | 0, w => w
  | n + 1, w =>
    match (w.core core).passes.find? fun p => decide (p.seq = seq) with
    | none => w
    | some p =>
      let x := (w.core core).nextExit p
      let r := (w.landDue core bank (x - 1)).computeRow core p
      Work.runPass core bank seq n ((r.2.landDue core bank x).addRow core p r.1)

/-- Every in-flight fixed-latency operation of a context lands, and its passes complete into their accumulators
(R227 step 2). -/
def Work.landAll (w : Work) (core bank : Nat) : Work :=
  let w1 := ((w.core core).passes.filter fun p => decide (p.ctx = bank)).foldl
    (fun a p => Work.runPass core bank p.seq (p.rows - p.done) a) w
  let last := (w1.ctx core bank).flights.foldl (fun a f => max a f.due) 0
  w1.landDue core bank last

/-- A forwarding window is open: a forwarding pass of the context is in flight, or has completed in this cycle, whose bundle is
the window's last (R261). -/
def windowOpen (w : Work) (core bank : Nat) : Bool :=
  ((w.core core).passes.any fun p => p.fwd && decide (p.ctx = bank)) ||
    decide ((w.ctx core bank).winEnd = some (w.core core).clk)

-- The auditor's comparison (R262)

/-- The magnitude of a value. -/
def Real.abs (x : Real) : Real := if x.isNeg then x.neg else x

/-- The unit in the last place of a floating format at a value, at least its smallest subnormal. -/
def unitAt (f : Fmt) (x : Real) : Real :=
  let low : Int := 1 - (f.bias : Int) - f.frac
  .fin false 1 (max ((x.log2.getD low) - f.frac) low)

/-- An element and its replay match (R262): both NaN, equal, or within the bound B and P units in the last place. -/
def auditMatch (f : Fmt) (a b bound p : Nat) : Bool :=
  let x := floatValue f a
  let y := floatValue f b
  let top := if x.abs.lt y.abs then y.abs else x.abs
  let slack := Real.add (floatValue .fp32 bound) (Real.mul (Real.ofInt p) (unitAt f top))
  let diff := (Real.add x y.neg).abs
  (x.isNan && y.isNan) || x.eq y || (!x.isNan && !y.isNan && !diff.isNan && !slack.isNan && !slack.lt diff)

/-- Every element of a row of the accumulator matches its replay. A row whose key is not listed is the same in both. -/
def Core.rowMatches (c : Core) (key : Nat) : Bool :=
  let u := key / 64
  let row := key % 64
  let lay := c.accLay.get u (8 * u + u)
  let f := accFmt (lay / 64)
  let u0 := if f = .fp32 then lay / 8 % 8 else u
  let u1 := if f = .fp32 then lay % 8 else u
  (List.range 256).all fun col =>
    auditMatch f (c.tile f u0 u1 row col) (c.digital.tile f u0 u1 row col) (c.bnd.get key 0)
      (c.adds.get (128 * u + 2 * row + col / 128) 0)

/-- Every element of the units of a mask matches its replay (R262). -/
def Core.auditOk (c : Core) (mask : Nat) : Bool :=
  c.dig.all fun x => !bit mask (x.1 / 64) || c.rowMatches x.1

/-- A bank is bound by a pass in flight or waiting (R252). -/
def Core.bound (c : Core) (b : Nat) : Bool := c.passes.any fun p => decide (p.wbank = b)

/-- A unit is written by a pass in flight or waiting. -/
def Core.writes (c : Core) (u : Nat) : Bool := c.passes.any fun p => decide (p.u0 = u) || decide (p.u1 = u)

end Sys2Proof.Machine
end

