-- ==== Sys2Proof/Machine/Launch.lean ====
section
/-! DEFINITION. The launch table's entries: header fields, work identifiers, quires, how a task retires and how a launch
ends (R128 to R131, R135, R137, R139, R145, R146). -/

namespace Sys2Proof.Machine

/-- n bytes of the header from byte off (Table 6.1). -/
def Launch.hb (l : Launch) (off n : Nat) : Nat := packedBytes l.hdr off n

def Launch.pri (l : Launch) : Nat := l.hb 5 1 % 8
def Launch.rot (l : Launch) : Bool := bit (l.hb 5 1) 3
def Launch.alt (l : Launch) : Bool := bit (l.hb 5 1) 4
def Launch.qlog (l : Launch) : Nat := l.hb 6 1 % 8
def Launch.skew (l : Launch) : Nat := l.hb 7 1 % 16
def Launch.nf (l : Launch) : Nat := l.hb 8 1 % 8
def Launch.tl (l : Launch) : Nat := l.hb 8 1 / 8 % 8
def Launch.next (l : Launch) : Nat := l.hb 9 1 % 32
def Launch.acc (l : Launch) : Nat := l.hb 10 1
def Launch.altacc (l : Launch) : Nat := l.hb 11 1
def Launch.weight (l : Launch) : Nat := l.hb 12 2
def Launch.width (l : Launch) (j : Nat) : Nat := l.hb (15 + j) 1
def Launch.clmask (l : Launch) : Nat := l.hb 32 4
def Launch.lsb (l : Launch) : Nat := l.hb 36 4 % 2 ^ 20
def Launch.lssz (l : Launch) : Nat := l.hb 40 4 % 2 ^ 21
def Launch.altlsb (l : Launch) : Nat := l.hb 44 4 % 2 ^ 20
def Launch.vtab (l : Launch) : Nat := l.hb 48 8
def Launch.vcount (l : Launch) : Nat := l.hb 56 1
def Launch.audk (l : Launch) : Nat := l.hb 57 1
def Launch.extt (l : Launch) : Nat := l.hb 72 8
def Launch.din (l : Launch) : Nat := l.hb 80 8
def Launch.dinbase (l : Launch) : Nat := l.hb 88 8
def Launch.dinstep (l : Launch) : Nat := l.hb 96 8
def Launch.dout (l : Launch) : Nat := l.hb 104 8

/-- The launch runs work on its gang: it is running, or it has failed and its last tasks still run (R135). -/
def Launch.live (l : Launch) : Bool := decide (l.st = 2) || (decide (l.st = 4) && !l.ended)

/-- The launch's ebb is open on its gang. -/
def Launch.inEbb (l : Launch) : Bool :=
  l.live && (match l.phase with
    | .ebb => true
    | .dependence _ => false
    | .flood => false
    | .barrier _ => false)

/-- The initial limits; those of the quarantine class where lower (R99, R129). -/
def Launch.frzlim (l : Launch) : Nat := if l.quarantine then min (l.hb 60 4) 65536 else l.hb 60 4
def Launch.qwait (l : Launch) : Nat := if l.quarantine then min (l.hb 64 4) 65536 else l.hb 64 4

/-- The barrier time limit in microseconds (R99, R129). -/
def Launch.barlim (l : Launch) : Nat := if l.quarantine then min (l.hb 68 4) 1000 else l.hb 68 4

/-- Bits of a work identifier below the task level: S_TL (R130). -/
def Launch.taskShift (l : Launch) : Nat := ((List.range (l.tl - 1)).map fun j => l.width (j + 1)).foldl (· + ·) 0

/-- The number of tasks N (R130). -/
def Launch.tasks (l : Launch) : Nat := (l.extent + 2 ^ l.taskShift - 1) / 2 ^ l.taskShift

/-- First and last work identifier of a task (R130). -/
def Launch.firstId (l : Launch) (t : Nat) : Nat := t * 2 ^ l.taskShift
def Launch.lastId (l : Launch) (t : Nat) : Nat := min ((t + 1) * 2 ^ l.taskShift) l.extent - 1

/-- The launch table entry. -/
def Dev.launch (d : Dev) (ix : Nat) : Launch := d.launches.get ix {}

/-- Change a launch table entry. -/
def Work.updLaunch (w : Work) (ix : Nat) (f : Launch → Launch) : Work :=
  w.mapDev fun d => { d with launches := d.launches.set ix (f (d.launch ix)) }

/-- The quire that a core's context belongs to: its core numbers, the lead first; in an ebb the core alone (R139,
R144). -/
def quireOf (d : Dev) (core bank : Nat) : List Nat :=
  let c := d.ctx core bank
  if c.ebb then [core]
  else (((d.launch c.ix).gang.find? fun q => q.contains core).getD [core])

/-- A context holds a task or ebb of a launch. -/
def Ctx.busy (c : Ctx) : Bool :=
  match c.st with
  | .idle => false
  | .reported => false
  | .ready => true
  | .parked _ => true
  | .entering _ => true

/-- The contexts, as core and bank, that hold work of a launch. -/
def running (d : Dev) (ix : Nat) : List (Nat × Nat) :=
  (d.ctxs.filter fun p => p.2.busy && decide (p.2.ix = ix)).map fun p => (p.1 / 2, p.1 % 2)

/-- A logical time not below any agent's accesses, at which a device write with release is performed (R89). -/
def releaseTime (d : Dev) : Nat :=
  d.agents.foldl (fun a p => max a p.2) (d.ctxs.foldl (fun a p => max a (max p.2.lts p.2.engLts)) d.coh.floor)

/-- The partition may have work done for it: it is Running, or it is that of unowned resources (R63). -/
def Dev.partRuns (d : Dev) (part : Nat) : Bool := decide (16 ≤ part) || decide ((d.partOf part).st = 3)

/-- The asker for the device's own accesses on behalf of a partition, made from a die. -/
def deviceAsker (d : Dev) (part die : Nat) : Asker := { part := part, sec := (d.partOf part).world, die := die }

/-- An agent's logical time rises (R188). -/
def Work.raiseAgent (w : Work) (agent t : Nat) : Work :=
  w.mapDev fun d => { d with agents := d.agents.set agent (max (d.agents.get agent 0) t) }

/-- A completion word written whole by the front end of a die, as a copy engine writes its word (R89, R356), whose time rises to that of the write (R188): one at or above
2^56, or one that does not translate or is not reached, is entered in the error ring. -/
def Work.writeCompletion (w : Work) (part die va code : Nat) : Work :=
  if va = 0 then w
  else if 2 ^ 56 ≤ va then w.logError 9 part (20480 + die) va
  else match translate w (deviceAsker w.dev part die) [.write] va with
  | .error e => (w.awaits e).logError (e.cause 9) part (20480 + die) va
  | .ok x =>
    if reachFault w.dev die x.pa ≠ 0 then w.logError (reachFault w.dev die x.pa) part (20480 + die) va
    else if regionOf x.pa = .peer then w
    else
      let r := w.cohWrite (releaseTime w.dev) x.pa 8 (if code = 0 then 2 ^ 40 else 2 ^ 41 + 2 ^ 48 * code)
      r.2.raiseAgent (20480 + die) r.1

/-- A COMPLETION record (R101). -/
def completionRec (part handle seq code cword : Nat) (stream : Option Nat) : EventRec :=
  { part := part, kind := 0x90, stream := stream,
    body := handle % 2 ^ 64 + 2 ^ 64 * (seq % 2 ^ 32) + 2 ^ 96 * (code % 2 ^ 16) + 2 ^ 128 * cword }

/-- The reset value of cw.l2div (Table 7.5). -/
def l2divReset : Nat := 0x21084000

/-- The contexts that ran tasks of a launch that has ended keep no tie to it (R131), and their claims end (R172). -/
def Work.forgetLaunch (w : Work) (ix : Nat) : Work :=
  (w.dev.ctxs.filter fun p => decide (p.2.lastIx = some ix)).foldl (fun a p =>
    (a.setClaim (p.1 / 2) (p.1 % 2) l2divReset).updCtx (p.1 / 2) (p.1 % 2) fun c =>
      { c with lastIx := none, st := if c.st = .reported then .idle else c.st, ebb := c.ebb && c.busy }) w

/-- An asynchronous packet of a stream has completed (R90). -/
def Dev.asyncDone (d : Dev) (q : Nat) : Tab Stream :=
  let s := d.streams.get q {}
  d.streams.set q { s with async := s.async - 1 }

/-- A launch ends with an outcome, in the order of R146: its completion word, its COMPLETION record if EVT, and then its
entry freed, which waits until the record is placed. A cause that no completion word can carry enters the error ring
(R88). -/
def Work.endLaunch (w0 : Work) (ix code : Nat) : Work :=
  let w := w0.forgetLaunch ix
  let l := w.dev.launch ix
  if l.ended then w
  else
    let w1 := if l.cword = 0 ∧ code ≠ 0 ∧ code < 0x100 then w.logError code l.part (20480 + l.die) l.hdrVa
      else w.writeCompletion l.part l.die l.cword code
    w1.mapDev fun d => { d with
      launches := if l.evt then
          d.launches.set ix { l with ended := true, gang := [], ranges := [], held := [], again := [], saved := [],
                                     audits := [], steals := [], kept := [] }
        else d.launches.del ix
      events := if l.evt then
          d.events ++ [{ completionRec l.part l.queue l.seq code l.cword (some l.q) with
                         frees := some ix }]
        else d.events
      nodeEnds := match l.node with
        | some n => d.nodeEnds ++ [(n.1, n.2, code)]
        | none => d.nodeEnds
      streams := if l.node.isSome then d.streams else d.asyncDone l.q }

/-- A failed launch whose tasks have all retired or been cancelled ends (R135, R146). -/
def Work.settleLaunch (w : Work) (ix : Nat) : Work :=
  let l := w.dev.launch ix
  if l.st = 4 ∧ l.ended = false ∧ (running w.dev ix).isEmpty then w.endLaunch ix l.fail else w

/-- A launch fails: its tasks not running are cancelled, and its first failure decides its outcome (R135, R146). -/
def Work.failLaunch (w : Work) (ix code : Nat) : Work :=
  let l := w.dev.launch ix
  if l.ended then w
  else if l.st = 1 ∨ l.st = 2 then
    (w.updLaunch ix fun x => { x with
      st := 4, fail := code, ranges := x.ranges.map fun r => (r.1, (r.2.2, r.2.2)), held := [], again := [],
      saved := [], audits := [], steals := [] }).settleLaunch ix
  else w.settleLaunch ix

/-- A bank of a core becomes idle: its bindings end (R107), and its registers stay for the launch's next task (R131). -/
def Ctx.release (c : Ctx) : Ctx :=
  { c with st := .idle, lastIx := some c.ix, qb := [], flights := [], outs := [], accs := [], qops := [], packets := [], replay := [],
           requeue := [], second := [], after := [], winEnd := none, br := none, loop := { ctr := c.loop.ctr }, freeze := none,
           sync := none, syncGo := none, ebb := false, hist := [], below := [], lvl := 0, ppend := 0, lbuf := [], ext := [] }

/-- A context that may issue when its bank has the sequencer (R148, R225). -/
def Ctx.runnable (c : Ctx) : Bool :=
  match c.st with
  | .ready => true
  | .parked (.woken _) => true
  | .parked (.queue _) => false
  | .parked (.line _ _ _) => false
  | .parked (.walk _ _ _) => false
  | .idle => false
  | .entering _ => false
  | .reported => false

/-- After bank b of the cores of a quire has left the sequencers, the other bank gets them 8 cycles later, if every
member holds a runnable context there (R139, R148, R224). -/
def Work.handOver (w : Work) (cores : List Nat) (b : Nat) : Work :=
  if cores.all fun k => (w.ctx k (1 - b)).runnable then
    cores.foldl (fun a k => a.updCore k fun c => { c with cur := 1 - b, goAt := c.raw + 8 }) w
  else w

/-- Every fixed-latency result in flight of a context has landed. -/
def Work.landFlights (w : Work) (core bank : Nat) : Work :=
  w.landDue core bank ((w.ctx core bank).flights.foldl (fun a f => max a f.due) 0)

/-- The operations of a context that still wait at their homes leave their queues (notes/assumptions/24.md). -/
def Work.leaveQueues (w : Work) (core bank : Nat) : Work :=
  (w.ctx core bank).qops.foldl (fun a q => if q.waiting.isSome then a.withdraw q.cb core bank q.id else a) w

/-- A quiesce that a context leaves unfinished is over: its commands go on (R387). -/
def Core.endQuiesce (c : Core) (bank : Nat) : Core :=
  let item (x : EngineItem) : EngineItem := match x with
    | .cmd y => .cmd (if y.ctx = bank then { y with stopped := false } else y)
    | .fence o b => .fence o b
  if c.qui.any fun x => decide (x.2 = bank) then
    { c with qui := c.qui.filter fun x => decide (x.2 ≠ bank), ce := c.ce.map fun p => (p.1, p.2.map item) }
  else c

/-- The bank of one core becomes idle; once every member's has, the other bank may run (R139, R145, R148). -/
def Work.releaseOne (w : Work) (quire : List Nat) (bank core : Nat) : Work :=
  let w1 := (((w.landFlights core bank).leaveQueues core bank).updCtx core bank Ctx.release).updCore core fun c => c.endQuiesce bank
  if quire.any fun k => (w1.ctx k bank).busy then w1 else w1.handOver quire bank

/-- The banks of a quire become idle (R139, R145). -/
def Work.releaseQuire (w : Work) (cores : List Nat) (bank : Nat) : Work :=
  cores.foldl (fun a k => a.releaseOne cores bank k) w

/-- Whether the auditor picks a task (R145): one in 2^AUDK at random; 255 picks none. -/
def audited (l : Launch) (x : Nat) : Bool := decide (l.audk ≤ 16) && decide (x % 2 ^ l.audk = 0)

/-- The units that a context's declared units name as applied, as a mask (R148). -/
def Ctx.unitMask (c : Ctx) : Nat := if c.alt then c.altacc else c.acc

/-- Every element of a member's accumulator matches what the auditor's replay in digital mode makes of it (R262). -/
def memberOk (w : Work) (core bank : Nat) : Bool := (w.core core).auditOk (w.ctx core bank).unitMask

/-- A task is counted as retired on its cluster, and may be chosen for audit (R145), with what the comparison of its lead's
elements gives (R262). -/
def Work.countRetired (w : Work) (ix t lead bank : Nat) : Work :=
  let l := w.dev.launch ix
  let cl := coreCluster lead
  if l.audk ≤ 16 ∧ l.st = 2 then
    let f := w.free
    f.2.updLaunch ix fun x => { x with
      ret := x.ret.set cl (x.ret.get cl 0 + 1)
      audits := if audited l f.1 then x.audits ++ [{ kind := 0, subject := t, core := lead, ok := memberOk w lead bank }]
        else x.audits }
  else w.updLaunch ix fun x => { x with ret := x.ret.set cl (x.ret.get cl 0 + 1) }

/-- The elements of a follower's accumulator join the comparison of its task (R262). -/
def Work.countFollower (w : Work) (ix t lead : Nat) (ok : Bool) : Work :=
  if ok then w
  else w.updLaunch ix fun x => { x with
    audits := x.audits.map fun a =>
      if a.kind = 0 ∧ a.subject = t ∧ a.core = lead then { a with ok := false } else a }

/-- A member issues the task-ending instruction: the lead's issue retires the task, and every member's bank becomes idle
at its own skewed cycle (R139, R145). -/
def Work.retireMember (w : Work) (core bank : Nat) (follows : Bool) : Work :=
  let c := w.ctx core bank
  let w1 := w.releaseOne (quireOf w.dev core bank) bank core
  (if follows then w1.countFollower c.ix c.task.toNat c.lead (memberOk w core bank)
    else w1.countRetired c.ix c.task.toNat core bank).settleLaunch c.ix

/-- Broadcast loads that not every member of a quire will accept any more leave the stream (notes/assumptions/27.md). -/
def Work.dropBroadcasts (w : Work) (cores : List Nat) (bank : Nat) : Work :=
  cores.foldl (fun a k => a.updCore k fun c => { c with
    strm := c.strm.filter fun x => !(decide (x.ctx = bank) && x.grp.isSome && !x.started) }) w

/-- A finished engine command may be chosen for audit (R145): its kind and its completion word's address. -/
def Work.auditCommand (w : Work) (core bank kind subject : Nat) : Work :=
  let c := w.ctx core bank
  let l := w.dev.launch c.ix
  if c.busy ∧ l.audk ≤ 16 ∧ l.st = 2 then
    let f := w.free
    if audited l f.1 then f.2.updLaunch c.ix fun x => { x with
      audits := x.audits ++ [{ kind := kind, subject := subject, core := core }] } else f.2
  else w

/-- The task or ebb of a quire ends by a fault, and its launch fails (R146, R231). -/
def Work.endTask (w : Work) (core bank code : Nat) : Work :=
  let c := w.ctx core bank
  let q := quireOf w.dev core bank
  let w1 := (w.releaseQuire q bank).dropBroadcasts q bank
  w1.failLaunch c.ix code

end Sys2Proof.Machine
end

