-- ==== Sys2Proof/Machine/Agent.lean ====
section
/-! DEFINITION. Accesses to coherent memory by agents that are no contexts and no engines of a core: host, guest, peers,
front end, scheduler and copy service (R185, R188, R190, R205). -/

namespace Sys2Proof.Machine

/-- The lease of every agent that is not a context (R188). -/
def agentLease : Nat := 16

/-- The numbers of the agents (R190), by which accesses with equal logical times are ordered. -/
def ctxAgent (core bank : Nat) : Nat := 2 * core + bank
def engineAgent (core engine : Nat) : Nat := 1024 + 2 * core + engine
def sliceAgent (slice : Nat) : Nat := 2048 + slice
def bankAgent (column j : Nat) : Nat := 4096 + 32 * column + j
def feAgent (die : Nat) : Nat := 20480 + die
def svcAgent (die : Nat) : Nat := 20484 + die
def swapAgent (die : Nat) : Nat := 20488 + die
def hostAgent : Nat := 20492
def guestAgent : Nat := 20493
def portAgent (port : Nat) : Nat := 20494 + port
def streamAgent (core : Nat) : Nat := 20512 + core

/-- Where the times are kept of the CXL.io requests of a function, which are not ordered against its CXL.mem requests
(R206); no agent of R190 has the number. -/
def ioAgent (fn : Nat) : Nat := 21024 + fn

/-- An access of an agent at a logical time comes before another in the one order of ordinary accesses (R186, R190): by
time, then by agent number. -/
def orderedBefore (t a t' a' : Nat) : Bool := decide (t < t') || (decide (t = t') && decide (a < a'))

/-- An agent's logical time, not below the package floor (R191). -/
def Dev.agentTime (d : Dev) (agent : Nat) : Nat := max (d.agents.get agent 0) d.coh.floor

/-- A read of n bytes of physical memory by an agent, piece by piece of a line, at the home, whose lease end rises by the
agent's lease from the time that it had (R188): fuel bounds the lines. -/
def Work.agentRead (agent : Nat) : Nat → Nat → Nat → Work → Nat × Work
  | 0, _, _, w => (0, w)
  | k + 1, pa, n, w =>
    if n = 0 then (0, w)
    else
      let m := min n (64 - pa % 64)
      let t := w.dev.agentTime agent
      let w1 := (w.lease t agentLease (pa / 64)).raiseAgent agent (max t (w.dev.coh.line (pa / 64)).wts)
      let r := Work.agentRead agent k (pa + m) (n - m) w1
      (w.pread pa m + 2 ^ (8 * m) * r.1, r.2)

/-- A write of n bytes of physical memory by an agent, line by line (R188). -/
def Work.agentWrite (agent : Nat) : Nat → Nat → Nat → Nat → Work → Work
  | 0, _, _, _, w => w
  | k + 1, pa, n, v, w =>
    if n = 0 then w
    else
      let m := min n (64 - pa % 64)
      let r := w.cohWrite (w.dev.agentTime agent) pa m (v % 2 ^ (8 * m))
      Work.agentWrite agent k (pa + m) (n - m) (v / 2 ^ (8 * m)) (r.2.raiseAgent agent r.1)

/-- The lines that n bytes from an address touch. -/
def linesOf (pa n : Nat) : List Nat :=
  if n = 0 then [] else (List.range ((pa + n - 1) / 64 - pa / 64 + 1)).map fun k => pa / 64 + k

/-- Some of the bytes carry a poison mark. -/
def anyPoison (w : Work) (pa n : Nat) : Bool :=
  (linesOf pa n).any fun l => decide (w.poisonAt (64 * l) 64 ≠ 0)

/-- A request from outside to some bytes waits for one of their lines (R24, R50, R76, R78, R141, R163). -/
def outsideWaits (d : Dev) (pa n : Nat) (write : Bool) : Bool :=
  (linesOf pa n).any fun l => if write then writeWaits d l else readWaits d l

/-- The host waits for none of its own copies: what is left to wait for is busy homes, the guest, and, for a write, what
depends on the line. -/
def hostWaits (d : Dev) (pa n : Nat) (write : Bool) : Bool :=
  outsideWaits { d with host := { d.host with dir := [] } } pa n write

/-- What has to be asked for so that an access to a line can go on: the guest is sent a snoop of a line it holds, to answer
within 2 us, and its translations that came from the line are recalled (R50, R53, R163). -/
def Work.askFor (w : Work) (l : Nat) : Work :=
  let w1 := if guestHolds w.dev l ∧ (w.dev.sock.snoops.all fun s => decide (s.1 ≠ l)) then
      w.mapDev fun d => { d with sock := { d.sock with snoops := d.sock.snoops ++ [(l, d.now + 1200)] } }
    else w
  w1.mapDev fun d => { d with sock := { d.sock with
    tlb := d.sock.tlb.filter fun e => !e.lines.contains l
    stale := d.sock.stale ++ d.sock.tlb.filter fun e => e.lines.contains l } }

/-- What waits on the lines of some bytes is asked for (R50, R163). -/
def Work.snoopLines (w : Work) (pa n : Nat) : Work := (linesOf pa n).foldl Work.askFor w

/-- The answer to the last request from outside. -/
def Work.reply (w : Work) (r : Reply) : Work :=
  w.mapDev fun d => { d with host := { d.host with reply := r } }

/-- A request from outside waits (R50, R78): kind 0 host, 1 guest, 2 a peer port. -/
def Work.askAgain (w : Work) (kind port : Nat) (r : MemReq) : Work :=
  w.mapDev fun d => { d with asks := d.asks ++
    [{ kind := kind, port := port, addr := r.addr, len := r.len, act := r.kind, data := r.data, agent := r.agent }] }

/-- A waiting request as it was made. -/
def Ask.req (a : Ask) : MemReq := { agent := a.agent, addr := a.addr, len := a.len, kind := a.act, data := a.data }

/-- A range of addresses lies in stacked memory that is powered, or, for the host, in the host window, and is reached: the
fault otherwise. -/
def rangeFault (d : Dev) (die pa n : Nat) (host : Bool) : Nat :=
  (linesOf pa n).foldl (fun f l =>
    let a := 64 * l
    if f ≠ 0 then f
    else if host ∧ regionOf a = .host then 0
    else if regionOf a ≠ .stacked then 14
    else if (d.column (columnOf a)).layers ≤ layerOf a then 14
    else reachFault d die a) 0

/-- The granules that some bytes touch. -/
def granulesOf (pa n : Nat) : List Nat :=
  if n = 0 then [] else (List.range (granuleOf (pa + n - 1) - granuleOf pa + 1)).map fun k => granuleOf pa + k

/-- A private granule lies among some bytes (R166). -/
def anyPrivate (d : Dev) (pa n : Nat) : Bool := (granulesOf pa n).any fun g => decide (privateTag d (g * 2 ^ 21) ≠ 0)

/-- A secure granule lies among some bytes (R69). -/
def anySecure (d : Dev) (pa n : Nat) : Bool := (granulesOf pa n).any fun g => inRanges d.secGran g

/-- An access to stacked memory by an outside agent on a die: read or write, with its answer (R185, R205). A host access
to a slice's dirty or leased line is served at its home, which holds the line's data (R76). -/
def Work.outsideAccess (w : Work) (agent : Nat) (req : MemReq) (err : Reply) : Work :=
  if req.kind = 0 then
    let r := Work.agentRead agent (req.len / 64 + 2) req.addr req.len w
    r.2.reply (if anyPoison w req.addr req.len then .poisoned else .value r.1)
  else if req.kind = 1 then (Work.agentWrite agent (req.len / 64 + 2) req.addr req.len req.data w).reply .done
  else w.reply err

end Sys2Proof.Machine
end

