-- ==== Sys2Proof/Machine/Flags.lean ====
section
/-! DEFINITION. The flag-like results of the scalar and vector forms: predicates, comparison masks and the counting
forms (R299, R300, R337). The part has no arithmetic flag register (R238). -/

namespace Sys2Proof.Machine

/-- The conditions of the predicate forms (R300). -/
inductive Cond where
  | eq | ne | lt | ltu | le | leu | test
  deriving DecidableEq, Repr

/-- The predicate a comparison writes (R300). -/
def Cond.holds (k : Cond) (a b : Word) : Bool :=
  match k with
  | .eq => decide (a = b)
  | .ne => decide (a ≠ b)
  | .lt => a.slt b
  | .ltu => a.ult b
  | .le => a.sle b
  | .leu => a.ule b
  | .test => decide (a &&& b ≠ 0)

/-- The conditions of `vcmp` (R337). -/
inductive VCond where
  | eq | ne | lt | le
  deriving DecidableEq, Repr

/-- Whether an element compares true; a NaN makes all but `ne` false (R337). -/
def VCond.holds (k : VCond) (a b : Real) : Bool :=
  match k with
  | .eq => a.eq b
  | .ne => !(a.eq b)
  | .lt => a.lt b
  | .le => a.lt b || a.eq b

/-- The conditions of `br`: Q 0 to 3 (Table 11.1). -/
def branchTaken (q : BitVec 2) (a : Word) : Bool :=
  match q.toNat with
  | 0 => decide (a = 0)
  | 1 => decide (a ≠ 0)
  | 2 => a.slt 0
  | _ => !(a.slt 0)

/-- Leading zero bits of a 64-bit value (R299). -/
def clz64 (a : Word) : Nat := 64 - bitLen a.toNat

/-- Trailing zero bits, counted over n bits. -/
def ctzFrom : Nat → Nat → Nat
  | 0, _ => 0
  | n + 1, x => if x % 2 = 1 then 0 else 1 + ctzFrom n (x / 2)

/-- One bits, counted over n bits. -/
def popFrom : Nat → Nat → Nat
  | 0, _ => 0
  | n + 1, x => x % 2 + popFrom n (x / 2)

end Sys2Proof.Machine
end

