-- ==== Sys2Proof/Machine/Ops.lean ====
section
/-! DEFINITION. Taking an exception and returning from one (R224, R226 to R231), and how the meaning of a slot form
becomes a step (R226, R418). -/

namespace Sys2Proof.Machine

-- The status word and the frames

/-- cw.status (Table 9.2). -/
def Ctx.statusWord (c : Ctx) (bank : Nat) (fwin : Bool) : Nat :=
  c.lvl + 4 * bank + (if c.sec then 8 else 0) + 16 * c.plvl + (if fwin then 64 else 0) +
    (if c.ppend = 0 then 0 else 128)

/-- A trap frame exists: LSSZ is at least 32 KiB (Table 9.2, R231). -/
def Ctx.hasFrame (c : Ctx) : Bool := decide (32768 ≤ c.lssz)

/-- The local-store address of the frame of a level (R228), relocated as every address of the context (R148). -/
def Ctx.frameAt (c : Ctx) (lvl : Nat) : Nat := c.relocate (c.tframe + if lvl = 2 then 16384 else 0)

/-- cw.epc shows bits [55:5] of a bundle address (Table 9.2). -/
def epcBits (a : Nat) : Nat := bits a 55 5 * 32

/-- The poison-mark key of latch n in the order of Table 9.3: nine scalar and four vector latches. -/
def latchMark (n : Nat) : Nat := if n < 9 then 64 + n else 80 + (n - 9)

/-- The pending branch as the frame records it: only a taken branch whose delay bundles have not all issued is pending
(R222; notes/assumptions/20.md). -/
def branchWord (b : Option Branch) : Nat :=
  match b with
  | none => 0
  | some x => if x.taken ∧ x.left ≠ 0 then 1 + 2 * (x.left % 4) + bits x.target 55 5 * 32 else 0

/-- A list of fields written into local store: offset, bytes, value. -/
def putFields (w : Work) (core base : Nat) (fs : List (Nat × Nat × Nat)) : Work :=
  fs.foldl (fun a f => a.lsPut core (base + f.1) f.2.1 f.2.2) w

/-- The loop state as the frame and the save area record it (Table 9.3): lc0 to lc5, start, end, open. -/
def loopFields (l : Loop) (off : Nat) : List (Nat × Nat × Nat) :=
  ((List.range 6).map fun i => (off + 4 * i, 4, l.ctr.getD i 0)) ++
    [(off + 24, 8, l.start), (off + 32, 8, l.stop), (off + 40, 24, if l.isOpen then 1 else 0)]

/-- The loop bounds (Table 9.3, offset 0x0B80). -/
def boundFields (l : Loop) (off : Nat) : List (Nat × Nat × Nat) :=
  (off, 4, l.counts.length) :: ((List.range 6).map fun d => (off + 4 + 4 * d, 4, l.counts.getD d 0)) ++
    [(off + 28, 4, 0)]

/-- A withdrawn queue operation as R124 lays it out. -/
def requeueFields (off : Nat) (q : Requeue) : List (Nat × Nat × Nat) :=
  [(off, 8, q.pc), (off + 8, 1, q.bnd), (off + 9, 1, q.form), (off + 10, 6, q.ld), (off + 16, 8, q.arg.toNat)]

/-- Entries of a list with their places. -/
def indexed {α : Type} (xs : List α) : List (Nat × α) := (List.range xs.length).zip xs

/-- The fields of a trap frame (Table 9.3). -/
def frameFields (c : Ctx) (bank : Nat) (fwin : Bool) (e : Entry) (replay : List Replay) (requeue : List Requeue) :
    List (Nat × Nat × Nat) :=
  [(0x0000, 8, e.resume), (0x0008, 8, branchWord c.br), (0x0010, 8, e.cause + e.extra), (0x0018, 8, e.tval),
    (0x0020, 8, epcBits e.epc), (0x0028, 8, c.statusWord bank fwin), (0x0030, 1, replay.length),
    (0x0031, 1, if fwin then 1 else 0)] ++
  ((indexed replay).flatMap fun x =>
    [(0x40 + 32 * x.1, 8, x.2.pc), (0x48 + 32 * x.1, 4, x.2.word.toNat), (0x4C + 32 * x.1, 1, x.2.ld),
      (0x50 + 32 * x.1, 8, x.2.operand.toNat), (0x58 + 32 * x.1, 8, x.2.trigger.toNat)]) ++
  ((List.range 9).map fun n => (0x140 + 8 * n, 8, (c.latch n).toNat)) ++
  [(0x188, 8, packN 1 ((List.range 64).map fun n => if c.marked n = 0 then 0 else 1)),
    (0x190, 8, packN 1 ((List.range 13).map fun n => if c.marked (latchMark n) = 0 then 0 else 1))] ++
  ((List.range 9).map fun n => (0x1C0 + 8 * n, 8, (c.port.get n 0).toNat)) ++
  ((List.range 64).map fun n => (0x240 + n, 1, c.marked n)) ++
  ((List.range 16).map fun n => (0x280 + n, 1, if n < 13 then c.marked (latchMark n) else 0)) ++
  ((List.range 4).map fun n => (0x400 + 256 * n, 256, (c.vlatch n).toNat)) ++
  ((List.range 2).map fun n => (0x800 + 256 * n, 256, (c.vport.get n 0).toNat)) ++
  loopFields c.loop 0xA00 ++
  [(0xA40, 8, requeue.length)] ++
  ((indexed requeue).flatMap fun x => requeueFields (0xA48 + 24 * x.1) x.2) ++
  boundFields c.loop 0xB80

-- Trap entry

/-- The place of a delegable cause in DEL (Table 9.2). -/
def delegable (cause : Nat) : Option Nat :=
  match cause with
  | 16 => some 0
  | 17 => some 1
  | 24 => some 2
  | 25 => some 3
  | 56 => some 4
  | _ => none

/-- The level at which a trap raised now is taken (R229); none where it ends the task (R231). -/
def Ctx.trapLevel (c : Ctx) (cause : Nat) : Option Nat :=
  let deleg : Bool := match delegable cause with
    | some n => bit c.tdel.toNat n
    | none => false
  if c.hasFrame = false ∨ c.lvl = 2 then none
  else if c.lvl = 0 ∧ deleg = true then some 1
  else if c.handler = false then none
  else some 2

/-- A cancelled load of the replay list (R227 step 3). -/
def Outstanding.replay (o : Outstanding) : Replay :=
  { pc := o.pc, word := o.word, ld := o.ld, operand := o.operand, trigger := o.trigger }

/-- An outstanding load. -/
def Outstanding.isLoad (o : Outstanding) : Bool :=
  match o.kind with
  | .load => true
  | .atomic => false
  | .queue => false
  | .word _ => false

/-- Outstanding loads are cancelled and enter the replay list (R227 step 3). -/
def Work.cancelLoads (w : Work) (core bank : Nat) : Work :=
  w.updCtx core bank fun c =>
    let ls := c.outs.filter Outstanding.isLoad
    let ids := ls.map (·.id)
    { c with
      replay := (ls.map Outstanding.replay) ++ c.replay
      outs := c.outs.filter fun o => !o.isLoad
      accs := c.accs.filter fun a => match a.kind with
        | .load _ _ id => !ids.contains id
        | .store _ _ => true
        | .atomic _ _ _ _ _ _ => true
        | .prefetch _ => true
        | .range _ _ => true
        | .publish _ _ _ => true }

/-- The word of an outstanding `bw.wait` as it stands now (R328). -/
def Work.wordNow (w : Work) (core bank va : Nat) : Arrived :=
  let c := w.ctx core bank
  match translate w { part := c.part, sec := c.sec, die := coreDie core } [.read] va with
  | .error e => { val := 0, mark := e.cause 8, fault := some (e.cause 8, va) }
  | .ok x => { val := BitVec.ofNat 64 (w.pread x.pa 8), lts := (w.dev.coh.line (x.pa / 64)).wts }

/-- The line that a read of the word of an outstanding `bw.wait` waits for (R24, R50, R76, R78). -/
def Work.wordBusy (w : Work) (core bank va : Nat) : Option Nat :=
  let c := w.ctx core bank
  match translate w { part := c.part, sec := c.sec, die := coreDie core } [.read] va with
  | .error (.busy l) => some l
  | .error (.absent _) => none
  | .error .malformed => none
  | .error (.refused _) => none
  | .ok x => firstBusy w.dev [x.pa / 64]

/-- The line that a landing of an operation at trap entry waits for. -/
def Outstanding.busy (w : Work) (core bank : Nat) (o : Outstanding) : Option Nat :=
  match o.kind, o.res with
  | .word va, none => w.wordBusy core bank va
  | .word _, some _ => none
  | .load, _ => none
  | .atomic, _ => none
  | .queue, _ => none

/-- An operation put before the first with a later landing cycle. -/
def insertOut (o : Outstanding) : List Outstanding → List Outstanding
  | [] => [o]
  | x :: t => if o.due < x.due then o :: x :: t else x :: insertOut o t

/-- Outstanding operations by landing cycle, in issue order where they are equal. -/
def sortOuts (os : List Outstanding) : List Outstanding := os.foldl (fun a o => insertOut o a) []

/-- Outstanding atomics, words and performed queue operations land (R227 step 4), in the order of their landing cycles; a
landing-time fault waits as a second trap. Fuel is the number of outstanding operations. -/
def landReady (core bank : Nat) : Nat → Work → Work
  | 0, w => w
  | n + 1, w =>
    let c := w.ctx core bank
    let pick : Option (Outstanding × Arrived) := (sortOuts c.outs).findSome? fun o =>
      match o.res, o.kind with
      | some a, _ => some (o, a)
      | none, .word va => some (o, w.wordNow core bank va)
      | none, .load => none
      | none, .atomic => none
      | none, .queue => none
    match c.outs.findSome? fun o => o.busy w core bank with
    | some l => w.waitFor true l
    | none =>
    match pick with
    | none => w
    | some (o, a) =>
      let w1 := w.landOut core bank o a
      let w2 := match a.fault with
        | none => w1
        | some f => w1.updCtx core bank fun x => { x with second := x.second ++ [(f.1, f.2, o.pc, true)] }
      landReady core bank n w2

/-- Steps 1 to 5 of R227, but for queue operations still waiting. -/
def Work.settleContext (w : Work) (core bank : Nat) : Work :=
  let w1 := (w.landAll core bank).cancelLoads core bank
  let w2 := Work.performAll core bank (w1.ctx core bank).accs.length w1
  let w3 := landReady core bank (w2.ctx core bank).outs.length w2
  w3.updCtx core bank fun c => { c with
    second := c.second ++ c.late.map fun f => (f.1, f.2.1, f.2.2, false)
    late := []
    freeze := none, sync := none, syncGo := none, winEnd := none }

/-- The queue operations of a context still at their homes are withdrawn and listed, in issue order: before those that an
unfinished re-issue still owes (R123, R124). A `qbind` or a `cp.q` that its home has not answered goes on waiting for the answer (R309, R384). -/
def Work.withdrawAll (w : Work) (core bank : Nat) : Work :=
  let qs := (w.ctx core bank).qops
  let w1 := qs.foldl (fun a q => if q.waiting.isSome then a.withdraw q.cb core bank q.id else a) w
  w1.updCtx core bank fun c => { c with
    qops := qs.filter fun q => decide (q.form = 0x40) || decide (q.form = 8)
    outs := c.outs.filter fun o => match o.kind with
      | .queue => false
      | .load => true
      | .atomic => true
      | .word _ => true
    requeue := ((qs.filter fun q => decide (q.form ≠ 0x40) && decide (q.form ≠ 8)).map fun q =>
      { pc := q.pc, bnd := q.bnd, form := q.form, ld := q.ld, arg := q.arg }) ++ c.requeue }

/-- Steps 6 and 7 of R227: the frame is written, the control words are set, and issue resumes at the handler, or the
context parks where the entry is that of a park (R224). The handler begins with no loop open and no branch pending, as
both are in the frame. -/
def Work.completeEntry (w : Work) (core bank lvl : Nat) (e : Entry) : Work :=
  let c := w.ctx core bank
  let w1 := putFields w core (c.frameAt lvl)
    (frameFields c bank e.fwin e c.replay c.requeue)
  match e.park with
  | some line =>
    w1.updCtx core bank fun x => { x with
      cause := e.cause + e.extra, tval := BitVec.ofNat 64 e.tval, epc := epcBits e.epc
      st := .parked (.walk line (w.dev.now + 60000000) e.cause)
      replay := [], requeue := [], br := none, since := w.dev.now }
  | none =>
    w1.updCtx core bank fun x => { x with
      cause := e.cause + e.extra, tval := BitVec.ofNat 64 e.tval, epc := epcBits e.epc
      plvl := x.lvl, lvl := lvl, cnt := (x.count 7 1).cnt
      pc := if lvl = 1 then bits x.tdel.toNat 55 5 * 32 else x.tvec
      st := .ready
      replay := [], requeue := [], br := none, loop := { ctr := x.loop.ctr }
      hist := [], below := (x.lvl, x.hist) :: x.below }

/-- A `ctx.park` has taken the steps of trap entry up to the writing of a frame: the context parks on its line (R224, R329). -/
def Work.completePark (w : Work) (core bank : Nat) (x : Nat × Option Nat × Bool) : Work :=
  w.updCtx core bank fun c => { c with
    cause := 1024 + 64, st := .parked (.line x.1 x.2.1 x.2.2), since := w.dev.now }

/-- An entry with no queue operation left at its home ends: a park, the end of the task, or a handler. -/
def Work.endEntry (w : Work) (core bank : Nat) (e : Entry) : Work :=
  match e.watch with
  | some x => w.completePark core bank x
  | none => match (if e.park.isSome then some 1 else (w.ctx core bank).trapLevel e.cause) with
    | none => w.endTask core bank e.cause
    | some lvl => w.completeEntry core bank lvl e

/-- What a context that has settled does with its trap: its task ends, or the entry completes once no queue operation
is left at its home (R227 step 4, R231). -/
def Work.enter (w : Work) (core bank : Nat) (e : Entry) : Work :=
  let c := w.ctx core bank
  if e.watch.isNone ∧ e.park.isNone ∧ (c.trapLevel e.cause).isNone then
    (w.withdrawAll core bank).endTask core bank e.cause
  else if (c.qops.any fun q => decide (q.form ≠ 0x40)) then w.updCtx core bank fun x => { x with st := .entering e }
  else w.endEntry core bank e

/-- Second traps raised during an entry, each taken as a trap raised at the handler's level (R227); fuel bounds their
number. -/
def takeSecond (core bank : Nat) : Nat → Work → Work
  | 0, w => w
  | n + 1, w =>
    let c := w.ctx core bank
    match c.second, c.st with
    | (cause, tval, pc, landf) :: rest, .ready =>
      let w1 := w.updCtx core bank fun x => { x with second := rest }
      let e : Entry := { cause := cause, tval := tval, epc := pc, resume := c.pc,
                         extra := 64 + (if landf then 512 else 0), begun := (w.core core).raw }
      takeSecond core bank n (w1.enter core bank e)
    | _, _ => w

/-- One context takes a trap (R227). -/
def Work.takeTrap (w : Work) (core bank : Nat) (e : Entry) : Work :=
  let w1 := w.settleContext core bank
  let w2 := w1.enter core bank { e with fwin := windowOpen w core bank }
  takeSecond core bank (w2.ctx core bank).second.length w2

/-- The bits of cw.cause above CODE for a slot (Table 9.2). -/
def slotBits (slot : Nat) (landf : Bool) : Nat := 64 * slot + (if landf then 512 else 0)

/-- A trap raised in a member of a quire (R139): every other member that runs the task at its level enters its own trap at the
bundle it has reached. -/
def Work.raise (w : Work) (core bank : Nat) (e : Entry) : Work :=
  let c := w.ctx core bank
  let qs := quireOf w.dev core bank
  let rank := c.rank
  let w1 := w.takeTrap core bank e
  if w.dev.issue.alone then w1
  else
    (qs.filter fun k => decide (k ≠ core)).foldl (fun a k =>
      let o := a.ctx k bank
      if o.busy ∧ o.lvl = c.lvl then
        a.takeTrap k bank { cause := e.cause, tval := e.tval, epc := o.pc, resume := o.pc, park := e.park,
                            extra := bits e.extra 8 6 * 64 + 2048 + 4096 * rank +
                              (if e.park.isSome then 1024 else 0)
                            begun := (a.core k).raw }
      else a) w1

/-- A PFAULT record (R225). -/
def pfaultRec (part va core bank cause ix : Nat) : EventRec :=
  { part := part, kind := 0x92,
    body := va + 2 ^ 64 * (core + 512 * bank) + 2 ^ 80 * cause + 2 ^ 96 * ix }

/-- The other bank of a quire gets the sequencers once no member of this one runs or is entering its park (R148, R224). -/
def Work.leaveBank (w : Work) (q : List Nat) (bank : Nat) : Work :=
  let stays (c : Ctx) : Bool :=
    match c.st with
    | .ready => true
    | .entering _ => true
    | .idle => false
    | .parked _ => false
    | .reported => false
  if q.any fun k => stays (w.ctx k bank) then w
  else (q.foldl (fun a k => a.updCore k fun c => { c with leftAt := c.raw + 8 }) w).handOver q bank

/-- A context parks on a translation fault, for its whole quire (R224, R225): the bundle that translated, and the one at
which it resumes. -/
def Work.parkWalk (w : Work) (core bank cause line va pc resume slot : Nat) : Work :=
  let c := w.ctx core bank
  let w1 := w.raise core bank { cause := cause, tval := va, epc := pc, resume := resume, extra := 1024 + 64 * slot,
                                begun := (w.core core).raw, park := some line }
  let w2 := w1.mapDev fun d => { d with events := d.events ++ [pfaultRec c.part va core bank cause c.ix] }
  w2.leaveBank (quireOf w.dev core bank) bank

-- Return from a trap

/-- n bytes of a frame. -/
def frameGet (w : Work) (core base off n : Nat) : Nat := w.readN (Key.ls core (base + off)) n

/-- The replay entries of a frame. -/
def frameReplay (w : Work) (core base : Nat) : List Replay :=
  (List.range (min (frameGet w core base 0x30 1) 8)).map fun i =>
    { pc := frameGet w core base (0x40 + 32 * i) 8
      word := BitVec.ofNat 32 (frameGet w core base (0x48 + 32 * i) 4)
      ld := frameGet w core base (0x4C + 32 * i) 1
      operand := BitVec.ofNat 64 (frameGet w core base (0x50 + 32 * i) 8)
      trigger := BitVec.ofNat 64 (frameGet w core base (0x58 + 32 * i) 8) }

/-- The withdrawn queue operations of a frame or save area: count at `cnt`, entries from `off` (R124). -/
def listRequeue (get : Nat → Nat → Nat) (cnt off : Nat) : List Requeue :=
  (List.range (min (get cnt 8) 12)).map fun i =>
    { pc := get (off + 24 * i) 8, bnd := get (off + 24 * i + 8) 1 % 8, form := get (off + 24 * i + 9) 1
      ld := get (off + 24 * i + 10) 1, arg := BitVec.ofNat 64 (get (off + 24 * i + 16) 8) }

/-- The loop state of a frame or save area (R220). -/
def listLoop (get : Nat → Nat → Nat) (off bnd resume : Nat) : Loop :=
  let n := min (get bnd 1) 6
  let start := get (off + 24) 8
  { counts := (List.range n).map fun d => get (bnd + 4 + 4 * d) 4
    bound := decide (n ≠ 0)
    isOpen := decide (get (off + 40) 1 % 2 = 1)
    start := start
    stop := get (off + 32) 8
    len := (resume - start) / 32
    ctr := (List.range 6).map fun i => get (off + 4 * i) 4 }

/-- The pending branch of a frame, whose bundle stands before the delay bundles that have issued, and these before RESUME
(R222). -/
def frameBranch (x resume : Nat) : Option Branch :=
  if x % 2 = 1 ∧ bits x 2 1 ≠ 0 then
    some { target := bits x 55 5 * 32, left := bits x 2 1, taken := true, pc := resume - 32 * (3 - bits x 2 1) }
  else none

/-- The marks of a frame: marked bit with its cause byte, a 0 byte giving cause 40 (R212). -/
def frameMarks (w : Work) (core base : Nat) (old : Tab Nat) : Tab Nat :=
  let sm := frameGet w core base 0x188 8
  let lm := frameGet w core base 0x190 8
  let code (b : Nat) : Nat := if b = 0 then 40 else b
  let t1 := (List.range 64).foldl (fun t n =>
    if bit sm n then t.set n (code (frameGet w core base (0x240 + n) 1)) else t.del n) old
  (List.range 13).foldl (fun t n =>
    if bit lm n then t.set (latchMark n) (code (frameGet w core base (0x280 + n) 1)) else t.del (latchMark n)) t1

/-- What `eret` and a wake from a translation fault restore from the frame of a level (R230). -/
def Work.restoreFrame (w : Work) (core bank lvl : Nat) : Work :=
  let base := (w.ctx core bank).frameAt lvl
  let get := frameGet w core base
  let resume := bits (get 0 8) 55 5 * 32
  w.updCtx core bank fun c => { c with
    lat := (List.range 9).foldl (fun t n => t.set n (BitVec.ofNat 64 (get (0x140 + 8 * n) 8))) c.lat
    port := (List.range 9).foldl (fun t n => t.set n (BitVec.ofNat 64 (get (0x1C0 + 8 * n) 8))) c.port
    vlat := (List.range 4).foldl (fun t n => t.set n (BitVec.ofNat 2048 (get (0x400 + 256 * n) 256))) c.vlat
    vport := (List.range 2).foldl (fun t n => t.set n (BitVec.ofNat 2048 (get (0x800 + 256 * n) 256))) c.vport
    mark := frameMarks w core base c.mark
    loop := listLoop get 0xA00 0xB80 resume
    lbuf := []
    replay := frameReplay w core base
    requeue := listRequeue get 0xA40 0xA48
    br := frameBranch (get 0x08 8) resume
    pc := resume }

/-- A handler has moved the resume address of a follower away from the bundle that its line of delayed bundles begins
with (notes/assumptions/15.md). -/
def lineBroken (c : Ctx) : Bool :=
  match c.hist.findSome? id with
  | none => false
  | some r => decide (r.pc ≠ c.pc)

/-- The line of a level that a return goes back to, and the lines of the levels below it (R139). -/
def lineOf (below : List (Nat × List (Option Issued))) (lvl : Nat) : List (Option Issued) × List (Nat × List (Option Issued)) :=
  (((below.find? fun x => decide (x.1 = lvl)).map (·.2)).getD [], below.filter fun x => decide (x.1 < lvl))

/-- Return from a trap handler (R230): to PLVL, with the PLVL that the frame's status holds. -/
def Work.returnFromTrap (w : Work) (core bank : Nat) : Work :=
  let c := w.ctx core bank
  let st := frameGet w core (c.frameAt c.lvl) 0x28 8
  (w.restoreFrame core bank c.lvl).updCtx core bank fun x =>
    let l := lineOf x.below c.plvl
    let y : Ctx := { x with lvl := c.plvl, plvl := bits st 5 4, hist := l.1, below := l.2 }
    if lineBroken y then { y with hist := [] } else y

-- A slot form as a step

/-- The fault that a report takes from its list, with what is left of the list. -/
def takeReport (l : List (Nat × Nat × Nat)) (key : Option Nat) : Option ((Nat × Nat × Nat) × List (Nat × Nat × Nat)) :=
  match key with
  | none =>
    match l with
    | [] => none
    | x :: t => some (x, t)
  | some h => (l.find? fun x => decide (x.2.1 = h)).map fun x => (x, l.filter fun y => decide (y ≠ x))

/-- The reporting of a posted operation's fault (R121, R169, R304, R309): cw.epc names the operation's bundle, and the
reporting bundle has not committed. -/
def Work.reportLate (w : Work) (kind : Nat) (key : Option Nat) : Work :=
  let i := w.dev.issue
  let c := w.ctx i.core i.bank
  let go (f : Nat × Nat × Nat) (w1 : Work) : Work :=
    w1.raise i.core i.bank { cause := f.1, tval := f.2.1, epc := f.2.2, resume := i.pc, extra := slotBits 1 false,
                             begun := (w.core i.core).raw }
  match kind with
  | 0 => match takeReport c.late key with
    | none => w
    | some (f, rest) => go f (w.updCtx i.core i.bank fun x => { x with late := rest })
  | 1 => match takeReport c.plate key with
    | none => w
    | some (f, rest) => go f (w.updCtx i.core i.bank fun x => { x with plate := rest })
  | 2 => match takeReport c.qlate key with
    | none => w
    | some (f, rest) => go f (w.updCtx i.core i.bank fun x => { x with qlate := rest })
  | _ =>
    let b := c.qb.get (key.getD 0) {}
    match b.st with
    | .failed cause pc =>
      go (cause, b.handle, pc) (w.updCtx i.core i.bank fun x => { x with qb := x.qb.set (key.getD 0) {} })
    | .unbound => w
    | .pending => w
    | .bound => w

/-- A fault found at issue is taken: cw.tval where the spec gives it no value is a free value
(notes/assumptions/16.md). -/
def Work.trapNow (w0 : Work) (cause : Nat) (tval : Option Nat) : Work :=
  let i := w0.dev.issue
  -- a refusal under a debug policy is counted in the error ring (R74)
  let w := if cause = 60 then w0.logError 60 (w0.dev.ctx i.core i.bank).part i.core i.pc else w0
  let f : Nat × Work := match tval with
    | some v => (v, w)
    | none => w.free
  f.2.raise i.core i.bank { cause := cause, tval := f.1, epc := i.pc, resume := i.pc,
                            extra := slotBits i.slot false, begun := (w.core i.core).raw }

/-- The issue record with a verdict noted. -/
def noteVerdict (σ : State) (v : Verdict) : State :=
  { σ with dev := { σ.dev with issue := { σ.dev.issue with verdict := v } } }

/-- What a slot form's plan does to the state: while its bundle's slots are only checked it records its verdict; else it
takes its effect, traps, or leaves issue held. -/
def slotRun (p : Work → Plan) (σ : State) : State :=
  let w := Work.begin σ
  let i := σ.dev.issue
  match p w with
  | .ok w' => if i.probe then noteVerdict σ .ok else w'.commit
  | .error (.hold why) => noteVerdict σ (.hold why)
  | .error (.park cause line va) =>
    if i.probe then noteVerdict σ .fault
    else (w.parkWalk i.core i.bank cause line va i.pc i.pc i.slot).commit
  | .error (.trap cause tval) => if i.probe then noteVerdict σ .fault else (w.trapNow cause tval).commit
  | .error (.malformed cause va) =>
    if i.probe then noteVerdict σ .fault else ((w.logError cause (w.dev.ctx i.core i.bank).part i.core va).trapNow cause (some va)).commit
  | .error (.report kind key) => if i.probe then noteVerdict σ .fault else (w.reportLate kind key).commit

end Sys2Proof.Machine
end

