-- ==== Sys2Proof/Machine/ScalarAlu.lean ====
section
/-! DEFINITION. The S-slot forms of the ALU and of the multiplier (R299 to R302). -/

namespace Sys2Proof.Machine

/-- A form that lands a function of A and B in a latch and sWD (R209, R210, R296). -/
def scalarForm (unit latch lat : Nat) (om : BitVec 2) (os ts : BitVec 7) (wd : BitVec 6) (we : BitVec 1)
    (f : Word → Word → Word) (w : Work) : Plan :=
  if guardTrue w = false then .ok w
  else do
    let a ← readSel w ts.toNat
    let b ← readPort w unit om os
    .ok ((w.setPort unit b).launchAt lat (.scalar latch (f a b) (dest we wd.toNat) 0))

/-- A two-operand ALU form: `alu.r` at t + 1 (R299). -/
def aluForm (om : BitVec 2) (os ts : BitVec 7) (wd : BitVec 6) (we : BitVec 1) (f : Word → Word → Word) (w : Work) :
    Plan := scalarForm 0 0 1 om os ts wd we f w

/-- A form of the multiplier: `mul.r` after lat cycles (R302). -/
def mulForm (lat : Nat) (om : BitVec 2) (os ts : BitVec 7) (wd : BitVec 6) (we : BitVec 1) (f : Word → Word → Word)
    (w : Work) : Plan := scalarForm 1 1 lat om os ts wd we f w

/-- A one-operand ALU form, which leaves the port as it is (R299). -/
def aluUnary (ts : BitVec 7) (wd : BitVec 6) (we : BitVec 1) (f : Word → Word) (w : Work) : Plan :=
  if guardTrue w = false then .ok w
  else do
    let a ← readSel w ts.toNat
    .ok (w.launchAt 1 (.scalar 0 (f a) (dest we wd.toNat) 0))

/-- A comparison: pWD and `alu.r` at t + 1 (R300). -/
def predForm (om : BitVec 2) (os ts : BitVec 7) (wd : BitVec 3) (we : BitVec 1) (k : Cond) (w : Work) : Plan :=
  if guardTrue w = false then .ok w
  else do
    let a ← readSel w ts.toNat
    let b ← readPort w 0 om os
    .ok ((w.setPort 0 b).launchAt 1 (.pred (k.holds a b) (dest we wd.toNat)))

/-- A predicate form over pa and pb (R300). Its OS field names pb and loads no port. -/
def predPair (pb pa wd : BitVec 3) (we : BitVec 1) (f : Bool → Bool → Bool) (w : Work) : Plan :=
  if guardTrue w = false then .ok w
  else .ok (w.launchAt 1 (.pred (f (w.me.preg pa.toNat) (w.me.preg pb.toNat)) (dest we wd.toNat)))

/-- The size in bits that Q names (Table 11.1). -/
def sizeBits (q : BitVec 2) : Nat := 8 * 2 ^ q.toNat

/-- The mask of a field descriptor: low bit and width (R301). -/
def fieldMask (f : Word) : Word :=
  let lo := f.toNat % 64
  let wr := f.toNat / 64 % 128
  let n := min wr (64 - lo)
  BitVec.ofNat 64 ((2 ^ n - 1) * 2 ^ lo)

/-- `bext` (R301). -/
def extractField (a f : Word) : Word := (a &&& fieldMask f) >>> (f.toNat % 64)

/-- `wfield` (R301). -/
def placeField (a f : Word) : Word := (a <<< (f.toNat % 64)) &&& fieldMask f

/-- `bins` (R301). -/
def insertField (base a f : Word) : Word := (base &&& ~~~(fieldMask f)) ||| placeField a f

/-- Signed division that truncates toward zero, with the corners of R302. -/
def divSigned (a b : Word) : Word := if b = 0 then BitVec.allOnes 64 else a.sdiv b

/-- Signed remainder with the sign of the dividend (R302). -/
def remSigned (a b : Word) : Word := if b = 0 then a else a.srem b

/-- Unsigned division (R302). -/
def divUnsigned (a b : Word) : Word := if b = 0 then BitVec.allOnes 64 else a / b

/-- Unsigned remainder (R302). -/
def remUnsigned (a b : Word) : Word := if b = 0 then a else a % b

/-- `add`: A + B modulo 2^64 (R299). -/
def execAdd (om : BitVec 2) (os : BitVec 7) (ts : BitVec 7) (wd : BitVec 6) (we : BitVec 1)
    (σ : State) : Host.Outcome State Fault Refusal :=
  .next (slotRun (aluForm om os ts wd we fun a b => a + b) σ)

/-- `sub`: A - B modulo 2^64 (R299). -/
def execSub (om : BitVec 2) (os : BitVec 7) (ts : BitVec 7) (wd : BitVec 6) (we : BitVec 1)
    (σ : State) : Host.Outcome State Fault Refusal :=
  .next (slotRun (aluForm om os ts wd we fun a b => a - b) σ)

/-- `and` (R299). -/
def execAnd (om : BitVec 2) (os : BitVec 7) (ts : BitVec 7) (wd : BitVec 6) (we : BitVec 1)
    (σ : State) : Host.Outcome State Fault Refusal :=
  .next (slotRun (aluForm om os ts wd we fun a b => a &&& b) σ)

/-- `or` (R299). -/
def execOr (om : BitVec 2) (os : BitVec 7) (ts : BitVec 7) (wd : BitVec 6) (we : BitVec 1)
    (σ : State) : Host.Outcome State Fault Refusal :=
  .next (slotRun (aluForm om os ts wd we fun a b => a ||| b) σ)

/-- `xor` (R299). -/
def execXor (om : BitVec 2) (os : BitVec 7) (ts : BitVec 7) (wd : BitVec 6) (we : BitVec 1)
    (σ : State) : Host.Outcome State Fault Refusal :=
  .next (slotRun (aluForm om os ts wd we fun a b => a ^^^ b) σ)

/-- `andn`: A AND NOT B (R299). -/
def execAndn (om : BitVec 2) (os : BitVec 7) (ts : BitVec 7) (wd : BitVec 6) (we : BitVec 1)
    (σ : State) : Host.Outcome State Fault Refusal :=
  .next (slotRun (aluForm om os ts wd we fun a b => a &&& ~~~b) σ)

/-- `orn`: A OR NOT B (R299). -/
def execOrn (om : BitVec 2) (os : BitVec 7) (ts : BitVec 7) (wd : BitVec 6) (we : BitVec 1)
    (σ : State) : Host.Outcome State Fault Refusal :=
  .next (slotRun (aluForm om os ts wd we fun a b => a ||| ~~~b) σ)

/-- `shl`: by B[5:0] (R299). -/
def execShl (om : BitVec 2) (os : BitVec 7) (ts : BitVec 7) (wd : BitVec 6) (we : BitVec 1)
    (σ : State) : Host.Outcome State Fault Refusal :=
  .next (slotRun (aluForm om os ts wd we fun a b => a <<< (b.toNat % 64)) σ)

/-- `shr`: by B[5:0], zeros in (R299). -/
def execShr (om : BitVec 2) (os : BitVec 7) (ts : BitVec 7) (wd : BitVec 6) (we : BitVec 1)
    (σ : State) : Host.Outcome State Fault Refusal :=
  .next (slotRun (aluForm om os ts wd we fun a b => a >>> (b.toNat % 64)) σ)

/-- `sra`: by B[5:0], sign in (R299). -/
def execSra (om : BitVec 2) (os : BitVec 7) (ts : BitVec 7) (wd : BitVec 6) (we : BitVec 1)
    (σ : State) : Host.Outcome State Fault Refusal :=
  .next (slotRun (aluForm om os ts wd we fun a b => a.sshiftRight (b.toNat % 64)) σ)

/-- `rotl`: by B[5:0] (R299). -/
def execRotl (om : BitVec 2) (os : BitVec 7) (ts : BitVec 7) (wd : BitVec 6) (we : BitVec 1)
    (σ : State) : Host.Outcome State Fault Refusal :=
  .next (slotRun (aluForm om os ts wd we fun a b => a.rotateLeft (b.toNat % 64)) σ)

/-- `min`, signed (R299). -/
def execMin (om : BitVec 2) (os : BitVec 7) (ts : BitVec 7) (wd : BitVec 6) (we : BitVec 1)
    (σ : State) : Host.Outcome State Fault Refusal :=
  .next (slotRun (aluForm om os ts wd we fun a b => if a.slt b then a else b) σ)

/-- `max`, signed (R299). -/
def execMax (om : BitVec 2) (os : BitVec 7) (ts : BitVec 7) (wd : BitVec 6) (we : BitVec 1)
    (σ : State) : Host.Outcome State Fault Refusal :=
  .next (slotRun (aluForm om os ts wd we fun a b => if a.slt b then b else a) σ)

/-- `minu`, unsigned (R299). -/
def execMinu (om : BitVec 2) (os : BitVec 7) (ts : BitVec 7) (wd : BitVec 6) (we : BitVec 1)
    (σ : State) : Host.Outcome State Fault Refusal :=
  .next (slotRun (aluForm om os ts wd we fun a b => if a.ult b then a else b) σ)

/-- `maxu`, unsigned (R299). -/
def execMaxu (om : BitVec 2) (os : BitVec 7) (ts : BitVec 7) (wd : BitVec 6) (we : BitVec 1)
    (σ : State) : Host.Outcome State Fault Refusal :=
  .next (slotRun (aluForm om os ts wd we fun a b => if a.ult b then b else a) σ)

/-- `seq`: A = B (R300). -/
def execSeq (om : BitVec 2) (os : BitVec 7) (ts : BitVec 7) (wd : BitVec 3) (we : BitVec 1)
    (σ : State) : Host.Outcome State Fault Refusal :=
  .next (slotRun (predForm om os ts wd we .eq) σ)

/-- `sne`: A ≠ B (R300). -/
def execSne (om : BitVec 2) (os : BitVec 7) (ts : BitVec 7) (wd : BitVec 3) (we : BitVec 1)
    (σ : State) : Host.Outcome State Fault Refusal :=
  .next (slotRun (predForm om os ts wd we .ne) σ)

/-- `slt`: A < B, signed (R300). -/
def execSlt (om : BitVec 2) (os : BitVec 7) (ts : BitVec 7) (wd : BitVec 3) (we : BitVec 1)
    (σ : State) : Host.Outcome State Fault Refusal :=
  .next (slotRun (predForm om os ts wd we .lt) σ)

/-- `sltu`: A < B, unsigned (R300). -/
def execSltu (om : BitVec 2) (os : BitVec 7) (ts : BitVec 7) (wd : BitVec 3) (we : BitVec 1)
    (σ : State) : Host.Outcome State Fault Refusal :=
  .next (slotRun (predForm om os ts wd we .ltu) σ)

/-- `sle`: A ≤ B, signed (R300). -/
def execSle (om : BitVec 2) (os : BitVec 7) (ts : BitVec 7) (wd : BitVec 3) (we : BitVec 1)
    (σ : State) : Host.Outcome State Fault Refusal :=
  .next (slotRun (predForm om os ts wd we .le) σ)

/-- `sleu`: A ≤ B, unsigned (R300). -/
def execSleu (om : BitVec 2) (os : BitVec 7) (ts : BitVec 7) (wd : BitVec 3) (we : BitVec 1)
    (σ : State) : Host.Outcome State Fault Refusal :=
  .next (slotRun (predForm om os ts wd we .leu) σ)

/-- `pset`: (A AND B) ≠ 0 (R300). -/
def execPset (om : BitVec 2) (os : BitVec 7) (ts : BitVec 7) (wd : BitVec 3) (we : BitVec 1)
    (σ : State) : Host.Outcome State Fault Refusal :=
  .next (slotRun (predForm om os ts wd we .test) σ)

/-- `pand` (R300). -/
def execPand (b : BitVec 3) (a : BitVec 3) (wd : BitVec 3) (we : BitVec 1)
    (σ : State) : Host.Outcome State Fault Refusal :=
  .next (slotRun (predPair b a wd we fun x y => x && y) σ)

/-- `por` (R300). -/
def execPor (b : BitVec 3) (a : BitVec 3) (wd : BitVec 3) (we : BitVec 1)
    (σ : State) : Host.Outcome State Fault Refusal :=
  .next (slotRun (predPair b a wd we fun x y => x || y) σ)

/-- `pxor` (R300). -/
def execPxor (b : BitVec 3) (a : BitVec 3) (wd : BitVec 3) (we : BitVec 1)
    (σ : State) : Host.Outcome State Fault Refusal :=
  .next (slotRun (predPair b a wd we fun x y => x != y) σ)

/-- The plan of `sel` (R300): A if the predicate that GP and GN name is true, else B; the slot is not guarded. -/
def selPlan (om : BitVec 2) (os ts : BitVec 7) (wd : BitVec 6) (we : BitVec 1) (w : Work) : Plan := do
  let a ← readSel w ts.toNat
  let b ← readPort w 0 om os
  .ok ((w.setPort 0 b).launchAt 1 (.scalar 0 (if guardTrue w then a else b) (dest we wd.toNat) 0))

/-- `sel` (R300). -/
def execSel (om : BitVec 2) (os : BitVec 7) (ts : BitVec 7) (wd : BitVec 6) (we : BitVec 1)
    (σ : State) : Host.Outcome State Fault Refusal :=
  .next (slotRun (selPlan om os ts wd we) σ)

/-- `clz`: leading zero bits, 64 for 0 (R299). -/
def execClz (ts : BitVec 7) (wd : BitVec 6) (we : BitVec 1) (σ : State) : Host.Outcome State Fault Refusal :=
  .next (slotRun (aluUnary ts wd we fun a => BitVec.ofNat 64 (clz64 a)) σ)

/-- `ctz`: trailing zero bits, 64 for 0 (R299). -/
def execCtz (ts : BitVec 7) (wd : BitVec 6) (we : BitVec 1) (σ : State) : Host.Outcome State Fault Refusal :=
  .next (slotRun (aluUnary ts wd we fun a => BitVec.ofNat 64 (ctzFrom 64 a.toNat)) σ)

/-- `popc`: one bits (R299). -/
def execPopc (ts : BitVec 7) (wd : BitVec 6) (we : BitVec 1) (σ : State) : Host.Outcome State Fault Refusal :=
  .next (slotRun (aluUnary ts wd we fun a => BitVec.ofNat 64 (popFrom 64 a.toNat)) σ)

/-- `sext` from the size Q names (R299). -/
def execSext (ts : BitVec 7) (wd : BitVec 6) (we : BitVec 1) (q : BitVec 2)
    (σ : State) : Host.Outcome State Fault Refusal :=
  .next (slotRun (aluUnary ts wd we fun a => BitVec.ofInt 64 (sx (sizeBits q) a.toNat)) σ)

/-- `zext` from the size Q names (R299). -/
def execZext (ts : BitVec 7) (wd : BitVec 6) (we : BitVec 1) (q : BitVec 2)
    (σ : State) : Host.Outcome State Fault Refusal :=
  .next (slotRun (aluUnary ts wd we fun a => BitVec.ofNat 64 (a.toNat % 2 ^ sizeBits q)) σ)

/-- `bext` (R301). -/
def execBext (om : BitVec 2) (os : BitVec 7) (ts : BitVec 7) (wd : BitVec 6) (we : BitVec 1)
    (σ : State) : Host.Outcome State Fault Refusal :=
  .next (slotRun (aluForm om os ts wd we extractField) σ)

/-- The plan of `bins` (R301): sWD is read as the base and written. -/
def binsPlan (om : BitVec 2) (os ts : BitVec 7) (wd : BitVec 6) (w : Work) : Plan :=
  if guardTrue w = false then .ok w
  else do
    let a ← readSel w ts.toNat
    let b ← readPort w 0 om os
    let base ← readSel w wd.toNat
    .ok ((w.setPort 0 b).launchAt 1 (.scalar 0 (insertField base a b) (some wd.toNat) 0))

/-- `bins` (R301). -/
def execBins (om : BitVec 2) (os : BitVec 7) (ts : BitVec 7) (wd : BitVec 6)
    (σ : State) : Host.Outcome State Fault Refusal :=
  .next (slotRun (binsPlan om os ts wd) σ)

/-- `lea`: A + B * 2^Q (R299). -/
def execLea (om : BitVec 2) (os : BitVec 7) (ts : BitVec 7) (wd : BitVec 6) (we : BitVec 1) (q : BitVec 2)
    (σ : State) : Host.Outcome State Fault Refusal :=
  .next (slotRun (aluForm om os ts wd we fun a b => a + (b <<< q.toNat)) σ)

/-- `wfield` (R301). -/
def execWfield (om : BitVec 2) (os : BitVec 7) (ts : BitVec 7) (wd : BitVec 6) (we : BitVec 1)
    (σ : State) : Host.Outcome State Fault Refusal :=
  .next (slotRun (aluForm om os ts wd we placeField) σ)

/-- `mul`: the low 64 bits of the product, at t + 3 (R302). -/
def execMul (om : BitVec 2) (os : BitVec 7) (ts : BitVec 7) (wd : BitVec 6) (we : BitVec 1)
    (σ : State) : Host.Outcome State Fault Refusal :=
  .next (slotRun (mulForm 3 om os ts wd we fun a b => a * b) σ)

/-- `mulh`: bits [127:64] of the signed product (R302). -/
def execMulh (om : BitVec 2) (os : BitVec 7) (ts : BitVec 7) (wd : BitVec 6) (we : BitVec 1)
    (σ : State) : Host.Outcome State Fault Refusal :=
  .next (slotRun (mulForm 3 om os ts wd we fun a b => BitVec.ofInt 64 (a.toInt * b.toInt / 2 ^ 64)) σ)

/-- `mulhu`: bits [127:64] of the unsigned product (R302). -/
def execMulhu (om : BitVec 2) (os : BitVec 7) (ts : BitVec 7) (wd : BitVec 6) (we : BitVec 1)
    (σ : State) : Host.Outcome State Fault Refusal :=
  .next (slotRun (mulForm 3 om os ts wd we fun a b => BitVec.ofNat 64 (a.toNat * b.toNat / 2 ^ 64)) σ)

/-- `div`, at t + 20 (R302). -/
def execDiv (om : BitVec 2) (os : BitVec 7) (ts : BitVec 7) (wd : BitVec 6) (we : BitVec 1)
    (σ : State) : Host.Outcome State Fault Refusal :=
  .next (slotRun (mulForm 20 om os ts wd we divSigned) σ)

/-- `divu`, at t + 20 (R302). -/
def execDivu (om : BitVec 2) (os : BitVec 7) (ts : BitVec 7) (wd : BitVec 6) (we : BitVec 1)
    (σ : State) : Host.Outcome State Fault Refusal :=
  .next (slotRun (mulForm 20 om os ts wd we divUnsigned) σ)

/-- `rem`, at t + 20 (R302). -/
def execRem (om : BitVec 2) (os : BitVec 7) (ts : BitVec 7) (wd : BitVec 6) (we : BitVec 1)
    (σ : State) : Host.Outcome State Fault Refusal :=
  .next (slotRun (mulForm 20 om os ts wd we remSigned) σ)

/-- `remu`, at t + 20 (R302). -/
def execRemu (om : BitVec 2) (os : BitVec 7) (ts : BitVec 7) (wd : BitVec 6) (we : BitVec 1)
    (σ : State) : Host.Outcome State Fault Refusal :=
  .next (slotRun (mulForm 20 om os ts wd we remUnsigned) σ)

end Sys2Proof.Machine
end

