-- ==== Sys2Proof/Machine/ScalarMem.lean ====
section
/-! DEFINITION. The S-slot forms of the load/store unit, the range operations, `publish` and the completion barrier
words (R155, R303 to R307, R320, R321, R327, R328). -/

namespace Sys2Proof.Machine

/-- A and B of a form, the port having received B (R209, R296). -/
def readAB (w : Work) (unit : Nat) (om : BitVec 2) (os ts : BitVec 7) : Except Stop (Word × Word × Work) := do
  let a ← readSel w ts.toNat
  let b ← readPort w unit om os
  .ok (a, b, w.setPort unit b)

/-- Bytes that Q names (Table 11.1). -/
def sizeBytes (q : BitVec 2) : Nat := 2 ^ q.toNat

-- Local store

/-- The cause of the mark on the local-store sectors of n bytes, as they stood before the bundle, or 0 (R155, R303). -/
def lsMark (w : Work) (a n : Nat) : Nat :=
  let bad (s : Nat) : Bool := w.myCore.lsBad.contains s || w.dev.issue.wasBad.contains s
  if bad (a / 32) ∨ bad ((a + n - 1) / 32) then 41 else 0

/-- The address checks of a local-store access (R303): alignment, then the declared range. -/
def lsCheck (c : Ctx) (a n : Nat) : Except Stop Unit := do
  check (decide (a % n = 0)) 13
  check (c.declares a n) 10

/-- The plan of `ld` and `ldu` (R303). -/
def loadLocal (signed : Bool) (om : BitVec 2) (os ts : BitVec 7) (wd : BitVec 6) (we : BitVec 1) (q : BitVec 2)
    (w : Work) : Plan :=
  if guardTrue w = false then .ok w
  else do
    let (a, b, w1) ← readAB w 2 om os ts
    let n := sizeBytes q
    let x := (a + b).toNat
    lsCheck w.me x n
    let k := w.me.relocate x
    let v := w.lsRead w.dev.issue.core k n
    let r := if signed then BitVec.ofInt 64 (sx (8 * n) v) else BitVec.ofNat 64 v
    .ok (w1.launchAt 6 (.scalar 2 r (dest we wd.toNat) (lsMark w k n)))

/-- The plan of `st` (R303). -/
def storeLocal (om : BitVec 2) (os ts : BitVec 7) (wd : BitVec 6) (q : BitVec 2) (w : Work) : Plan :=
  if guardTrue w = false then .ok w
  else do
    let (a, b, w1) ← readAB w 2 om os ts
    let v ← readSel w wd.toNat
    let n := sizeBytes q
    let x := (a + b).toNat
    lsCheck w.me x n
    .ok (w1.lsWrite w.dev.issue.core (w.me.relocate x) n v.toNat)

-- Ordinary accesses

/-- Bits [63:56] of an address register are zero (R160). -/
def vaOk (x : Word) : Bool := decide (x.toNat < 2 ^ 56)

/-- A pending publish of a handle, from the S slot or on a copy engine (R169). -/
def publishPending (c : Ctx) (cr : Core) (bank h : Nat) : Bool :=
  (c.accs.any fun a => match a.kind with
    | .publish _ k _ => decide (k = h)
    | .load _ _ _ => false
    | .store _ _ => false
    | .atomic _ _ _ _ _ _ => false
    | .prefetch _ => false
    | .range _ _ => false) ||
  cr.cmds.any fun x => decide (x.form = 13) && decide (x.ctx = bank) && decide (x.b.toNat % 2 ^ 32 = h)

/-- An access through a handle waits for the context's publishes of it, and reports their faults (R169). -/
def handleWait (w : Work) (x : Xlat) : Except Stop Xlat :=
  match x.handle with
  | none => .ok x
  | some h =>
    if publishPending w.me w.myCore w.dev.issue.bank h then .error (.hold .limited)
    else if w.me.plate.any fun f => decide (f.2.1 = h) then .error (.report 1 (some h))
    else .ok x

/-- A translation made at issue (R162, R224): base is the cause 8 or 9 of an entry that is not valid. A walk that waits for a line
holds issue (R226). -/
def xlate (w : Work) (need : List Need) (va base : Nat) (parks : Bool) : Except Stop Xlat :=
  let c := w.me
  if inSystemPage va then trapOn 11
  else match translate w { part := c.part, sec := c.sec, die := coreDie w.dev.issue.core } need va with
    | .ok x => handleWait w x
    | .error (.absent l) =>
      if parks ∧ c.lvl = 0 ∧ c.hasFrame then .error (.park base l va) else .error (.trap base (some va))
    | .error .malformed => .error (.malformed base va)
    | .error (.refused cause) => trapOn cause
    | .error (.busy l) => .error (.hold (.walk l))

/-- An access enters the context's list (R189); its translation enters the core's cache (R163). -/
def Work.pushAccess (w : Work) (k : AccessKind) (va : Nat) (x : Xlat) (arms : Bool) : Work :=
  let i := w.dev.issue
  let t := linesTime w.dev x.lines
  let w1 := w.updMe fun c => { c with
    seq := c.seq + 1
    accs := c.accs ++ [{ kind := k, va := va, pa := x.pa, pc := i.pc, cls := x.cls, seq := c.seq, arms := arms,
                         at_ := w.myCore.clk, handle := x.handle, lines := x.lines, tmin := t }] }
  w1.tlbFill i.core w.me.part va x

/-- A landing-buffer entry is free (R215). -/
def bufferFree (c : Ctx) : Except Stop Unit :=
  if c.outs.length < 8 then .ok () else .error (.hold .sequencer)

/-- The landing delay: LD, or the default of the form (R214). -/
def landDelay (ld dflt : Nat) : Nat := if ld = 0 then dflt else ld

/-- A variable-latency operation takes a landing-buffer entry whose id is the context's next number (R214, R215). -/
def Work.pushOut (w : Work) (kind : LandKind) (latch : Nat) (dst : Option Nat) (a b : Word) (dflt : Nat)
    (res : Option Arrived) : Work :=
  let i := w.dev.issue
  w.updMe fun c => { c with
    outs := c.outs ++ [{ id := c.seq, due := w.myCore.clk + landDelay i.ld dflt, kind := kind, latch := latch,
                         dst := dst, pc := i.pc, word := i.word, ld := i.ld, operand := b, trigger := a, res := res }] }

/-- Typical latency from a core to a slice (Table 7.8, R184). -/
def sliceLatency (core slice : Nat) : Nat :=
  if coreCluster core = slice / 64 then 40 else if coreDie core = sliceDie slice then 90 else 180

/-- Typical latency from a core to a column (Table 7.8, R184). -/
def columnLatency (core col : Nat) : Nat := if core = col then 150 else if core / 128 = col / 128 then 210 else 320

/-- The state byte of a column (Table 3.7): bus state, double refresh of any layer, bad remap copies, layers. -/
def columnByte (d : Dev) (col : Nat) : Nat :=
  let c := d.column col
  let dr := (List.range 8).any fun y => d.dref.get (8 * (col / 16) + y) false
  c.bus % 4 + (if dr then 4 else 0) + 8 * (c.rbad % 4) + 32 * (c.layers - 1)

/-- A byte of the system page as a core reads it (Table 7.4). -/
def systemByte (d : Dev) (core off : Nat) : Nat :=
  if off < 4 then 0x43475350 / 256 ^ off % 256
  else if off < 6 then (if off = 4 then 1 else 0)
  else if 0x40 ≤ off ∧ off < 0x1040 then sliceLatency core ((off - 0x40) / 2) / 256 ^ (off % 2) % 256
  else if 0x1040 ≤ off ∧ off < 0x1440 then columnLatency core ((off - 0x1040) / 2) / 256 ^ (off % 2) % 256
  else if 0x1440 ≤ off ∧ off < 0x1640 then columnByte d (off - 0x1440)
  else 0

/-- n bytes of the system page. -/
def systemRead (d : Dev) (core off : Nat) : Nat → Nat
  | 0 => 0
  | n + 1 => systemByte d core off + 256 * systemRead d core (off + 1) n

/-- `ld.g` on its operands (R304), also as a replay entry issues it (R230). -/
def loadGlobal (a b : Word) (dst : Option Nat) (n : Nat) (w : Work) : Plan := do
  bufferFree w.me
  let x := a + b
  checkVal (vaOk x) 8 x.toNat
  check (decide (x.toNat % n = 0)) 13
  if inSystemPage x.toNat then
    let v := BitVec.ofInt 64 (sx (8 * n) (systemRead w.dev w.dev.issue.core (x.toNat % 0x10000) n))
    .ok ((w.pushOut .load 2 dst a b 40 (some { val := v })).updMe fun c => { c with seq := c.seq + 1 })
  else
    let t ← xlate w [.read] x.toNat 8 true
    .ok ((w.pushOut .load 2 dst a b 40 none).pushAccess (.load n true w.me.seq) x.toNat t false)

/-- The extent that B names and its checks (R305): number, bound, alignment, permission. -/
def extentAt (w : Work) (a b : Word) (n perm : Nat) : Except Stop Extent := do
  check (decide (b.toNat < 16)) 53
  match w.me.ext.get? b.toNat with
  | none => trapOn 53
  | some e =>
    check (decide (a.toNat + n ≤ e.len) && decide (a.toNat < 2 ^ 40)) 10
    check (decide ((e.pa + a.toNat) % n = 0)) 13
    check (bit e.perms perm) 11
    .ok e

/-- The translation an extent stands for at an offset (R305). -/
def Extent.xlat (e : Extent) (o : Nat) : Xlat :=
  { pa := e.pa + o, perms := e.perms, cls := e.cls, handle := none, size := e.len, frame := e.pa, lines := e.lines }

/-- `ld.e` on its operands (R305), also as a replay entry issues it. -/
def loadExtent (a b : Word) (dst : Option Nat) (n : Nat) (w : Work) : Plan := do
  bufferFree w.me
  let e ← extentAt w a b n 0
  let w1 := w.pushOut .load 2 dst a b 40 none
  .ok (w1.updMe fun c => { c with
    seq := c.seq + 1
    accs := c.accs ++ [{ kind := .load n true c.seq, va := e.va + a.toNat, pa := e.pa + a.toNat,
                         pc := w.dev.issue.pc, cls := e.cls, seq := c.seq, at_ := w.myCore.clk,
                         tmin := linesTime w.dev e.lines }] })

/-- The plan of `ld.g` and `ld.e`. -/
def loadPlan (ext : Bool) (om : BitVec 2) (os ts : BitVec 7) (wd : BitVec 6) (we : BitVec 1) (q : BitVec 2) (w : Work) :
    Plan :=
  if guardTrue w = false then .ok w
  else do
    bufferFree w.me
    let (a, b, w1) ← readAB w 2 om os ts
    if ext then loadExtent a b (dest we wd.toNat) (sizeBytes q) w1
    else loadGlobal a b (dest we wd.toNat) (sizeBytes q) w1

/-- The plan of `st.g` (R304). -/
def storeGlobal (om : BitVec 2) (os ts : BitVec 7) (wd : BitVec 6) (q : BitVec 2) (w : Work) : Plan :=
  if guardTrue w = false then .ok w
  else do
    let (a, b, w1) ← readAB w 2 om os ts
    let v ← readSel w wd.toNat
    let n := sizeBytes q
    let x := a + b
    checkVal (vaOk x) 9 x.toNat
    check (decide (x.toNat % n = 0)) 13
    let t ← xlate w [.write] x.toNat 9 true
    .ok (w1.pushAccess (.store n (v.toNat % 2 ^ (8 * n))) x.toNat t false)

/-- The plan of `st.e` (R305). -/
def storeExtent (om : BitVec 2) (os ts : BitVec 7) (wd : BitVec 6) (q : BitVec 2) (w : Work) : Plan :=
  if guardTrue w = false then .ok w
  else do
    let (a, b, w1) ← readAB w 2 om os ts
    let v ← readSel w wd.toNat
    let n := sizeBytes q
    let e ← extentAt w a b n 1
    .ok (w1.updMe fun c => { c with
      seq := c.seq + 1
      accs := c.accs ++ [{ kind := .store n (v.toNat % 2 ^ (8 * n)), va := e.va + a.toNat, pa := e.pa + a.toNat,
                           pc := w.dev.issue.pc, cls := e.cls, seq := c.seq, at_ := w.myCore.clk,
                           tmin := linesTime w.dev e.lines }] })

/-- The plan of `pref` (R306): every fault but a missing entry, which parks the context or traps (R224), makes it do nothing. -/
def prefPlan (om : BitVec 2) (os ts : BitVec 7) (w : Work) : Plan :=
  if guardTrue w = false then .ok w
  else do
    let (a, b, w1) ← readAB w 2 om os ts
    let x := a + b
    if vaOk x = false then .ok w1
    else match xlate w [.read] x.toNat 8 true with
      | .ok t => .ok (w1.pushAccess (.prefetch t.cls) x.toNat t false)
      | .error (.park cause l va) => .error (.park cause l va)
      | .error (.hold why) => .error (.hold why)
      | .error (.report k h) => .error (.report k h)
      | .error (.trap cause (some va)) => .error (.trap cause (some va))
      | .error (.trap _ none) => .ok w1
      | .error (.malformed cause va) => .ok (w1.logError cause w.me.part w.dev.issue.core va)

/-- The plan of the atomics (R307): op is the opcode less 0x30, n the bytes, and f the format of `amo.fadd`. -/
def atomicPlan (op n f : Nat) (om : BitVec 2) (os ts : BitVec 7) (wd : BitVec 6) (we : BitVec 1) (w : Work) : Plan :=
  if guardTrue w = false then .ok w
  else do
    bufferFree w.me
    let (a, b, w1) ← readAB w 2 om os ts
    let nw ← if op = 9 then readSel w wd.toNat else .ok 0
    checkVal (vaOk a) 9 a.toNat
    check (decide (a.toNat % n = 0)) 13
    let t ← xlate w [.atomic] a.toNat 9 true
    check (decide (regionOf t.pa ≠ .peer) || Config.routeCarriesAtomics (bits t.pa 49 38)) 15
    .ok ((w1.pushOut .atomic 2 (dest we wd.toNat) a b 40 none).pushAccess
      (.atomic op n b.toNat nw.toNat f w.me.seq) a.toNat t false)

/-- Bytes of `amo.fadd` by its format (R307). -/
def faddBytes (q : BitVec 2) : Nat := if q.toNat ≤ 1 then 2 else 4

-- Range operations and publish

/-- The plan of `clean.r`, `inval.r` and `flush.r`: 0, 1 and 2 (R320); a length of 0 does nothing. -/
def rangePlan (op : Nat) (om : BitVec 2) (os ts : BitVec 7) (w : Work) : Plan :=
  if guardTrue w = false then .ok w
  else do
    let (a, b, w1) ← readAB w 5 om os ts
    check (decide (b.toNat ≤ 2 ^ 40) && (decide (b.toNat = 0) || decide (a.toNat + b.toNat - 1 < 2 ^ 56))) 10
    checkVal (vaOk a || decide (b = 0)) 8 a.toNat
    if b = 0 then .ok w1
    else .ok (w1.updMe fun c => { c with
      seq := c.seq + 1
      accs := c.accs ++ [{ kind := .range op b.toNat, va := a.toNat, pa := 0x8000000000000, pc := w.dev.issue.pc,
                           seq := c.seq, at_ := w.myCore.clk }] })

/-- The offset that a publish carries: where B[63:33] is not 0 its handle, B[31:0], counts as one outside the table, and the offset
stands above all that an operand names (R321). -/
def publishOffset (a b : Word) : Nat := if b.toNat < 2 ^ 33 then a.toNat else a.toNat + 2 ^ 64

/-- The plan of `publish` (R321): posted, its checks made when it is performed (R169). -/
def publishPlan (om : BitVec 2) (os ts : BitVec 7) (w : Work) : Plan :=
  if guardTrue w = false then .ok w
  else do
    let (a, b, w1) ← readAB w 5 om os ts
    let h := b.toNat % 2 ^ 32
    let entry := (w.dev.partOf w.me.part).htab + 16 * h
    .ok (w1.updMe fun c => { c with
      seq := c.seq + 1
      accs := c.accs ++ [{ kind := .publish (publishOffset a b) h (bit b.toNat 32), va := 0, pa := entry, pc := w.dev.issue.pc,
                           seq := c.seq, at_ := w.myCore.clk }] })

-- Completion barrier words

/-- The word that `bw.init` stores for a count (R356). -/
def armedWord (count : Nat) : Nat := if count = 0 then 2 ^ 40 else count

/-- The armed-word table with a word armed (R327); the entry is in effect from cycle `t` on (Table 9.1). -/
def armWord (l : List Armed) (va pa count t : Nat) : List Armed :=
  let rest := l.filter fun x => decide (x.va ≠ va)
  if count = 0 then rest
  else
    let prev := (l.find? fun x => decide (x.va = va)).map fun x => x.count
    rest ++ [{ va := va, pa := pa, count := count, from_ := t, prev := prev }]

/-- The armed-word table has no entry free for a `bw.init`: what its operand registers hold decides, marked or not, as the hold comes
before a fault of the operands (R327, R418). -/
def armsFull (w : Work) (om : BitVec 2) (os ts : BitVec 7) : Bool :=
  match readAB (w.updMe fun c => { c with mark := [] }) 5 om os ts with
  | .ok (a, b, _) => decide (b ≠ 0) && decide (32 ≤ (w.me.armed.filter fun x => decide (x.va ≠ a.toNat)).length)
  | .error _ => false

/-- The plan of `bw.init` (R327). -/
def bwInitPlan (om : BitVec 2) (os ts : BitVec 7) (w : Work) : Plan :=
  if guardTrue w = false then .ok w
  else do
    if armsFull w om os ts then .error (.hold .limited)
    else
      let (a, b, w1) ← readAB w 5 om os ts
      check (decide (b.toNat < 2 ^ 40)) 2
      checkVal (vaOk a) 9 a.toNat
      check (decide (a.toNat % 8 = 0)) 13
      let t ← xlate w [.write] a.toNat 9 false
      .ok ((w1.pushAccess (.store 8 (armedWord b.toNat)) a.toNat t true).updMe fun c => { c with
      armed := armWord c.armed a.toNat t.pa b.toNat (w.myCore.clk + 2) })

/-- The plan of `bw.wait` (R328): its word is tested at its home, at issue and at every change of its line. -/
def bwWaitPlan (om : BitVec 2) (os ts : BitVec 7) (wd : BitVec 6) (we : BitVec 1) (w : Work) : Plan :=
  if guardTrue w = false then .ok w
  else do
    bufferFree w.me
    let (a, b, w1) ← readAB w 5 om os ts
    let x := a + b
    checkVal (vaOk x) 8 x.toNat
    check (decide (x.toNat % 8 = 0)) 13
    let t ← xlate w [.read] x.toNat 8 false
    .ok (((w1.pushOut (.word x.toNat) 5 (dest we wd.toNat) a b 8 none).updMe fun c => { c with
      seq := c.seq + 1 }).tlbFill w.dev.issue.core w.me.part x.toNat t)

/-- `ld`, at t + 6 (R303). -/
def execLd (om : BitVec 2) (os : BitVec 7) (ts : BitVec 7) (wd : BitVec 6) (we : BitVec 1) (q : BitVec 2)
    (σ : State) : Host.Outcome State Fault Refusal :=
  .next (slotRun (loadLocal true om os ts wd we q) σ)

/-- `ldu`, at t + 6 (R303). -/
def execLdu (om : BitVec 2) (os : BitVec 7) (ts : BitVec 7) (wd : BitVec 6) (we : BitVec 1) (q : BitVec 2)
    (σ : State) : Host.Outcome State Fault Refusal :=
  .next (slotRun (loadLocal false om os ts wd we q) σ)

/-- `st` (R303). -/
def execSt (om : BitVec 2) (os : BitVec 7) (ts : BitVec 7) (wd : BitVec 6) (q : BitVec 2)
    (σ : State) : Host.Outcome State Fault Refusal :=
  .next (slotRun (storeLocal om os ts wd q) σ)

/-- `ld.g`, at t + LD (R304). -/
def execLdG (om : BitVec 2) (os : BitVec 7) (ts : BitVec 7) (wd : BitVec 6) (we : BitVec 1) (q : BitVec 2)
    (σ : State) : Host.Outcome State Fault Refusal :=
  .next (slotRun (loadPlan false om os ts wd we q) σ)

/-- `st.g`, posted (R304). -/
def execStG (om : BitVec 2) (os : BitVec 7) (ts : BitVec 7) (wd : BitVec 6) (q : BitVec 2)
    (σ : State) : Host.Outcome State Fault Refusal :=
  .next (slotRun (storeGlobal om os ts wd q) σ)

/-- `ld.e`, at t + LD (R305). -/
def execLdE (om : BitVec 2) (os : BitVec 7) (ts : BitVec 7) (wd : BitVec 6) (we : BitVec 1) (q : BitVec 2)
    (σ : State) : Host.Outcome State Fault Refusal :=
  .next (slotRun (loadPlan true om os ts wd we q) σ)

/-- `st.e`, posted (R305). -/
def execStE (om : BitVec 2) (os : BitVec 7) (ts : BitVec 7) (wd : BitVec 6) (q : BitVec 2)
    (σ : State) : Host.Outcome State Fault Refusal :=
  .next (slotRun (storeExtent om os ts wd q) σ)

/-- `pref`, posted (R306). -/
def execPref (om : BitVec 2) (os : BitVec 7) (ts : BitVec 7) (σ : State) : Host.Outcome State Fault Refusal :=
  .next (slotRun (prefPlan om os ts) σ)

/-- `amo.add` (R307). -/
def execAmoAdd (om : BitVec 2) (os : BitVec 7) (ts : BitVec 7) (wd : BitVec 6) (we : BitVec 1) (q : BitVec 2)
    (σ : State) : Host.Outcome State Fault Refusal :=
  .next (slotRun (atomicPlan 0 (sizeBytes q) 0 om os ts wd we) σ)

/-- `amo.and` (R307). -/
def execAmoAnd (om : BitVec 2) (os : BitVec 7) (ts : BitVec 7) (wd : BitVec 6) (we : BitVec 1) (q : BitVec 2)
    (σ : State) : Host.Outcome State Fault Refusal :=
  .next (slotRun (atomicPlan 1 (sizeBytes q) 0 om os ts wd we) σ)

/-- `amo.or` (R307). -/
def execAmoOr (om : BitVec 2) (os : BitVec 7) (ts : BitVec 7) (wd : BitVec 6) (we : BitVec 1) (q : BitVec 2)
    (σ : State) : Host.Outcome State Fault Refusal :=
  .next (slotRun (atomicPlan 2 (sizeBytes q) 0 om os ts wd we) σ)

/-- `amo.xor` (R307). -/
def execAmoXor (om : BitVec 2) (os : BitVec 7) (ts : BitVec 7) (wd : BitVec 6) (we : BitVec 1) (q : BitVec 2)
    (σ : State) : Host.Outcome State Fault Refusal :=
  .next (slotRun (atomicPlan 3 (sizeBytes q) 0 om os ts wd we) σ)

/-- `amo.min` (R307). -/
def execAmoMin (om : BitVec 2) (os : BitVec 7) (ts : BitVec 7) (wd : BitVec 6) (we : BitVec 1) (q : BitVec 2)
    (σ : State) : Host.Outcome State Fault Refusal :=
  .next (slotRun (atomicPlan 4 (sizeBytes q) 0 om os ts wd we) σ)

/-- `amo.max` (R307). -/
def execAmoMax (om : BitVec 2) (os : BitVec 7) (ts : BitVec 7) (wd : BitVec 6) (we : BitVec 1) (q : BitVec 2)
    (σ : State) : Host.Outcome State Fault Refusal :=
  .next (slotRun (atomicPlan 5 (sizeBytes q) 0 om os ts wd we) σ)

/-- `amo.minu` (R307). -/
def execAmoMinu (om : BitVec 2) (os : BitVec 7) (ts : BitVec 7) (wd : BitVec 6) (we : BitVec 1) (q : BitVec 2)
    (σ : State) : Host.Outcome State Fault Refusal :=
  .next (slotRun (atomicPlan 6 (sizeBytes q) 0 om os ts wd we) σ)

/-- `amo.maxu` (R307). -/
def execAmoMaxu (om : BitVec 2) (os : BitVec 7) (ts : BitVec 7) (wd : BitVec 6) (we : BitVec 1) (q : BitVec 2)
    (σ : State) : Host.Outcome State Fault Refusal :=
  .next (slotRun (atomicPlan 7 (sizeBytes q) 0 om os ts wd we) σ)

/-- `amo.swap` (R307). -/
def execAmoSwap (om : BitVec 2) (os : BitVec 7) (ts : BitVec 7) (wd : BitVec 6) (we : BitVec 1) (q : BitVec 2)
    (σ : State) : Host.Outcome State Fault Refusal :=
  .next (slotRun (atomicPlan 8 (sizeBytes q) 0 om os ts wd we) σ)

/-- `amo.cas` (R307). -/
def execAmoCas (om : BitVec 2) (os : BitVec 7) (ts : BitVec 7) (wd : BitVec 6) (we : BitVec 1) (q : BitVec 2)
    (σ : State) : Host.Outcome State Fault Refusal :=
  .next (slotRun (atomicPlan 9 (sizeBytes q) 0 om os ts wd we) σ)

/-- `amo.fadd` (R307). -/
def execAmoFadd (om : BitVec 2) (os : BitVec 7) (ts : BitVec 7) (wd : BitVec 6) (we : BitVec 1) (q : BitVec 2)
    (σ : State) : Host.Outcome State Fault Refusal :=
  .next (slotRun (atomicPlan 10 (faddBytes q) q.toNat om os ts wd we) σ)

/-- `clean.r`, posted (R320). -/
def execCleanR (om : BitVec 2) (os : BitVec 7) (ts : BitVec 7) (σ : State) : Host.Outcome State Fault Refusal :=
  .next (slotRun (rangePlan 0 om os ts) σ)

/-- `inval.r`, posted (R320). -/
def execInvalR (om : BitVec 2) (os : BitVec 7) (ts : BitVec 7) (σ : State) : Host.Outcome State Fault Refusal :=
  .next (slotRun (rangePlan 1 om os ts) σ)

/-- `flush.r`, posted (R320). -/
def execFlushR (om : BitVec 2) (os : BitVec 7) (ts : BitVec 7) (σ : State) : Host.Outcome State Fault Refusal :=
  .next (slotRun (rangePlan 2 om os ts) σ)

/-- `publish`, posted (R321). -/
def execPublish (om : BitVec 2) (os : BitVec 7) (ts : BitVec 7) (σ : State) : Host.Outcome State Fault Refusal :=
  .next (slotRun (publishPlan om os ts) σ)

/-- `bw.init` (R327). -/
def execBwInit (om : BitVec 2) (os : BitVec 7) (ts : BitVec 7) (σ : State) : Host.Outcome State Fault Refusal :=
  .next (slotRun (bwInitPlan om os ts) σ)

/-- `bw.wait`, at t + LD or later (R328). -/
def execBwWait (om : BitVec 2) (os : BitVec 7) (ts : BitVec 7) (wd : BitVec 6) (we : BitVec 1)
    (σ : State) : Host.Outcome State Fault Refusal :=
  .next (slotRun (bwWaitPlan om os ts wd we) σ)

end Sys2Proof.Machine
end

