-- ==== Sys2Proof/Machine/Engine.lean ====
section
/-! DEFINITION. What the copy engines and the weight-load stream share: the checks of a command at acceptance, the
reading and writing of sectors while it runs, and the act on its completion barrier word (R156, R196 to R204, R356 to
R358, R375 to R378). -/

namespace Sys2Proof.Machine

-- Checks at acceptance

/-- The word checks of R358: the word's physical address, or 0 where A names none. -/
def wordCheck (w : Work) (a : Word) : Except Stop Nat :=
  if a = 0 then .ok 0
  else do
    checkVal (vaOk a) 9 a.toNat
    check (decide (a.toNat % 8 = 0)) 13
    let x ← xlate w [.write] a.toNat 9 false
    .ok x.pa

/-- BASE, the destination displacement and every stride used are multiples of the element bytes (R377). -/
def walkAligned (i : NestImage) (base disp : Int) : Bool :=
  let n : Int := nestUnit i
  decide (base % n = 0) && decide (disp % n = 0) &&
    (List.range (nestDims i)).all fun d => decide (nestStride i d % n = 0)

/-- The granules of 2 MiB that a byte range of the own column touches are private to the context (R166). -/
def granulesOwn (d : Dev) (core bank lo hi : Nat) : Bool :=
  (List.range (hi / 2 ^ 21 + 1 - lo / 2 ^ 21)).all fun k =>
    decide ((d.column core).tags.get (lo / 2 ^ 21 + k) 0 = bank + 1)

/-- The staging ways that a byte range touches are staging (R174). -/
def waysStaging (d : Dev) (core : Nat) (lo hi : Int) : Bool :=
  (List.range 16).all fun k =>
    isStaging d (coreCluster core) k ||
      !(decide (lo ≤ 16384 * (k : Int) + 16383) && decide (16384 * (k : Int) ≤ hi))

/-- The span and alignment checks of one walk (R377 step 4), in their order; `out` says that it is a destination. -/
def walkCheck (w : Work) (i : NestImage) (disp : Int) (out : Bool) : Except Stop Unit := do
  let c := w.me
  let core := w.dev.issue.core
  let kind := nestKind i
  let raw := nestBase i
  let base : Int := baseOffset kind raw
  check (walkAligned i base disp) 13
  let span := nestSpan i (base + disp)
  let lo := (span.getD (0, 0)).1
  let hi := (span.getD (0, 0)).2
  match kind with
  | 1 => check (span.isNone || (decide (0 ≤ lo) && decide (hi < 2 ^ 56))) 10
  | 2 =>
    match c.ext.get? (raw % 16) with
    | none => trapOn 53
    | some e =>
      check (span.isNone || (decide (0 ≤ lo) && decide (hi < e.len))) 10
      check (bit e.perms (if out then 1 else 0)) 11
  | 3 => check (span.isNone || (decide (0 ≤ lo) && c.declares lo.toNat (hi + 1 - lo).toNat)) 10
  | 4 =>
    check (span.isNone || (decide (0 ≤ lo) && decide (hi < 2 ^ 29))) 10
    check (span.isNone || granulesOwn w.dev core w.dev.issue.bank lo.toNat hi.toNat) 11
  | _ =>
    check (span.isNone || waysStaging w.dev core lo hi) 34
    check (span.isNone || (decide (0 ≤ lo) && decide (hi < 0x40000))) 10

/-- Where the offsets of a walk of a context count from, for a byte offset of its space (R324, R148). -/
def spotAt (c : Ctx) (core : Nat) (kind raw : Nat) (disp : Int) : Spot :=
  let b : Int := (baseOffset kind raw : Int) + disp
  match kind with
  | 2 =>
    let e := c.ext.get (raw % 16) { pa := 0, len := 0, perms := 0, cls := 3, va := 0, desc := 0, lines := [] }
    { kind := 2, addr := (e.pa : Int) + b, cls := e.cls }
  | 3 => { kind := 3, addr := b + c.reloc }
  | 4 => { kind := 4, addr := (core * 2 ^ 29 : Nat) + b }
  | 5 => { kind := 5, addr := (raw % 64 * 0x40000 : Nat) + b }
  | k => { kind := k, addr := b }

/-- The spot of a nest image's BASE. -/
def baseSpot (c : Ctx) (core : Nat) (i : NestImage) (disp : Int) : Spot := spotAt c core (nestKind i) (nestBase i) disp

-- Sectors

/-- Why a command does not reach a place: the fault of Table 14.5, cause and detail; with `line`, a walk that waits for a line;
with `ring`, a malformed page-table entry, which is entered in the error ring (R162 step 2). -/
structure RunErr where
  cause : Nat
  detail : Nat := 0
  line : Option Nat := none
  ring : Option Nat := none
  deriving DecidableEq, Repr

/-- Where a physical place is reached, or the fault found there (Table 14.5). -/
abbrev Reach (α : Type) := Except RunErr α

/-- A fault of Table 14.5 that has no detail. -/
def runFault {α : Type} (cause : Nat) : Reach α := .error { cause := cause }

/-- What a failed translation is to a running command. -/
def XErr.run (e : XErr) (base va : Nat) : RunErr :=
  match e with
  | .absent _ => { cause := base }
  | .malformed => { cause := base, ring := some va }
  | .refused c => { cause := c }
  | .busy l => { cause := base, line := some l }

/-- Who issued a command, as far as its accesses depend on it. -/
structure Issuer where
  core : Nat
  bank : Nat
  part : Nat
  sec : Bool
  deriving DecidableEq, Repr

/-- What a fault found by a running command does beside its word: the step waits, or the error ring takes an entry. -/
def Work.runErr (w : Work) (who : Issuer) (e : RunErr) : Work :=
  let w1 := match e.line with
    | some l => w.waitFor true l
    | none => w
  match e.ring with
  | some va => w1.logError e.cause who.part who.core va
  | none => w1

/-- The refusals of a bank operation at a physical address (R176). -/
def bankRefusal (d : Dev) (who : Issuer) (pa : Nat) : Option Nat :=
  let tag := privateTag d pa
  if regionOf pa ≠ .stacked ∨ columnOf pa / 128 ≠ coreDie who.core then some 35
  else if tag ≠ 0 ∧ (columnOf pa ≠ who.core ∨ tag ≠ who.bank + 1) then some 11
  else if reachFault d (coreDie who.core) pa ≠ 0 then some (reachFault d (coreDie who.core) pa)
  else if (d.column (columnOf pa)).layers ≤ layerOf pa then some 14
  else if d.coh.devBias.contains (pa / 4096) = false then some 59
  else none

/-- The physical address and class of an address of KIND 1, 2 or 4; one of KIND 1 translates with the permissions asked for. -/
def physOf (w : Work) (who : Issuer) (kind cls : Nat) (addr : Int) (base : Nat) (need : List Need) : Reach (Nat × Nat) :=
  let a := addr.toNat
  if kind ≠ 1 then .ok (a, cls)
  else if addr < 0 ∨ (2 : Int) ^ 56 ≤ addr then .error { cause := 32, detail := 3 }
  else match translate w { part := who.part, sec := who.sec, die := coreDie who.core } need a with
    | .error e => .error (e.run base a)
    | .ok x => .ok (x.pa, x.cls)

/-- The physical address and class of an address of KIND 1, 2 or 4, with the refusals at run time (R378): a private granule
must be the context's when it is reached (R166). `array` is set for a bank operation. -/
def reachPhys (w : Work) (who : Issuer) (kind cls : Nat) (addr : Int) (out array : Bool) : Reach (Nat × Nat) := do
  let a := addr.toNat
  let at1 ← physOf w who kind cls addr (if out then 9 else 8) [if out then .write else .read]
  if array then
    match bankRefusal w.dev who at1.1 with
    | some c => runFault c
    | none => .ok at1
  else if kind = 4 ∧ privateTag w.dev a ≠ who.bank + 1 then runFault 11
  else if kind = 4 ∧ (w.dev.column who.core).layers ≤ layerOf a then runFault 14
  else if reachFault w.dev (coreDie who.core) at1.1 ≠ 0 then runFault (reachFault w.dev (coreDie who.core) at1.1)
  else .ok at1

/-- The 4 KiB pages that the elements of a walk lie in. -/
def walkPages (i : NestImage) (s : Spot) : List Nat :=
  ((List.range (nestPositions i)).foldl (fun l p =>
    let a := (s.addr + nestOffset i p).toNat / 4096
    if l.contains a then l else l ++ [a]) [])

/-- The refusals of a bank operation that are found at issue, precise for the issuing core (R176): on each page of a walk, and that of
an address which is not present is left to the running command. -/
def bankCheck (w : Work) (i : NestImage) (disp : Int) : Except Stop Unit :=
  let c := w.me
  let who : Issuer := { core := w.dev.issue.core, bank := w.dev.issue.bank, part := c.part, sec := c.sec }
  let s := baseSpot c who.core i disp
  (walkPages i s).foldl (fun r pg => r.bind fun _ =>
    match physOf w who s.kind s.cls (4096 * pg : Nat) 8 [] with
    | .error e => (match e.line with
      | some l => .error (.hold (.walk l))
      | none => if e.cause = 8 ∨ e.cause = 32 then .ok () else trapOn e.cause)
    | .ok x => match bankRefusal w.dev who x.1 with
      | some cause => trapOn cause
      | none => .ok ()) (.ok ())

/-- The way of the cluster's slices that a staging sector lies in is staging now (R174). -/
def wayHeld (d : Dev) (core sector : Nat) : Bool := isStaging d (coreCluster core) (32 * sector % 0x40000 / 16384)

/-- A sector of a space as a command reads it: its 32 bytes, the logical time of the read, and the state (R156, R197). A
column-private sector carries no lease (R166); coherent ones are read with the lease of an agent that is no context
(R188). -/
def readSector (w : Work) (who : Issuer) (id lts : Nat) (snap : List Host.Cell) (s : Spot) (sector : Nat)
    (array : Bool) : Reach (Nat × Nat × Work) :=
  match s.kind with
  | 3 =>
    if (w.core who.core).lsBad.contains sector then runFault 41
    else .ok (w.engineRead who.core id snap (32 * sector) 32, 0, w)
  | 5 =>
    if wayHeld w.dev who.core sector = false then runFault 34
    else if sectorError w.dev (Key.staging (coreCluster who.core) 0 (32 * sector) / 32) ≠ 0 then runFault 42
    else .ok (w.readN (Key.staging (coreCluster who.core) 0 (32 * sector)) 32, 0, w)
  | _ => do
    let x ← reachPhys w who s.kind s.cls (32 * sector : Nat) false array
    if regionOf x.1 = .peer then
      let f := w.free
      .ok (f.1 % 2 ^ 256, 0, f.2)
    else if sectorError w.dev (x.1 / 32) ≠ 0 then runFault (sectorError w.dev (x.1 / 32))
    else if w.poisonAt x.1 32 ≠ 0 then runFault 39
    else if array ∨ s.kind = 4 then .ok (w.arrayRead x.1 32, 0, w.waitFor (homeBusy w.dev (x.1 / 64)) (x.1 / 64))
    else
      let c := w.ctx who.core who.bank
      .ok (w.cohRead (coreCluster who.core) lts agentLease x.2 (quotaOf c.l2div x.2) x.1 32)

/-- The sector may be reached now: nothing that an access to its line waits for is left (R24, R50, R76, R78, R141). -/
def sectorReady (w : Work) (who : Issuer) (s : Spot) (sector : Nat) (out : Bool) : Bool :=
  if s.kind = 3 ∨ s.kind = 5 then true
  else match reachPhys w who s.kind s.cls (32 * sector : Nat) out false with
    | .error _ => true
    | .ok x => if out then !writeWaits w.dev (x.1 / 64) else !readWaits w.dev (x.1 / 64)

/-- A change of n bytes at an offset of a sector. -/
structure Patch where
  off : Nat
  n : Nat
  val : Nat
  deriving DecidableEq, Repr

/-- n bytes at an offset of packed bytes replaced. -/
def patchBytes (x off n v : Nat) : Nat :=
  x % 2 ^ (8 * off) + 2 ^ (8 * off) * (v % 2 ^ (8 * n)) + 2 ^ (8 * (off + n)) * (x / 2 ^ (8 * (off + n)))

/-- A sector after its patches in walk order; each value may depend on the element it replaces (R198, R380). -/
def patchAll (op : Nat → Nat → Nat) (x : Nat) (ps : List Patch) : Nat :=
  ps.foldl (fun y p => patchBytes y p.off p.n (op (packedBytes y p.off p.n) p.val)) x

/-- First byte of a sector that its patches write, and the byte after the last. -/
def patchSpan (ps : List Patch) : Nat × Nat :=
  (ps.foldl (fun m p => min m p.off) 32, ps.foldl (fun m p => max m (p.off + p.n)) 0)

/-- A sector of the local store written whole holds no error any longer (DESIGN CHOICE, notes/assumptions/66.md). -/
def Core.wrote (c : Core) (sector n : Nat) : Core :=
  if n = 32 then { c with lsBad := c.lsBad.filter fun s => decide (s ≠ sector) } else c

/-- The same for a sector of a staging way. -/
def Coherence.wrote (c : Coherence) (sector n : Nat) : Coherence :=
  if n = 32 then { c with errors := c.errors.del sector } else c

/-- A sector of a space as a command writes it, at one logical time above t, with the time of the write (R198). -/
def writeSector (w : Work) (who : Issuer) (t : Nat) (s : Spot) (sector : Nat) (op : Nat → Nat → Nat) (ps : List Patch)
    (reduce array : Bool) : Reach (Nat × Work) :=
  let sp := patchSpan ps
  let lo := sp.1
  let n := sp.2 - sp.1
  match s.kind with
  | 3 =>
    let k := Key.ls who.core (32 * sector)
    .ok (t, (w.lsPut who.core (32 * sector + lo) n (packedBytes (patchAll op (w.readN k 32) ps) lo n)).updCore who.core fun c =>
      c.wrote sector n)
  | 5 =>
    let k := Key.staging (coreCluster who.core) 0 (32 * sector)
    if wayHeld w.dev who.core sector = false then runFault 34
    else .ok (t, (w.writeN (k + lo) n (packedBytes (patchAll op (w.readN k 32) ps) lo n)).updCoh fun c =>
      c.wrote (k / 32) n)
  | _ => do
    let x ← reachPhys w who s.kind s.cls (32 * sector : Nat) true array
    if array ∨ s.kind = 4 then
      .ok (t, w.arrayWrite who.core who.bank (x.1 + lo) n (packedBytes (patchAll op (w.arrayRead x.1 32) ps) lo n))
    else if regionOf x.1 = .peer then (if reduce then .error { cause := 32, detail := 2 } else .ok (t, w))
    else .ok (w.cohWrite (t + 1) (x.1 + lo) n (packedBytes (patchAll op (w.pread x.1 32) ps) lo n))

-- The act on a completion barrier word

/-- A completion barrier word after the act of a command (R357). -/
def wordAct (x bytes : Nat) (err : Option (Nat × Nat)) : Nat :=
  let count := bits x 39 0
  if bits x 41 40 = 2 then x
  else match err with
    | some e => count + 2 ^ 41 + 2 ^ 42 * (e.1 % 64) + 2 ^ 48 * (e.2 % 2 ^ 16)
    | none =>
      if count < bytes then 2 ^ 41 + 2 ^ 42 * 36
      else if count = bytes then bits x 63 42 * 2 ^ 42 + 2 ^ 40
      else x - bytes

/-- The act of a command on its word at its home, above the command's writes, with the armed-word entry (R357, R199). A command with
A = 0 names no word, and a word that no longer translated when its command was issued again is out of reach. -/
def Work.actOnWord (w : Work) (core bank va pa wts bytes : Nat) (err : Option (Nat × Nat)) : Work :=
  let raised (a : Work) (t : Nat) : Work := a.updCtx core bank fun c =>
    { (if err.isNone then c.count 5 bytes else c) with engLts := max c.engLts t }
  if va = 0 ∨ reachFault w.dev (coreDie core) pa ≠ 0 ∨ regionOf pa = .peer ∨ regionOf pa = .unmapped then raised w wts
  else
    let v := wordAct (w.pread pa 8) bytes err
    let r := w.cohWrite (wts + 1) pa 8 v
    raised (r.2.updCtx core bank fun c => c.armedNow pa v r.1) r.1

/-- A `bw.init` of the word that was in effect when the command was accepted has not yet been performed (R358). -/
def initPending (w : Work) (core bank pa t : Nat) : Bool :=
  (w.ctx core bank).accs.any fun a => a.arms && decide (a.pa = pa) && decide (a.at_ + 2 ≤ t)

/-- A number put into a rising list once. -/
def insertNat (x : Nat) : List Nat → List Nat
  | [] => [x]
  | y :: t => if x < y then x :: y :: t else if x = y then y :: t else y :: insertNat x t

/-- The distinct numbers of a list, rising. -/
def sortNats (l : List Nat) : List Nat := l.foldr insertNat []

end Sys2Proof.Machine
end

