-- ==== Sys2Proof/Machine/Matrix.lean ====
section
/-! DEFINITION. The M-slot forms, the weight-load stream and passes being triggered (R251 to R253, R359 to R374). -/

namespace Sys2Proof.Machine

-- Banks and the weight-load stream

/-- The state of a bank as the stream's commands leave it: the oldest of them on the bank decides (R359). -/
def Core.bankState (c : Core) (b : Nat) : WState :=
  match c.strm.find? fun x => decide (x.wbank = b) with
  | some x => if x.form = 2 then .calibrating else .loading
  | none => (c.wb.get b {}).st

/-- A bank's calibration is stale (R251). -/
def bankStale (d : Dev) (b : WBank) : Bool := b.stale || decide (b.calAt + 300000000 ≤ d.now)

/-- The number of positions that a weight load's walk must have (R360). -/
def loadPositions (k : PassClass) : Nat := if k.is16 then 131072 else 262144

/-- A third command on the stream freezes issue (R359). -/
def streamRoom (w : Work) : Except Stop Unit :=
  if w.myCore.strm.length < 2 then .ok () else .error (.hold .limited)

/-- The bank is bound by a pass in flight or waiting: cause 28 (R361, R374). -/
def bankFree (w : Work) (b : Nat) : Except Stop Unit := check (!w.myCore.bound b) 28

/-- The checks of a weight load's own nest register and word (R361). -/
def loadChecks (w : Work) (i : NestImage) (b : Nat) (a : Word) : Except Stop Nat := do
  check (nestValid i) 37
  let k := passClass (nestFormat i)
  check (match k with
    | some x => decide (nestPositions i = loadPositions x)
    | none => decide (nestPositions i = 262144) || decide (nestPositions i = 131072)) 37
  check k.isSome 29
  bankFree w b
  let pa ← wordCheck w a
  walkCheck w i 0 false
  .ok pa

/-- A calibration that stands at the head of an idle stream starts its 2,048 cycles at once (R374). -/
def Core.startCal (c : Core) : Core :=
  match c.strm with
  | [] => c
  | x :: rest =>
    if x.form = 2 ∧ x.started = false then { c with strm := { x with started := true, due := c.raw + 2048 } :: rest } else c

/-- A command accepted by the weight-load stream (R359). -/
def Work.pushStream (w : Work) (form b : Nat) (i : NestImage) (a : Word) (pa : Nat) (grp : Option (Nat × Nat)) : Work :=
  let s := w.dev.issue
  let c := w.me
  w.updCore s.core fun k =>
    let cmd : WCmd :=
      { form := form, wbank := b, id := k.cmdSer, ctx := s.bank, pc := s.pc, at_ := k.clk, img := i,
        src := baseSpot c s.core i 0, scale := spotAt c s.core (nestKind i) (nestScBase i) 0,
        word := a.toNat, wordPa := pa, part := c.part, sec := c.sec, snap := w.lsSnap s.core,
        grp := grp.map fun g => if g.1 = s.core then (s.core, k.cmdSer) else g
        members := if grp.isSome then quireOf w.dev s.core s.bank else [] }
    Core.startCal { k with
      cmdSer := k.cmdSer + 1
      strm := k.strm ++ [cmd]
      wb := if form = 2 then k.wb else k.wb.set b { k.wb.get b {} with owner := s.bank } }

/-- The plan of `mwld` (R360, R361). -/
def mwldPlan (ts : BitVec 7) (b : BitVec 1) (k : BitVec 4) (w : Work) : Plan := do
  streamRoom w
  let a ← readSel w ts.toNat
  let i := w.me.nest.get k.toNat 0
  let pa ← loadChecks w i b.toNat a
  .ok (w.pushStream 0 b.toNat i a pa none)

/-- The broadcast of the lead that a follower's `mwld.b` accepts: the oldest that the follower has not (R362). -/
def leadLoad (w : Work) : Option WCmd :=
  let mine := w.myCore.strm.filterMap fun x => x.grp
  ((w.core w.me.lead).strm.filter fun x => decide (x.form = 1) && decide (x.ctx = w.dev.issue.bank)).find? fun x =>
    !mine.contains (w.me.lead, x.id)

/-- The plan of `mwld.b` (R362): in a quire of several members the lead's nest register is the one read, and a follower
checks its own bank and its own word. -/
def mwldBPlan (ts : BitVec 7) (b : BitVec 1) (k : BitVec 4) (w : Work) : Plan := do
  streamRoom w
  let a ← readSel w ts.toNat
  let core := w.dev.issue.core
  if (quireOf w.dev core w.dev.issue.bank).length = 1 then
    let i := w.me.nest.get k.toNat 0
    let pa ← loadChecks w i b.toNat a
    .ok (w.pushStream 1 b.toNat i a pa none)
  else if w.me.lead = core then
    let i := w.me.nest.get k.toNat 0
    let pa ← loadChecks w i b.toNat a
    .ok (w.pushStream 1 b.toNat i a pa (some (core, 0)))
  else
    match leadLoad w with
    -- a follower's command joins that of its lead, which is there once the lead's bundle has committed: where members issue in the
    -- same cycle it follows within it (R139)
    | none =>
      if w.me.skew = 0 ∧ w.dev.issue.probe then do
        bankFree w b.toNat
        let _ ← wordCheck w a
        .ok w
      else .error (.hold .limited)
    | some x => do
      bankFree w b.toNat
      let pa ← wordCheck w a
      .ok (w.pushStream 1 b.toNat x.img a pa (some (w.me.lead, x.id)))

/-- The plan of `mcal` (R374). -/
def mcalPlan (b : BitVec 1) (w : Work) : Plan := do
  streamRoom w
  bankFree w b.toNat
  .ok (w.pushStream 2 b.toNat 0 0 0 none)

/-- The plan of `mswap` (R364): the change holds for passes triggered from t + 1 onward. -/
def mswapPlan (x : BitVec 2) (w : Work) : Plan := do
  check (decide (x ≠ 1)) 2
  .ok (w.launchAt 1 (.bankSwap x.toNat))

-- Passes

/-- The units that a tile spans before the relocation: one, or a pair (R255, R366). -/
def tileUnits (k : PassClass) (af u : Nat) : Nat × Nat := if classPairs k af then (u, u + 1) else (u, u)

/-- The cycle at which a pass ends its streaming (R253). -/
def Core.passEnd (c : Core) (p : Pass) : Nat := p.start + p.rows * c.cadenceOf p

/-- Passes of the core whose streaming has not ended (R253). -/
def Core.streaming (c : Core) : Nat := (c.passes.filter fun p => decide (c.clk < c.passEnd p)).length

/-- The holds of a trigger (R252, R253): a third pass, then a bank whose load or calibration is not complete. -/
def passHold (w : Work) : Except Stop Unit :=
  let c := w.myCore
  if 2 ≤ c.streaming then .error (.hold .sequencer)
  else match c.bankState c.active with
    | .loading => .error (.hold .limited)
    | .calibrating => .error (.hold .limited)
    | .empty => .ok ()
    | .loaded => .ok ()

/-- The reserved bits of a pass descriptor are 0 (R365). -/
def descriptorOk (a : Nat) : Bool :=
  !bit a 7 && decide (bits a 15 14 = 0) && !bit a 23 && decide (a < 2 ^ 25)

/-- The effective split of a pass (R246). -/
def Ctx.effSplit (c : Ctx) (p : Nat) : Nat := if c.mmode = 1 then 0 else min p c.split

/-- The format checks of R367 step 4, with the class of the active bank. -/
def passFormats (i : NestImage) (b : WBank) (loaded fwd : Bool) (af split unit ch : Nat) : Except Stop PassClass :=
  let wf := (Fmt.ofCode b.fmt).getD .byte
  match passClass wf with
  | none => trapOn 29
  | some k => do
    check loaded 29
    check (classPair (nestFormat i) wf) 29
    check (classAcc k af) 29
    check (decide (split ≤ k.maxSplit)) 29
    check (!(classPairs k af && decide (unit % 2 = 1))) 29
    check (decide (ch = 0) || k.is16) 29
    check (!(fwd && k.isInt4)) 29
    .ok k

/-- A declared unit after the relocation of R148, or cause 30. -/
def declaredUnit (c : Ctx) (u : Nat) : Except Stop Nat :=
  match c.unit u with
  | some x => .ok x
  | none => trapOn 30

/-- A pass enters the matrix engine (R253, R366). -/
def Work.trigger (w : Work) (p : Pass) (k : PassClass) (fwd : Bool) : Work :=
  let s := w.dev.issue
  (w.updCore s.core fun c => { c with
    passes := c.passes ++ [p], pser := c.pser + 1, streamEnd := p.start + p.rows * k.cadence }).updMe fun c =>
      if fwd then { c with mrowCnt := c.mrowCnt + 1 } else c

/-- The plan of `mrun` and `mrun.f` (R365 to R368): AF, ADD, WIN and SPLIT of the slot word (R278). -/
def mrunPlan (fwd : Bool) (ts : BitVec 7) (f : BitVec 2) (add : BitVec 1) (win : BitVec 2) (sp : BitVec 4) (w : Work) :
    Plan := do
  passHold w
  let av ← readSel w ts.toNat
  let a := av.toNat
  let c := w.me
  let cr := w.myCore
  check (descriptorOk a && decide (win.toNat ≠ 3)) 2
  let rows := bits a 22 16
  let row0 := bits a 13 8
  check (decide (1 ≤ rows) && decide (rows ≤ 64) && decide (row0 + rows ≤ 64)) 29
  let i := c.nest.get (bits a 3 0) 0
  check (nestValid i && decide (nestKind i = 3) &&
    decide (nestPositions i = rows * rowPositions (nestFormat i))) 37
  let b := cr.wb.get cr.active {}
  let k ← passFormats i b (decide (b.st = .loaded)) fwd f.toNat sp.toNat (bits a 6 4) (bits a 24 24)
  let us := tileUnits k f.toNat (bits a 6 4)
  let u0 ← declaredUnit c us.1
  let u1 ← declaredUnit c us.2
  let s := c.effSplit sp.toNat
  check (decide (s = 0) || !bankStale w.dev b) 31
  walkCheck w i 0 false
  let start := max cr.clk cr.streamEnd
  .ok (w.trigger
    { ctx := w.dev.issue.bank, fwd := fwd, img := i, u0 := u0, u1 := u1, row0 := row0, rows := rows,
      ch := bits a 24 24, split := s, win := 64 * 2 ^ win.toNat, add := decide (add = 1), af := f.toNat,
      wbank := cr.active, pc := w.dev.issue.pc, seq := cr.pser, start := start, snap := w.lsSnap w.dev.issue.core,
      reloc := c.reloc, fser := c.mrowCnt + 1 } k fwd)

-- Matrix state

/-- A unit outside the declaration, or written by a pass in flight or waiting, raises cause 30 (R369, R370). -/
def writableUnit (w : Work) (u : Nat) : Except Stop Nat := do
  let x ← declaredUnit w.me u
  check (!w.myCore.writes x) 30
  .ok x

/-- The units of a mask, as relocated, all writable (R369). -/
def writableUnits (w : Work) : List Nat → Except Stop Nat
  | [] => .ok 0
  | u :: t => do
    let x ← writableUnit w u
    let m ← writableUnits w t
    .ok (m ||| 2 ^ x)

/-- The plan of `mzero` (R369): it acts at t + 1. -/
def mzeroPlan (u : BitVec 8) (w : Work) : Plan := do
  check (decide (u ≠ 0)) 2
  let m ← writableUnits w ((List.range 8).filter fun k => bit u.toNat k)
  .ok (w.launchAt 1 (.unitsZero m))

/-- Unit and row of `mbound` (R370). -/
def boundPlace (a : Nat) : Nat × Nat := (a % 8, bits a 13 8)

/-- The other bits of A are 0 (R370). -/
def boundOk (a : Nat) : Bool := decide (bits a 7 3 = 0) && decide (a < 2 ^ 14)

/-- The plan of `mbound` that reads (R370). -/
def mboundPlan (ts : BitVec 7) (w : Work) : Plan := do
  let a ← readSel w ts.toNat
  check (boundOk a.toNat) 2
  let p := boundPlace a.toNat
  let u ← declaredUnit w.me p.1
  .ok (w.launchAt 2 (.scalar 6 (BitVec.ofNat 64 (w.myCore.bnd.get (64 * u + p.2) 0)) none 0))

/-- The plan of `mbound` with `set` (R370): the entry changes at t + 1. -/
def mboundSetPlan (om : BitVec 2) (os ts : BitVec 7) (w : Work) : Plan := do
  let (a, b, w1) ← readAB w 6 om os ts
  check (boundOk a.toNat) 2
  check (decide (b.toNat < 2 ^ 32)) 2
  let p := boundPlace a.toNat
  let u ← writableUnit w p.1
  .ok (w1.launchAt 1 (.boundSet u p.2 b.toNat))

/-- The number of a bank state in `mstat` (R371). -/
def WState.code : WState → Nat
  | .empty => 0
  | .loading => 1
  | .loaded => 2
  | .calibrating => 3

/-- The word of `mstat` (R371). -/
def mstatWord (w : Work) : Nat :=
  let c := w.myCore
  let a := c.wb.get 0 {}
  let b := c.wb.get 1 {}
  let fmt (x : WBank) : Nat := if x.st = .empty then 0 else x.fmt % 16
  c.active + 2 * (c.bankState 0).code + 8 * (c.bankState 1).code + 2 ^ 8 * fmt a + 2 ^ 12 * fmt b +
    2 ^ 16 * min c.passes.length 2 + (if bankStale w.dev a then 2 ^ 18 else 0) +
    (if bankStale w.dev b then 2 ^ 19 else 0) + 2 ^ 20 * w.me.mmode + 2 ^ 21 * a.owner + 2 ^ 22 * b.owner +
    2 ^ 32 * (c.pser % 2 ^ 16)

/-- The plan of `mstat` (R371). -/
def mstatPlan (w : Work) : Plan := .ok (w.launchAt 2 (.scalar 6 (BitVec.ofNat 64 (mstatWord w)) none 0))

/-- The part of the clip record that `mclip` selects (R372). -/
def clipPart (c : Core) (q : Nat) : Nat :=
  if q < 4 then c.clipMask.toNat / 2 ^ (64 * q) % 2 ^ 64
  else c.clipLo + 2 ^ 8 * c.clipHi + (if c.clipAny then 2 ^ 16 else 0)

/-- The plan of `mclip` (R372). -/
def mclipPlan (ts : BitVec 7) (w : Work) : Plan := do
  let a ← readSel w ts.toNat
  check (decide (a.toNat ≤ 4)) 2
  .ok (w.launchAt 2 (.scalar 6 (BitVec.ofNat 64 (clipPart w.myCore a.toNat)) none 0))

/-- The plan of `mmode` (R373), which writes as `wrcw` does. -/
def mmodePlan (g : BitVec 1) (w : Work) : Plan := .ok (w.launchAt 2 (.control 0x032 (g.setWidth 64)))

-- The stream at work

/-- The members of the quire of a broadcast, or the core itself (R362). -/
def loadMembers (core : Nat) (x : WCmd) : List Nat :=
  if x.grp.isSome then x.members else [core]

/-- Every member's stream has reached the command (R362). -/
def loadReady (w : Work) (core : Nat) (x : WCmd) : Bool :=
  match x.grp with
  | none => true
  | some g => (loadMembers core x).all fun k => match (w.core k).strm with
    | [] => false
    | y :: _ => decide (y.grp = some g)

/-- The sectors that a walk of a load touches, and twice those of the scale bytes, whose two independent reads are compared (R258,
R360). -/
def loadSectors (x : WCmd) : List (Nat × Nat) :=
  let n := nestPositions x.img
  let data := sortNats ((List.range n).map fun p => (x.src.addr + nestOffset x.img p).toNat / 32)
  let sc := if nestBlk x.img = 0 then [] else
    sortNats ((List.range (n / 32)).map fun q => (x.scale.addr + scaleOffset x.img (32 * q)).toNat / 32)
  data.map (fun s => (0, s)) ++ sc.map (fun s => (1, s)) ++ sc.map fun s => (2, s)

/-- The head of a core's stream starts: a calibration begins its 2,048 cc, a load its reads (R197, R359, R374). -/
def Work.startLoad (w : Work) (core : Nat) : Work :=
  match (w.core core).strm with
  | [] => w
  | x :: rest =>
    if x.started then w
    else if x.form = 2 then w.updCore core Core.startCal
    else if loadReady w core x = false then w
    else
      let t := (w.ctx core x.ctx).lts
      let reader : Bool := match x.grp with
        | none => true
        | some g => decide (g.1 = core)
      w.updCore core fun c => { c with
        strm := { x with started := true, lts := t, wts := t, left := if reader then loadSectors x else [] } :: rest }

/-- One source sector of a load is read, in any order (R197). -/
def Work.stepLoad (w0 : Work) (core : Nat) : Work :=
  match (w0.core core).strm with
  | [] => w0
  | x :: rest =>
    let f := w0.free
    let w := f.2
    match x.left[f.1 % x.left.length]? with
    | none => w0
    | some s =>
      let spot := if s.1 = 0 then x.src else x.scale
      let who : Issuer := { core := core, bank := x.ctx, part := x.part, sec := x.sec }
      if x.started = false ∨ x.err.isSome ∨ sectorReady w who spot s.2 false = false then w0
      else match readSector w who (8 * x.id + 3 + s.1) x.lts x.snap spot s.2 false with
        | .error e => (w.runErr who e).updCore core fun c => { c with
            strm := { x with left := [], err := some (e.cause, e.detail) } :: rest }
        | .ok r =>
          r.2.2.updCore core fun c => { c with
            strm := { x with left := x.left.filter fun y => decide (y ≠ s), buf := x.buf.set (3 * s.2 + s.1) r.1,
                             wts := max x.wts r.2.1 } :: rest }

/-- n bytes at an address of a walk of a load, from the sectors read. -/
def loadByte (x : WCmd) (walk : Nat) (a : Int) (n : Nat) : Nat :=
  packedBytes (x.buf.get (3 * (a.toNat / 32) + walk) 0) (a.toNat % 32) n

/-- The scale byte of a load's block q as one of its two reads gave it (R258). -/
def loadScale (x : WCmd) (walk q : Nat) : Nat := loadByte x walk (x.scale.addr + scaleOffset x.img (32 * q)) 1

/-- The bank that a completed load leaves (R360). -/
def loadedBank (x : WCmd) (b : WBank) : WBank :=
  let n := nestPositions x.img
  let u := nestUnit x.img
  { b with
    st := .loaded
    fmt := nestFmt x.img
    data := packN (8 * u) ((List.range n).map fun p => loadByte x 0 (x.src.addr + nestOffset x.img p) u)
    hasScales := decide (nestBlk x.img ≠ 0)
    scales := if nestBlk x.img = 0 then 0 else packN 8 ((List.range (n / 32)).map (loadScale x 1))
    scaleMiss := decide (nestBlk x.img ≠ 0) && (List.range (n / 32)).any fun q => decide (loadScale x 1 q ≠ loadScale x 2 q) }

/-- The command at the head of the stream that reads for its quire has ended, with every member's word ready for its
act (R357, R358, R362). -/
def loadEnded (w : Work) (core : Nat) : Option WCmd :=
  match (w.core core).strm with
  | [] => none
  | x :: _ =>
    let reader : Bool := match x.grp with
      | none => true
      | some g => decide (g.1 = core)
    if x.form ≠ 2 ∧ x.started ∧ x.left.isEmpty ∧ reader ∧ loadReady w core x ∧
        (loadMembers core x).all fun k => match (w.core k).strm with
          | [] => false
          | y :: _ => !initPending w k y.ctx y.wordPa y.at_ then some x
    else none

/-- One member's bank takes a load's outcome, and its command acts on its word (R357, R360, R362). -/
def Work.endLoad (w : Work) (x : WCmd) (k : Nat) : Work :=
  match (w.core k).strm with
  | [] => w
  | y :: rest =>
    let w1 := w.updCore k fun c => { c with
      strm := (Core.startCal { c with strm := rest }).strm
      wb := c.wb.set y.wbank (match x.err with
        | none => loadedBank x (c.wb.get y.wbank {})
        | some _ => { c.wb.get y.wbank {} with st := .empty, fmt := 0 }) }
    w1.actOnWord k y.ctx y.word y.wordPa x.wts 262144 x.err

/-- A weight load completes or ends in error (R360, R362, R378). -/
def Work.finishLoad (w : Work) (core : Nat) : Work :=
  match loadEnded w core with
  | none => w
  | some x => ((loadMembers core x).foldl (fun a k => a.endLoad x k) w).auditCommand core x.ctx 1 x.word

/-- A calibration ends (R374): the bank is no longer stale, and the junction reading is taken. -/
def Work.finishCal (w : Work) (core : Nat) : Work :=
  match (w.core core).strm with
  | [] => w
  | x :: rest =>
    if x.form = 2 ∧ x.started ∧ x.due ≤ (w.core core).raw then
      let temp := w.dev.junc.get (coreCluster core) 180
      let now := w.dev.now
      w.updCore core fun c => { c with
        strm := (Core.startCal { c with strm := rest }).strm
        wb := c.wb.set x.wbank { c.wb.get x.wbank {} with stale := false, calAt := now, calTemp := temp } }
    else w

/-- `mwld` (R360, R361). -/
def execMwld (ts : BitVec 7) (b : BitVec 1) (k : BitVec 4) (σ : State) : Host.Outcome State Fault Refusal :=
  .next (slotRun (mwldPlan ts b k) σ)

/-- `mwld.b` (R361, R362). -/
def execMwldB (ts : BitVec 7) (b : BitVec 1) (k : BitVec 4) (σ : State) : Host.Outcome State Fault Refusal :=
  .next (slotRun (mwldBPlan ts b k) σ)

/-- `mswap`, for passes triggered from t + 1 (R364). -/
def execMswap (x : BitVec 2) (σ : State) : Host.Outcome State Fault Refusal :=
  .next (slotRun (mswapPlan x) σ)

/-- `mrun` (R365 to R367). -/
def execMrun (ts : BitVec 7) (f : BitVec 2) (a : BitVec 1) (w : BitVec 2) (p : BitVec 4)
    (σ : State) : Host.Outcome State Fault Refusal :=
  .next (slotRun (mrunPlan false ts f a w p) σ)

/-- `mrun.f` (R368). -/
def execMrunF (ts : BitVec 7) (f : BitVec 2) (a : BitVec 1) (w : BitVec 2) (p : BitVec 4)
    (σ : State) : Host.Outcome State Fault Refusal :=
  .next (slotRun (mrunPlan true ts f a w p) σ)

/-- `mzero`, acting at t + 1 (R369). -/
def execMzero (u : BitVec 8) (σ : State) : Host.Outcome State Fault Refusal :=
  .next (slotRun (mzeroPlan u) σ)

/-- `mcal` (R374). -/
def execMcal (b : BitVec 1) (σ : State) : Host.Outcome State Fault Refusal :=
  .next (slotRun (mcalPlan b) σ)

/-- `mclip`, at t + 2 (R372). -/
def execMclip (ts : BitVec 7) (σ : State) : Host.Outcome State Fault Refusal :=
  .next (slotRun (mclipPlan ts) σ)

/-- `mmode`, in effect from t + 2 (R373). -/
def execMmode (g : BitVec 1) (σ : State) : Host.Outcome State Fault Refusal :=
  .next (slotRun (mmodePlan g) σ)

/-- `mbound` that reads, at t + 2 (R370). -/
def execMbound (ts : BitVec 7) (σ : State) : Host.Outcome State Fault Refusal :=
  .next (slotRun (mboundPlan ts) σ)

/-- `mbound` with `set`, acting at t + 1 (R370). -/
def execMboundSet (om : BitVec 2) (os : BitVec 7) (ts : BitVec 7) (σ : State) : Host.Outcome State Fault Refusal :=
  .next (slotRun (mboundSetPlan om os ts) σ)

/-- `mstat`, at t + 2 (R371). -/
def execMstat (σ : State) : Host.Outcome State Fault Refusal :=
  .next (slotRun (mstatPlan) σ)

end Sys2Proof.Machine
end

