-- ==== Sys2Proof/Machine/QueueInstr.lean ====
section
/-! DEFINITION. The S-slot forms of the queue unit (R107, R110 to R112, R115, R117, R308 to R310). -/

namespace Sys2Proof.Machine

/-- The queue unit's port after a form that names a binding: OM = 10 with OS = N (R209, R297). -/
def Work.setQueuePort (w : Work) (n : BitVec 3) : Work := w.setPort 3 (n.setWidth 64)

/-- The binding of a queue form: a pending one holds issue, a failed one is reported, an unbound one raises cause 21
(R110, R309). -/
def boundTo (w : Work) (n : BitVec 3) : Except Stop Binding :=
  let b := w.me.qb.get n.toNat {}
  match b.st with
  | .unbound => trapOn 21
  | .pending => .error (.hold .limited)
  | .failed _ _ => .error (.report 3 (some n.toNat))
  | .bound => .ok b

/-- An enqueue form of any kind (R115). -/
def QueueOp.isEnqueue (q : QueueOp) : Bool := decide (0x41 ≤ q.form) && decide (q.form ≤ 0x43)

/-- A wait on queue operations: toward cw.qwait while one of them is waiting or held at its home (R103, R117, R310), else
toward cw.frzlim. -/
def queueHold (qs : List QueueOp) : FreezeWhy :=
  if qs.any fun q => q.waiting.isSome || q.held then .queueWait (qs.map (·.id)) else .limited

/-- A fifth enqueue holds issue (R115). -/
def enqueueRoom (c : Ctx) : Except Stop Unit :=
  let es := c.qops.filter QueueOp.isEnqueue
  if 4 ≤ es.length then .error (.hold (queueHold es)) else .ok ()

/-- The holds of a queue form, met before its operands are checked (R115, R215, R309, R418): a pending binding, a fifth enqueue, a full
landing buffer. -/
def queueHolds (form : Nat) (n : BitVec 3) (w : Work) : Except Stop Unit := do
  if (w.me.qb.get n.toNat {}).st = .pending then .error (.hold .limited)
  if form ≤ 0x43 then enqueueRoom w.me
  if 0x43 ≤ form then bufferFree w.me

/-- A fault of an earlier enqueue is reported at the bundle that froze on it (R121). -/
def enqueueReport (c : Ctx) : Except Stop Unit :=
  if c.freeze.isSome ∧ c.qlate ≠ [] then .error (.report 2 none) else .ok ()

/-- The local-store checks of a queue form (R110): alignment to min(2^E, 32) bytes, then the declared range. -/
def elementCheck (c : Ctx) (a elog : Nat) : Except Stop Unit := do
  check (decide (a % min (2 ^ elog) 32 = 0)) 13
  check (c.declares a (2 ^ elog)) 10

/-- A queue operation is sent to its home (R115). -/
def Work.pushQueueOp (w : Work) (form : Nat) (n : BitVec 3) (b : Binding) (arg : Word) (elem : Nat) (land : Bool) :
    Work :=
  let i := w.dev.issue
  w.updMe fun c => { c with
    seq := c.seq + 1
    qops := c.qops ++ [{ id := c.seq, form := form, bnd := n.toNat, handle := b.handle, cb := b.cb, home := b.home,
                         elog := b.elog, pc := i.pc, slot := i.slot, ld := i.ld, arg := arg, elem := elem,
                         land := if land then some c.seq else none, seq := c.seq,
                         stale := b.stale }] }

/-- An enqueue of an element from the local store, on its operand (R308): the element is what the local store holds at
issue (notes/assumptions/17.md). A core produces into a copy-service queue by `cp.q` alone (Table 5.2). -/
def enqueueLocal (form : Nat) (n : BitVec 3) (a : Word) (dst : Option Nat) (w : Work) : Plan := do
  let b ← boundTo w n
  check (mayProduce b.role (.ctx 0 0 0) && decide (b.role ≠ 3)) 21
  elementCheck w.me a.toNat b.elog
  enqueueReport w.me
  let elem := w.lsRead w.dev.issue.core (w.me.relocate a.toNat) (2 ^ b.elog)
  if form = 0x43 then
    .ok ((w.pushOut .queue 3 dst a 0 40 none).pushQueueOp form n b a elem true)
  else .ok (w.pushQueueOp form n b a elem false)

/-- `enq.s` on its value (R308). -/
def enqueueValue (n : BitVec 3) (a : Word) (w : Work) : Plan := do
  let b ← boundTo w n
  check (mayProduce b.role (.ctx 0 0 0) && decide (b.role ≠ 3)) 21
  check (decide (b.elog = 3)) 19
  enqueueReport w.me
  .ok (w.pushQueueOp 0x42 n b a a.toNat false)

/-- `deq`, `deq.t` and `qpeek` on their local-store address (R308). -/
def dequeueLocal (form : Nat) (n : BitVec 3) (a : Word) (dst : Option Nat) (w : Work) : Plan := do
  let b ← boundTo w n
  check (mayConsume b.role (.ctx 0 0 0)) 21
  elementCheck w.me a.toNat b.elog
  .ok ((w.pushOut .queue 3 dst a 0 40 none).pushQueueOp form n b a 0 true)

/-- `deq.s` (R308). -/
def dequeueValue (n : BitVec 3) (dst : Option Nat) (w : Work) : Plan := do
  let b ← boundTo w n
  check (mayConsume b.role (.ctx 0 0 0)) 21
  check (decide (b.elog = 3)) 19
  .ok ((w.pushOut .queue 3 dst 0 0 40 none).pushQueueOp 0x45 n b 0 0 true)

/-- A queue form by its opcode, on its operand, past its holds: how a bundle, `eret` and a resume issue it (R124, R308). -/
def queueForm (form : Nat) (n : BitVec 3) (a : Word) (dst : Option Nat) (w : Work) : Plan :=
  match form with
  | 0x42 => enqueueValue n a w
  | 0x45 => dequeueValue n dst w
  | 0x44 => dequeueLocal 0x44 n a dst w
  | 0x46 => dequeueLocal 0x46 n a dst w
  | 0x47 => dequeueLocal 0x47 n a dst w
  | 0x43 => enqueueLocal 0x43 n a dst w
  | _ => enqueueLocal 0x41 n a none w

/-- The plan of a queue form with an operand. -/
def queuePlan (form : Nat) (n : BitVec 3) (ts : BitVec 7) (dst : Option Nat) (w : Work) : Plan :=
  if guardTrue w = false then .ok w
  else do
    queueHolds form n w
    let a ← readSel w ts.toNat
    queueForm form n a dst (w.setQueuePort n)

/-- The plan of `deq.s`. -/
def deqSPlan (n : BitVec 3) (dst : Option Nat) (w : Work) : Plan :=
  if guardTrue w = false then .ok w
  else do
    queueHolds 0x45 n w
    queueForm 0x45 n 0 dst (w.setQueuePort n)

/-- The plan of `qbind` (R107, R309): its first checks at issue; the rest are made at the home. -/
def qbindPlan (om : BitVec 2) (os ts : BitVec 7) (n : BitVec 3) (w : Work) : Plan :=
  if guardTrue w = false then .ok w
  else do
    if (w.me.qb.get n.toNat {}).st = .pending then .error (.hold .limited)
    else
      let (a, b, w1) ← readAB w 3 om os ts
      check (decide (3 ≤ b.toNat) && decide (b.toNat ≤ 12)) 19
      check (decide (a.toNat % 64 = 0)) 13
      checkVal (vaOk a) 8 a.toNat
      let t ← xlate w [.read] a.toNat 8 false
      let bd : Binding := { st := .pending, handle := a.toNat, cb := t.pa, home := (w.block t.pa).home,
                            elog := b.toNat }
      .ok ((w1.updMe fun c => { c with qb := c.qb.set n.toNat bd }).pushQueueOp 0x40 n bd a 0 false)

/-- The word of `qstat` (R112). -/
def statWord (c : Ctx) (n : Nat) : Nat :=
  let b := c.qb.get n {}
  let mine := c.qops.filter fun q => decide (q.bnd = n) && decide (q.handle = b.handle) && decide (q.form ≠ 0x40)
  if b.st ≠ .bound then 0
  else 1 + 2 * b.role + 16 * (b.elog - 3) + 256 * (mine.filter QueueOp.isEnqueue).length +
    (if mine.any fun q => q.waiting.isSome then 2048 else 0) + 2 ^ 32 * (b.free % 2 ^ 32)

/-- The plan of `qstat` (R112): an unbound binding reads 0. -/
def qstatPlan (n : BitVec 3) (wd : BitVec 6) (we : BitVec 1) (w : Work) : Plan :=
  if guardTrue w = false then .ok w
  else
    let w1 := w.setQueuePort n
    let land : Plan := .ok (w1.launchAt 2
      (.scalar 3 (BitVec.ofNat 64 (statWord w.me n.toNat)) (dest we wd.toNat) 0))
    match (w.me.qb.get n.toNat {}).st with
    | .unbound => land
    | .bound => land
    | .pending => .error (.hold .limited)
    | .failed _ _ => .error (.report 3 (some n.toNat))

/-- The plan of `qdrain` (R310). -/
def qdrainPlan (n : BitVec 3) (w : Work) : Plan :=
  if guardTrue w = false then .ok w
  else do
    let b ← boundTo w n
    let es := w.me.qops.filter fun q => q.isEnqueue && decide (q.bnd = n.toNat)
    if es.isEmpty = false then .error (.hold (queueHold es))
    else if w.me.qlate.any fun f => decide (f.2.1 = b.handle) then .error (.report 2 (some b.handle))
    else .ok (w.setQueuePort n)

/-- `qbind`, posted (R309). -/
def execQbind (om : BitVec 2) (os : BitVec 7) (ts : BitVec 7) (n : BitVec 3)
    (σ : State) : Host.Outcome State Fault Refusal :=
  .next (slotRun (qbindPlan om os ts n) σ)

/-- `enq`, posted (R308). -/
def execEnq (n : BitVec 3) (ts : BitVec 7) (σ : State) : Host.Outcome State Fault Refusal :=
  .next (slotRun (queuePlan 0x41 n ts none) σ)

/-- `enq.s`, posted (R308). -/
def execEnqS (n : BitVec 3) (ts : BitVec 7) (σ : State) : Host.Outcome State Fault Refusal :=
  .next (slotRun (queuePlan 0x42 n ts none) σ)

/-- `enq.t`, at t + LD (R308). -/
def execEnqT (n : BitVec 3) (ts : BitVec 7) (wd : BitVec 6) (we : BitVec 1)
    (σ : State) : Host.Outcome State Fault Refusal :=
  .next (slotRun (queuePlan 0x43 n ts (dest we wd.toNat)) σ)

/-- `deq`, at t + LD or later (R308). -/
def execDeq (n : BitVec 3) (ts : BitVec 7) (wd : BitVec 6) (we : BitVec 1)
    (σ : State) : Host.Outcome State Fault Refusal :=
  .next (slotRun (queuePlan 0x44 n ts (dest we wd.toNat)) σ)

/-- `deq.s`, at t + LD or later (R308). -/
def execDeqS (n : BitVec 3) (wd : BitVec 6) (we : BitVec 1) (σ : State) : Host.Outcome State Fault Refusal :=
  .next (slotRun (deqSPlan n (dest we wd.toNat)) σ)

/-- `deq.t`, at t + LD (R308). -/
def execDeqT (n : BitVec 3) (ts : BitVec 7) (wd : BitVec 6) (we : BitVec 1)
    (σ : State) : Host.Outcome State Fault Refusal :=
  .next (slotRun (queuePlan 0x46 n ts (dest we wd.toNat)) σ)

/-- `qpeek`, at t + LD (R308). -/
def execQpeek (n : BitVec 3) (ts : BitVec 7) (wd : BitVec 6) (we : BitVec 1)
    (σ : State) : Host.Outcome State Fault Refusal :=
  .next (slotRun (queuePlan 0x47 n ts (dest we wd.toNat)) σ)

/-- `qstat`, at t + 2 (R112). -/
def execQstat (n : BitVec 3) (wd : BitVec 6) (we : BitVec 1) (σ : State) : Host.Outcome State Fault Refusal :=
  .next (slotRun (qstatPlan n wd we) σ)

/-- `qdrain` (R310). -/
def execQdrain (n : BitVec 3) (σ : State) : Host.Outcome State Fault Refusal :=
  .next (slotRun (qdrainPlan n) σ)

end Sys2Proof.Machine
end

