-- ==== Sys2Proof/Machine/Copy.lean ====
section
/-! DEFINITION. The C-slot forms and the copy engines at work (R154 to R156, R197 to R200, R375 to R389). -/

namespace Sys2Proof.Machine

-- Which engine

/-- The engine that the issuing slot reaches: C0 issues to CE0 and C1 to CE1 (R277). -/
def Work.engine (w : Work) : Nat := if w.dev.issue.slot = 6 then 1 else 0

/-- The commands of one engine. -/
def Core.engineCmds (c : Core) (eng : Nat) : List CopyCmd := Machine.engineCmds (c.ce.get eng [])

/-- A 17th command freezes issue (R375). -/
def engineRoom (w : Work) : Except Stop Unit :=
  if (w.myCore.engineCmds w.engine).length < 16 then .ok () else .error (.hold .limited)

-- Checks at acceptance (R376, R377)

/-- The KINDs that Table 14.4 gives a role. -/
def kindIn (i : NestImage) (l : List Nat) : Bool := l.contains (nestKind i)

/-- The formats of `cp.red`, `bk` and `bk.red` (R380, R382). -/
def computes (i : NestImage) : Bool :=
  match nestFormat i with
  | .fp32 => true
  | .bf16 => true
  | .fp16 => true
  | .int32 => true
  | .int16 => true
  | .int8 => true
  | .byte => false
  | .int4 => false
  | .uint8 => false
  | .e4m3 => false
  | .e5m2 => false

/-- Step 1 of R377: validity, KINDs, sizes and counts of a form's nest registers. -/
def nestsOk (form : Nat) (b : Nat) (n1 n2 n3 : NestImage) : Bool :=
  let any := [1, 2, 3, 4, 5]
  nestValid n1 && nestValid n2 &&
  match form with
  | 1 => kindIn n1 any && kindIn n2 any && decide (nestPositions n1 = nestPositions n2) &&
      decide (nestUnit n1 = nestUnit n2)
  | 2 => kindIn n1 any && kindIn n2 [4] && decide (nestPositions n1 = nestPositions n2) &&
      decide (nestUnit n1 = nestUnit n2)
  | 3 => kindIn n1 any && kindIn n2 [1, 2, 5] && decide (nestPositions n1 = nestPositions n2)
  | 6 => kindIn n1 [1, 2, 4] && kindIn n2 [1, 2, 4] && decide (nestPositions n1 = nestPositions n2) &&
      (decide (bits b 6 4 = 5) ||
        (nestValid n3 && kindIn n3 [1, 2, 4] && decide (nestPositions n3 = nestPositions n2)))
  | 7 => kindIn n1 [1, 2, 4] && kindIn n2 [1, 2, 4] &&
      decide (nestPositions n1 = nestCount n1 0 * nestPositions n2)
  | _ => kindIn n1 [3] && decide (nestFormat n1 = .int32) && kindIn n2 any &&
      decide (nestPositions n2 = nestPositions n1 * nestCount n2 0)

/-- Step 2 of R377: the checks of B and of the formats. -/
def copyOperation (form : Nat) (b : Nat) (n1 n2 n3 : NestImage) : Except Stop Unit :=
  let op := bits b 6 4
  let same := decide (nestFormat n1 = nestFormat n2)
  match form with
  | 3 => do
    check (decide (b < 4)) 2
    check (decide (b ≠ 3)) 29
    check same 29
    check (computes n2) 29
  | 4 => do
    check (decide (b % nestUnit n2 = 0)) 13
    checkVal (decide (b < 2 ^ 56)) 8 b
  | 5 => do
    check (decide (b % nestUnit n2 = 0)) 13
    checkVal (decide (b < 2 ^ 56)) 9 b
  | 6 => do
    check (decide (b < 2 ^ 7)) 2
    check (decide (op ≤ 5)) 35
    check (same && (decide (op = 5) || decide (nestFormat n3 = nestFormat n2))) 29
    check (computes n2) 35
  | 7 => do
    check (decide (b < 2 ^ 7) && decide (b % 16 = 0)) 2
    check (decide (op = 0) || decide (op = 3) || decide (op = 4)) 35
    check same 29
    check (computes n2) 35
  | _ => .ok ()

/-- The displacement that B gives the destination of `cp` and `cp.sh` (R379). -/
def destDisp (form : Nat) (b : Word) : Int := if form = 1 ∨ form = 2 then b.toInt else 0

/-- A walk of a bank operation: its span and alignment (R377), and the places that R176 refuses. -/
def bankWalk (w : Work) (i : NestImage) (out : Bool) : Except Stop Unit := do
  walkCheck w i 0 out
  bankCheck w i 0

/-- Step 4 of R377: the walks in the order source, destination, index. -/
def copyWalks (w : Work) (form : Nat) (b : Word) (n1 n2 n3 : NestImage) : Except Stop Unit :=
  match form with
  | 6 => do
    bankWalk w n1 false
    (if bits b.toNat 6 4 ≠ 5 then bankWalk w n3 false else .ok ())
    bankWalk w n2 true
  | 7 => do
    bankWalk w n1 false
    bankWalk w n2 true
  | 4 => do
    walkCheck w n2 0 true
    walkCheck w n1 0 false
  | 5 => do
    walkCheck w n2 0 false
    walkCheck w n1 0 false
  | _ => do
    walkCheck w n1 0 false
    walkCheck w n2 (destDisp form b) true

/-- The checks of a copy command, in the order of R377: the physical address of its word. -/
def copyChecks (w : Work) (form : Nat) (a b : Word) (n1 n2 n3 : NestImage) : Except Stop Nat := do
  check (nestsOk form b.toNat n1 n2 n3) 37
  copyOperation form b.toNat n1 n2 n3
  let pa ← wordCheck w a
  copyWalks w form b n1 n2 n3
  .ok pa

/-- A command accepted by an engine of a core for a context (R375). -/
def Work.acceptCopy (w : Work) (core bank eng form pc : Nat) (word : Word32) (a b : Word) (pa : Nat)
    (n1 n2 n3 : NestImage) : Work :=
  let c := w.ctx core bank
  w.updCore core fun k =>
    let cmd : CopyCmd :=
      { id := k.cmdSer, form := form, ctx := bank, pc := pc, word := word, a := a, wordPa := pa, b := b,
        n1 := n1, n2 := n2, n3 := n3, o1 := baseSpot c core n1 0, o2 := baseSpot c core n2 (destDisp form b),
        o3 := baseSpot c core n3 0, order := k.cmdSer, at_ := k.clk, part := c.part, sec := c.sec,
        lts := k.fenced.get eng 0, snap := w.lsSnap core }
    { k with cmdSer := k.cmdSer + 1, ce := k.ce.set eng (k.ce.get eng [] ++ [.cmd cmd]) }

/-- The plan of a copy command (R377): X[3:0] names the first nest register and X[7:4] the second. -/
def copyPlan (form : Nat) (om : BitVec 2) (os ts : BitVec 7) (y z : BitVec 4) (w : Work) : Plan := do
  engineRoom w
  let (a, b, w1) ← readAB w (7 + w.engine) om os ts
  let c := w.me
  let n1 := c.nest.get z.toNat 0
  let n2 := c.nest.get y.toNat 0
  let n3 := if form = 6 then c.nest.get (b.toNat % 16) 0 else 0
  let pa ← copyChecks w form a b n1 n2 n3
  let i := w.dev.issue
  .ok (w1.acceptCopy i.core i.bank w.engine form i.pc i.word a b pa n1 n2 n3)

/-- The plan of `cp.pub` (R389): its checks are made when it is performed. -/
def cpPubPlan (om : BitVec 2) (os ts : BitVec 7) (w : Work) : Plan := do
  engineRoom w
  let (a, b, w1) ← readAB w (7 + w.engine) om os ts
  let i := w.dev.issue
  .ok (w1.acceptCopy i.core i.bank w.engine 13 i.pc i.word a b 0 0 0 0)

/-- A packet that a `cp.q` sends to its home, with the 64 bytes that it names as they stand before the bundle (R384). -/
def Work.sendPacket (w : Work) (n : BitVec 3) (b : Binding) (a : Word) : Work :=
  let i := w.dev.issue
  let elem := w.lsRead i.core (w.me.relocate a.toNat) 64
  (w.updMe fun c => { c with
    packets := c.packets ++ [{ pc := i.pc, slot := i.slot, lvl := c.lvl, op := c.seq }] }).pushQueueOp 8 n b a elem false

/-- The packet that a slot of the bundle has sent. -/
def Ctx.packetOf (c : Ctx) (pc slot : Nat) : Option Packet :=
  c.packets.find? fun p => decide (p.pc = pc) && decide (p.slot = slot) && decide (p.lvl = c.lvl)

/-- The plan of `cp.q` (R384): past its checks the bundle sends the packet and holds issue while the home answers; a packet performed
lets it commit, and a refusal is raised. -/
def cpQPlan (ts : BitVec 7) (n : BitVec 3) (w : Work) : Plan := do
  if (w.me.qb.get n.toNat {}).st = .pending then .error (.hold .limited)
  let a ← readSel w ts.toNat
  let b ← boundTo w n
  check (decide (b.role = 1) || decide (b.role = 3) || decide (b.role = 4)) 21
  check (decide (b.elog = 6)) 19
  check (decide (a.toNat % 32 = 0)) 13
  check (w.me.declares a.toNat 64) 10
  let i := w.dev.issue
  match w.me.packetOf i.pc i.slot with
  | none => if i.asks then .ok (w.sendPacket n b a) else .error (.hold .ask)
  | some p =>
    match p.ans with
    | none => .error (.hold .ask)
    | some cause =>
      if cause = 0 then .ok w
      else if i.probe then trapOn cause
      else .ok ((w.updMe fun c => { c with packets := c.packets.filter fun x => decide (x ≠ p) }).trapNow cause none)

/-- A fence still holds: a command accepted before it has not completed (R385). -/
def fenceHolds (k : Core) (eng order : Nat) (both : Bool) : Bool :=
  (if both then k.cmds else k.engineCmds eng).any fun c => decide (c.order < order)

/-- The fences of an engine's list that still hold; the commands after one that has ended begin above the writes of those before
it (R198, R385). -/
def Core.dropFences (k : Core) (eng : Nat) : Core :=
  let ended (x : EngineItem) : Option (Nat × Bool) := match x with
    | .cmd _ => none
    | .fence o b => if fenceHolds k eng o b then none else some (o, b)
  let gone := (k.ce.get eng []).filterMap ended
  let least (b : Bool) : Nat := if b then max (k.ceLts.get 0 0) (k.ceLts.get 1 0) else k.ceLts.get eng 0
  let above (c : CopyCmd) : CopyCmd :=
    if c.running then c
    else { c with lts := gone.foldl (fun m g => if g.1 ≤ c.order then max m (least g.2) else m) c.lts }
  let item (x : EngineItem) : Option EngineItem := match x with
    | .cmd c => some (.cmd (above c))
    | .fence o b => if fenceHolds k eng o b then some (.fence o b) else none
  { k with
    ce := k.ce.set eng ((k.ce.get eng []).filterMap item)
    fenced := k.fenced.set eng (gone.foldl (fun m g => max m (least g.2)) (k.fenced.get eng 0)) }

/-- The plan of `cp.fence` (R385). -/
def cpFencePlan (both : BitVec 1) (w : Work) : Plan :=
  .ok (w.updCore w.dev.issue.core fun k =>
    let put (t : Tab (List EngineItem)) (e : Nat) : Tab (List EngineItem) :=
      t.set e (t.get e [] ++ [.fence k.cmdSer (decide (both = 1))])
    ({ k with ce := if both = 1 then put (put k.ce 0) 1 else put k.ce w.engine }.dropFences 0).dropFences 1)

/-- The word of `cp.stat` with A = 0 (R386). -/
def engineStat (c : Core) (eng : Nat) : Nat :=
  let l := c.engineCmds eng
  l.length % 32 + 32 * (l.filter fun x => x.running && !x.stopped).length +
    (if c.qui.any fun x => decide (x.1 = eng) then 256 else 0)

/-- The armed-word count in effect for an address, if the table holds it (R327, R386, Table 9.1). -/
def armedCount (c : Ctx) (clk va : Nat) : Option Nat :=
  match c.armed.find? fun x => decide (x.va = va) with
  | none => none
  | some x => if x.from_ ≤ clk then some x.count else x.prev

/-- The plan of `cp.stat`, at t + 4 (R386, R199). -/
def cpStatPlan (ts : BitVec 7) (w : Work) : Plan := do
  let a ← readSel w ts.toNat
  let land (x : Nat) : Effect := .scalar (7 + w.engine) (BitVec.ofNat 64 x) none 0
  if a = 0 then .ok (w.launchAt 4 (land (engineStat w.myCore w.engine)))
  else match armedCount w.me w.myCore.clk a.toNat with
    | some n => .ok (w.launchAt 4 (land (n % 2 ^ 40 + 2 ^ 63)))
    | none => .ok ((w.launchAt 4 (land 0)).launchAt 4 (.timeSeen (w.me.freed.get a.toNat 0)))

/-- The fields of an unfinished command as Table 9.4 lays an entry out. -/
def unfinishedFields (off eng : Nat) (c : CopyCmd) : List (Nat × Nat × Nat) :=
  [(off, 8, c.pc), (off + 8, 4, c.word.toNat), (off + 12, 1, eng), (off + 16, 8, c.b.toNat), (off + 24, 8, c.a.toNat),
    (off + 32, 128, c.n1.toNat), (off + 160, 128, c.n2.toNat), (off + 288, 8, if c.form = 13 then 0 else c.a.toNat)]

/-- An engine without the commands of a context (R232, R387). -/
def dropCmds (bank : Nat) (l : List EngineItem) : List EngineItem :=
  l.filter fun x => match x with
    | .cmd c => decide (c.ctx ≠ bank)
    | .fence _ _ => true

/-- A command of a context runs on an engine and has not been stopped. -/
def runsOn (c : Core) (eng bank : Nat) : Bool :=
  (c.engineCmds eng).any fun x => decide (x.ctx = bank) && x.running && !x.stopped

/-- The plan of `cp.quiesce` (R387): while a command of the context runs on the engine the quiesce is in progress and holds issue;
then the record is written and the commands are gone. -/
def cpQuiescePlan (ts : BitVec 7) (w : Work) : Plan := do
  let a ← readSel w ts.toNat
  check (decide (a.toNat % 32 = 0)) 13
  check (w.me.declares a.toNat 5152) 10
  let i := w.dev.issue
  let eng := w.engine
  if runsOn w.myCore eng i.bank then
    if w.myCore.qui.contains (eng, i.bank) then .error (.hold .limited)
    else if i.asks then .ok (w.updCore i.core fun k => { k with qui := (eng, i.bank) :: k.qui })
    else .error (.hold .ask)
  else
    let mine := (w.myCore.engineCmds eng).filter fun c => decide (c.ctx = i.bank)
    let w1 := w.updCore i.core fun k => { k with
      qui := k.qui.filter fun x => decide (x ≠ (eng, i.bank))
      ce := k.ce.set eng (dropCmds i.bank (k.ce.get eng [])) }
    .ok (putFields w1 i.core (w.me.relocate a.toNat) ((0, 8, mine.length) ::
      (indexed mine).flatMap fun x => unfinishedFields (32 + 320 * x.1) eng x.2))

/-- A running command of a quiesce in progress stops at the end of a sector (R387). -/
def Work.stopCopy (w : Work) (core eng : Nat) : Work :=
  w.updCore core fun k => { k with ce := k.ce.set eng ((k.ce.get eng []).map fun x => match x with
    | .cmd c => .cmd (if c.running ∧ k.qui.contains (eng, c.ctx) then { c with stopped := true } else c)
    | .fence o b => .fence o b) }

/-- A command ended by `cp.abort` (R388). -/
def CopyCmd.abort (c : CopyCmd) : CopyCmd := if c.err.isSome then c else { c with left := [], err := some (32, 1) }

/-- The plan of `cp.abort` (R388). -/
def cpAbortPlan (ts : BitVec 7) (w : Work) : Plan := do
  let a ← readSel w ts.toNat
  let hit (c : CopyCmd) : Bool := decide (a = 0) || (decide (c.form ≠ 13) && decide (c.a = a))
  let eng := w.engine
  .ok (w.updCore w.dev.issue.core fun k => { k with
    ce := k.ce.set eng (mapCmds (fun c => if hit c then c.abort else c) (k.ce.get eng [])) })

-- What commands compute

/-- An element operation: 0 add, 1 sub, 2 mul, 3 max, 4 min (R382). -/
def bankOp (f : Fmt) (op x y : Nat) : Nat :=
  let m := 2 ^ f.bits
  let a := value f x
  let b := value f y
  match op with
  | 0 => if f.isFloat then rne f (Real.add a b) else (x + y) % m
  | 1 => if f.isFloat then rne f (Real.add a b.neg) else (x + (m - y % m)) % m
  | 2 => if f.isFloat then rne f (Real.mul a b) else x * y % m
  | 3 => pickElem f true x y
  | 4 => pickElem f false x y
  | _ => x

/-- The operation of `cp.red` as an element operation: 0 add, 1 max, 2 min (R380). -/
def reduceOp (f : Fmt) (op x y : Nat) : Nat := bankOp f (if op = 0 then 0 else if op = 1 then 3 else 4) x y

/-- The sum of a run, exact and rounded once, +0 for an exact zero (R383). -/
def runSum (f : Fmt) (xs : List Nat) : Nat :=
  if f.isFloat then
    let s := sumReals (xs.map (value f))
    if s.isZero then 0 else rne f s
  else xs.foldl (· + ·) 0 % 2 ^ f.bits

/-- The reduction of a run of elements (R383). -/
def bankRun (f : Fmt) (op : Nat) (xs : List Nat) : Nat :=
  if op = 0 then runSum f xs
  else match xs with
    | [] => 0
    | x :: t =>
      let r := t.foldl (bankOp f op) x
      if f.isFloat ∧ (value f r).isNan then f.nan else r

-- Commands at work

/-- Positions of one row of a gather or scatter (R381). -/
def CopyCmd.rowLen (c : CopyCmd) : Nat := nestCount c.n2 0

/-- Rows are addressed by indices: a gather's source, a scatter's destination (R381). -/
def CopyCmd.rowAddr (c : CopyCmd) (p : Nat) : Spot :=
  let n := nestUnit c.n2
  let j := p / max c.rowLen 1
  { kind := 1, addr := ((c.b.toNat : Int) + c.idx.getD j 0 * (c.rowLen * n : Nat) +
      ((p % max c.rowLen 1 * n : Nat) : Int)) % 2 ^ 64 }

/-- The position of a walk. -/
def Spot.at_ (s : Spot) (i : NestImage) (p : Nat) : Spot := { s with addr := s.addr + nestOffset i p }

/-- Where destination position p lies. -/
def CopyCmd.dest (c : CopyCmd) (p : Nat) : Spot := if c.form = 5 then c.rowAddr p else c.o2.at_ c.n2 p

/-- Where the elements that make destination position p lie, each with the walk it belongs to. -/
def CopyCmd.sources (c : CopyCmd) (p : Nat) : List (Nat × Spot) :=
  match c.form with
  | 4 => [(0, c.rowAddr p)]
  | 5 => [(0, c.o2.at_ c.n2 p)]
  | 6 => if bits c.b.toNat 6 4 = 5 then [(0, c.o1.at_ c.n1 p)] else [(0, c.o1.at_ c.n1 p), (1, c.o3.at_ c.n3 p)]
  | 7 =>
    let k := nestCount c.n1 0
    (List.range k).map fun q => (0, c.o1.at_ c.n1 (p * k + q))
  | _ => [(0, c.o1.at_ c.n1 p)]

/-- The element of destination position p from its sources. -/
def CopyCmd.element (c : CopyCmd) (xs : List Nat) : Nat :=
  let f := nestFormat c.n2
  let op := bits c.b.toNat 6 4
  match c.form with
  | 6 => bankOp f op (xs.getD 0 0) (xs.getD 1 0)
  | 7 => bankRun f op xs
  | _ => xs.getD 0 0

/-- What a destination element becomes: for `cp.red` its combination with the new element (R380). -/
def CopyCmd.combine (c : CopyCmd) (old x : Nat) : Nat :=
  if c.form = 3 then reduceOp (nestFormat c.n2) (c.b.toNat % 4) old x else x

/-- Gather and scatter handle rows. -/
def CopyCmd.byRows (c : CopyCmd) : Bool := decide (c.form = 4) || decide (c.form = 5)

/-- The destination positions of a row; one row holds them all but for a gather or scatter. -/
def CopyCmd.positions (c : CopyCmd) (row : Nat) : List Nat :=
  if c.byRows then (List.range c.rowLen).map fun k => row * c.rowLen + k else List.range (nestPositions c.n2)

/-- The destination sectors of a command, row by row, rising within a row. -/
def CopyCmd.pieces (c : CopyCmd) : List (Nat × Nat) :=
  (List.range (if c.byRows then c.idx.length else 1)).flatMap fun r =>
    (sortNats ((c.positions r).map fun p => (c.dest p).addr.toNat / 32)).map fun s => (r, s)

/-- The destination walk never decreases in address (R198). -/
def CopyCmd.rising (c : CopyCmd) : Bool :=
  let a := (List.range (nestPositions c.n2)).map fun p => (c.dest p).addr
  (a.zip (a.drop 1)).all fun x => decide (x.1 ≤ x.2)

/-- The positions of a row that fall into a destination sector, in walk order. -/
def CopyCmd.inSector (c : CopyCmd) (piece : Nat × Nat) : List Nat :=
  (c.positions piece.1).filter fun p => decide ((c.dest p).addr.toNat / 32 = piece.2)

/-- The source sectors that a destination sector needs: walk and place. -/
def CopyCmd.needs (c : CopyCmd) (piece : Nat × Nat) : List (Nat × Spot) :=
  (c.inSector piece).flatMap c.sources

/-- The issuer of a command. -/
def CopyCmd.who (c : CopyCmd) (core : Nat) : Issuer := { core := core, bank := c.ctx, part := c.part, sec := c.sec }

/-- A bank operation works on the arrays (R177). -/
def CopyCmd.onArrays (c : CopyCmd) : Bool := decide (c.form = 6) || decide (c.form = 7)

/-- The sources that are not yet read are read, each sector once (R197). -/
def fetchSources (core : Nat) : List (Nat × Spot) → CopyCmd → Work → Reach (CopyCmd × Work)
  | [], c, w => .ok (c, w)
  | s :: t, c, w =>
    let sector := s.2.addr.toNat / 32
    let key := 2 * sector + s.1
    if (c.buf.get? key).isSome then fetchSources core t c w
    else do
      let r ← readSector w (c.who core) (8 * c.id + 6) c.lts c.snap s.2 sector c.onArrays
      fetchSources core t { c with buf := c.buf.set key r.1, wts := max c.wts r.2.1 } r.2.2

/-- An element from the sectors read. -/
def CopyCmd.read (c : CopyCmd) (n : Nat) (s : Nat × Spot) : Nat :=
  packedBytes (c.buf.get (2 * (s.2.addr.toNat / 32) + s.1) 0) (s.2.addr.toNat % 32) n

/-- One destination sector of a command is read for, computed and written (R197, R198, R200). -/
def runPiece (w : Work) (core : Nat) (c0 : CopyCmd) (piece : Nat × Nat) : Reach (CopyCmd × Work) := do
  let r ← fetchSources core (c0.needs piece) c0 w
  let c := r.1
  let n := nestUnit c.n2
  let ps := (c.inSector piece).map fun p =>
    { off := (c.dest p).addr.toNat % 32, n := n, val := c.element ((c.sources p).map (c.read n)) : Patch }
  let spot : Spot := if c.form = 5 then { kind := 1 } else c.o2
  let x ← writeSector r.2 (c.who core) c.wts spot piece.2 c.combine ps (decide (c.form = 3)) c.onArrays
  .ok ({ c with wts := max c.wts x.1, left := c.left.filter fun y => decide (y ≠ piece) }, x.2)

/-- A frame of a bank operation is under exchange (R179). -/
def underSwap (w : Work) (core : Nat) (c : CopyCmd) (piece : Nat × Nat) : Bool :=
  c.onArrays && (({ c.o2 with addr := (32 * piece.2 : Nat) } :: (c.needs piece).map (·.2)).any fun s =>
    match reachPhys w (c.who core) s.kind s.cls s.addr false false with
    | .error _ => false
    | .ok x => w.dev.coh.swaps.any fun y =>
        (decide (y.f1 ≤ x.1) && decide (x.1 < y.f1 + y.size)) || (decide (y.f2 ≤ x.1) && decide (x.1 < y.f2 + y.size)))

/-- The sectors of a piece may be reached now. -/
def pieceReady (w : Work) (core : Nat) (c : CopyCmd) (piece : Nat × Nat) : Bool :=
  sectorReady w (c.who core) (if c.form = 5 then { kind := 1 } else c.o2) piece.2 true &&
    ((c.needs piece).all fun s => sectorReady w (c.who core) s.2 (s.2.addr.toNat / 32) false) &&
    !underSwap w core c piece

/-- Replace a command in its engine's list. -/
def Work.putCmd (w : Work) (core eng : Nat) (c : CopyCmd) : Work :=
  w.updCore core fun k => { k with
    ce := k.ce.set eng (mapCmds (fun x => if x.id = c.id then c else x) (k.ce.get eng [])) }

/-- The command that an engine may start next (R375, R385, R389). -/
def startable (k : Core) (eng : Nat) : Option CopyCmd :=
  let l := k.engineCmds eng
  match l.find? fun c => !c.running && c.err.isNone && !k.qui.contains (eng, c.ctx) with
  | none => none
  | some c =>
    let earlier := l.filter fun x => decide (x.order < c.order)
    let fenced := (k.ce.get eng []).any fun x => match x with
      | .cmd _ => false
      | .fence o b => decide (o ≤ c.order) && fenceHolds k eng o b
    if 4 ≤ (l.filter fun x => x.running).length ∨ fenced ∨ (earlier.any fun x => decide (x.form = 13)) ∨
        (c.form = 13 ∧ !earlier.isEmpty) then none
    else some c

/-- The row numbers of a gather or scatter, read when it starts (R381). -/
def rowNumbers (w : Work) (core : Nat) (c : CopyCmd) : List Int :=
  (List.range (nestPositions c.n1)).map fun j =>
    let s := c.o1.at_ c.n1 j
    sx 32 (packedBytes (w.engineRead core (8 * c.id + 6) c.snap (s.addr.toNat / 32 * 32) 32) (s.addr.toNat % 32) 4)

/-- The marked sectors of the local store that a gather's or scatter's index walk touches (Table 14.5). -/
def indexMarked (w : Work) (core : Nat) (c : CopyCmd) : Bool :=
  (List.range (nestPositions c.n1)).any fun j => (w.core core).lsBad.contains ((c.o1.at_ c.n1 j).addr.toNat / 32)

/-- A `cp.pub` may be performed now: the handle table entry may be written (R141, R163), and every access of the context that
was issued before it has been performed, as it takes its place in the context's issue order (R189, R201). -/
def pubReady (w : Work) (core : Nat) (c : CopyCmd) : Bool :=
  !writeWaits w.dev (((w.dev.partOf c.part).htab + 16 * (c.b.toNat % 2 ^ 32)) / 64) &&
    ((w.ctx core c.ctx).accs.all fun a => decide (c.at_ < a.at_))

/-- An engine starts its next command; a `cp.pub` is performed (R197, R381, R389). -/
def Work.startCopy (w : Work) (core eng : Nat) : Work :=
  match startable (w.core core) eng with
  | none => w
  | some c =>
    if c.form = 13 then
      if pubReady w core c = false then w
      else
        let w1 := w.performPublish core c.ctx c.pc (publishOffset c.a c.b) (c.b.toNat % 2 ^ 32) (bit c.b.toNat 32)
        w1.updCore core fun k =>
          ({ k with ce := k.ce.set eng ((k.ce.get eng []).filter fun x => match x with
            | .cmd y => decide (y.id ≠ c.id)
            | .fence _ _ => true) }.dropFences 0).dropFences 1
    else
      let t := max (w.ctx core c.ctx).lts c.lts
      let c1 := if c.byRows then { c with idx := rowNumbers w core c } else c
      let c2 := { c1 with running := true, lts := t, wts := t }
      if c.byRows ∧ indexMarked w core c then w.putCmd core eng { c2 with err := some (41, 0) }
      else w.putCmd core eng { c2 with left := c2.pieces }

/-- A running command does one destination sector: the next of a rising walk or of a row, else any (R198). -/
def Work.stepCopy (w0 : Work) (core eng id : Nat) : Work :=
  match ((w0.core core).engineCmds eng).find? fun c => decide (c.id = id) && !c.stopped with
  | none => w0
  | some c =>
    let f := w0.free
    let ordered := c.byRows || c.rising
    let w := if ordered then w0 else f.2
    match c.left[(if ordered then 0 else f.1 % c.left.length)]? with
    | none => w0
    | some piece =>
      if pieceReady w core c piece = false then w0
      else match runPiece w core c piece with
        | .error e => (w.runErr (c.who core) e).putCmd core eng { c with left := [], err := some (e.cause, e.detail) }
        | .ok r => r.2.putCmd core eng r.1

/-- Bytes that a command writes at its destination (R375). -/
def CopyCmd.bytes (c : CopyCmd) : Nat := nestPositions c.n2 * nestUnit c.n2

/-- The command has completed or ended in error, and its word is ready for its act (R357, R358). -/
def copyEnded (w : Work) (core : Nat) (c : CopyCmd) : Bool :=
  !c.stopped && (c.err.isSome || (c.running && c.left.isEmpty)) && !initPending w core c.ctx c.wordPa c.at_

/-- A command completes: it leaves its engine and acts on its word (R357). -/
def Work.finishCopy (w : Work) (core eng id : Nat) : Work :=
  match ((w.core core).engineCmds eng).find? fun c => decide (c.id = id) with
  | none => w
  | some c =>
    if copyEnded w core c = false then w
    else
      let w1 := w.updCore core fun k =>
        ({ k with
          ceLts := k.ceLts.set eng (max (k.ceLts.get eng 0) (max c.lts c.wts))
          ce := k.ce.set eng ((k.ce.get eng []).filter fun x => match x with
          | .cmd y => decide (y.id ≠ id)
          | .fence _ _ => true) }.dropFences 0).dropFences 1
      if c.form = 13 then w1
      else (w1.actOnWord core c.ctx c.a.toNat c.wordPa (max c.lts c.wts) c.bytes c.err).auditCommand core c.ctx 1 c.a.toNat

/-- `cp` (R379). -/
def execCp (om : BitVec 2) (os : BitVec 7) (ts : BitVec 7) (y : BitVec 4) (z : BitVec 4)
    (σ : State) : Host.Outcome State Fault Refusal :=
  .next (slotRun (copyPlan 1 om os ts y z) σ)

/-- `cp.sh` (R379). -/
def execCpSh (om : BitVec 2) (os : BitVec 7) (ts : BitVec 7) (y : BitVec 4) (z : BitVec 4)
    (σ : State) : Host.Outcome State Fault Refusal :=
  .next (slotRun (copyPlan 2 om os ts y z) σ)

/-- `cp.red` (R380). -/
def execCpRed (om : BitVec 2) (os : BitVec 7) (ts : BitVec 7) (y : BitVec 4) (z : BitVec 4)
    (σ : State) : Host.Outcome State Fault Refusal :=
  .next (slotRun (copyPlan 3 om os ts y z) σ)

/-- `cp.g` (R381). -/
def execCpG (om : BitVec 2) (os : BitVec 7) (ts : BitVec 7) (y : BitVec 4) (z : BitVec 4)
    (σ : State) : Host.Outcome State Fault Refusal :=
  .next (slotRun (copyPlan 4 om os ts y z) σ)

/-- `cp.s` (R381). -/
def execCpS (om : BitVec 2) (os : BitVec 7) (ts : BitVec 7) (y : BitVec 4) (z : BitVec 4)
    (σ : State) : Host.Outcome State Fault Refusal :=
  .next (slotRun (copyPlan 5 om os ts y z) σ)

/-- `bk` (R382). -/
def execBk (om : BitVec 2) (os : BitVec 7) (ts : BitVec 7) (y : BitVec 4) (z : BitVec 4)
    (σ : State) : Host.Outcome State Fault Refusal :=
  .next (slotRun (copyPlan 6 om os ts y z) σ)

/-- `bk.red` (R383). -/
def execBkRed (om : BitVec 2) (os : BitVec 7) (ts : BitVec 7) (y : BitVec 4) (z : BitVec 4)
    (σ : State) : Host.Outcome State Fault Refusal :=
  .next (slotRun (copyPlan 7 om os ts y z) σ)

/-- `cp.q` (R384). -/
def execCpQ (ts : BitVec 7) (n : BitVec 3) (σ : State) : Host.Outcome State Fault Refusal :=
  .next (slotRun (cpQPlan ts n) σ)

/-- `cp.fence` (R385). -/
def execCpFence (b : BitVec 1) (σ : State) : Host.Outcome State Fault Refusal :=
  .next (slotRun (cpFencePlan b) σ)

/-- `cp.stat`, at t + 4 (R386). -/
def execCpStat (ts : BitVec 7) (σ : State) : Host.Outcome State Fault Refusal :=
  .next (slotRun (cpStatPlan ts) σ)

/-- `cp.quiesce` (R387). -/
def execCpQuiesce (ts : BitVec 7) (σ : State) : Host.Outcome State Fault Refusal :=
  .next (slotRun (cpQuiescePlan ts) σ)

/-- `cp.abort` (R388). -/
def execCpAbort (ts : BitVec 7) (σ : State) : Host.Outcome State Fault Refusal :=
  .next (slotRun (cpAbortPlan ts) σ)

/-- `cp.pub` (R389). -/
def execCpPub (om : BitVec 2) (os : BitVec 7) (ts : BitVec 7) (σ : State) : Host.Outcome State Fault Refusal :=
  .next (slotRun (cpPubPlan om os ts) σ)

end Sys2Proof.Machine
end

