-- ==== Sys2Proof/Machine/Fetch.lean ====
section
/-! DEFINITION. Fetching a bundle (R160, R162, R220, R263 to R265), and drain points (R223). -/

namespace Sys2Proof.Machine

/-- A bundle as fetched: its 32 bytes, or the cause of the fault, which is also entered in the error ring for a
malformed page-table entry (R162). -/
inductive Fetched where
  | ok (bundle : Nat)
  | fault (cause : Nat) (logged : Bool)
  deriving DecidableEq, Repr

/-- The bundle at an address, from the loop buffer where it holds it (R220), else from memory with X = 1. -/
def fetchBundle (w : Work) (core bank pc : Nat) : Fetched :=
  let c := w.ctx core bank
  match c.lbuf.get? pc with
  | some b => .ok b
  | none =>
    if 2 ^ 56 ≤ pc then .fault 8 false
    else if inSystemPage pc then .fault 11 false
    else match translate w { part := c.part, sec := c.sec, die := coreDie core } [.fetch] pc with
      | .ok x =>
        let f := reachFault w.dev (coreDie core) x.pa
        if f ≠ 0 then .fault f false
        else if w.poisonAt x.pa 32 ≠ 0 then .fault (w.poisonAt x.pa 32) false
        else .ok (w.pread x.pa 32)
      | .error (.absent _) => .fault 8 false
      | .error .malformed => .fault 8 true
      | .error (.refused cause) => .fault cause false
      | .error (.busy _) => .fault 8 false

/-- The line that a fetch at an address has to wait for: one whose home is busy, or that the guest or the host has as its
own, be it the bundle's or one of a page-table entry (R24, R50, R76, R78, R160): the fetch is asked for again later, and no
cause comes of it. -/
def fetchWaits (w : Work) (core bank pc : Nat) : Option Nat :=
  let c := w.ctx core bank
  if (c.lbuf.get? pc).isSome then none
  else match translate w { part := c.part, sec := c.sec, die := coreDie core } [.fetch] pc with
    | .ok x => if readWaits w.dev (x.pa / 64) then some (x.pa / 64) else none
    | .error (.busy l) => some l
    | .error _ => none

/-- Word n of a bundle (R264): 0 the header, 1 to 6 the slots, 7 the long immediate. -/
def bundleWord (b n : Nat) : Word32 := BitVec.ofNat 32 (packedBytes b (4 * n) 4)

/-- The D bit of a bundle's header (R265). -/
def bundleDrains (b : Nat) : Bool := bit b 31

/-- No fixed-latency result is in flight, no landing is outstanding and no pass is in flight (R223). -/
def drained (w : Work) (core bank : Nat) : Bool :=
  let c := w.ctx core bank
  c.flights.isEmpty && c.outs.isEmpty && (w.core core).passes.all fun p => decide (p.ctx ≠ bank)

/-- The context stands at a drain point whose hold is over (R223): the next bundle has D = 1. -/
def atDrain (w : Work) (core bank : Nat) : Bool :=
  let c := w.ctx core bank
  drained w core bank && c.replay.isEmpty && c.requeue.isEmpty && c.hist.all (fun x => x.isNone) &&
    (match fetchBundle w core bank c.pc with
      | .ok b => bundleDrains b
      | .fault _ _ => false)

end Sys2Proof.Machine
end

