-- ==== Sys2Proof/Machine/Sha.lean ====
section
/-! DEFINITION. The SHA-384 digest (FIPS 180-4) on which placement signatures and measurements rest (R132, R71). -/

namespace Sys2Proof.Machine

/-- Round constants 0 to 19: the first 64 fraction bits of the cube roots of the primes. -/
def shaK0 : List (BitVec 64) :=
  [0x428A2F98D728AE22, 0x7137449123EF65CD, 0xB5C0FBCFEC4D3B2F, 0xE9B5DBA58189DBBC, 0x3956C25BF348B538,
   0x59F111F1B605D019, 0x923F82A4AF194F9B, 0xAB1C5ED5DA6D8118, 0xD807AA98A3030242, 0x12835B0145706FBE,
   0x243185BE4EE4B28C, 0x550C7DC3D5FFB4E2, 0x72BE5D74F27B896F, 0x80DEB1FE3B1696B1, 0x9BDC06A725C71235,
   0xC19BF174CF692694, 0xE49B69C19EF14AD2, 0xEFBE4786384F25E3, 0xFC19DC68B8CD5B5, 0x240CA1CC77AC9C65]

/-- Round constants 20 to 39: the first 64 fraction bits of the cube roots of the primes. -/
def shaK1 : List (BitVec 64) :=
  [0x2DE92C6F592B0275, 0x4A7484AA6EA6E483, 0x5CB0A9DCBD41FBD4, 0x76F988DA831153B5, 0x983E5152EE66DFAB,
   0xA831C66D2DB43210, 0xB00327C898FB213F, 0xBF597FC7BEEF0EE4, 0xC6E00BF33DA88FC2, 0xD5A79147930AA725,
   0x6CA6351E003826F, 0x142929670A0E6E70, 0x27B70A8546D22FFC, 0x2E1B21385C26C926, 0x4D2C6DFC5AC42AED,
   0x53380D139D95B3DF, 0x650A73548BAF63DE, 0x766A0ABB3C77B2A8, 0x81C2C92E47EDAEE6, 0x92722C851482353B]

/-- Round constants 40 to 59: the first 64 fraction bits of the cube roots of the primes. -/
def shaK2 : List (BitVec 64) :=
  [0xA2BFE8A14CF10364, 0xA81A664BBC423001, 0xC24B8B70D0F89791, 0xC76C51A30654BE30, 0xD192E819D6EF5218,
   0xD69906245565A910, 0xF40E35855771202A, 0x106AA07032BBD1B8, 0x19A4C116B8D2D0C8, 0x1E376C085141AB53,
   0x2748774CDF8EEB99, 0x34B0BCB5E19B48A8, 0x391C0CB3C5C95A63, 0x4ED8AA4AE3418ACB, 0x5B9CCA4F7763E373,
   0x682E6FF3D6B2B8A3, 0x748F82EE5DEFB2FC, 0x78A5636F43172F60, 0x84C87814A1F0AB72, 0x8CC702081A6439EC]

/-- Round constants 60 to 79: the first 64 fraction bits of the cube roots of the primes. -/
def shaK3 : List (BitVec 64) :=
  [0x90BEFFFA23631E28, 0xA4506CEBDE82BDE9, 0xBEF9A3F7B2C67915, 0xC67178F2E372532B, 0xCA273ECEEA26619C,
   0xD186B8C721C0C207, 0xEADA7DD6CDE0EB1E, 0xF57D4F7FEE6ED178, 0x6F067AA72176FBA, 0xA637DC5A2C898A6,
   0x113F9804BEF90DAE, 0x1B710B35131C471B, 0x28DB77F523047D84, 0x32CAAB7B40C72493, 0x3C9EBE0A15C9BEBC,
   0x431D67C49C100D4C, 0x4CC5D4BECB3E42B6, 0x597F299CFC657E2A, 0x5FCB6FAB3AD6FAEC, 0x6C44198C4A475817]

/-- The round constants. -/
def shaK : List (BitVec 64) := shaK0 ++ shaK1 ++ shaK2 ++ shaK3

/-- The initial value: fraction bits of the square roots of the 9th to 16th primes. -/
def sha384Init : List (BitVec 64) :=
  [0xCBBB9D5DC1059ED8, 0x629A292A367CD507, 0x9159015A3070DD17, 0x152FECD8F70E5939, 0x67332667FFC00B31,
   0x8EB44A8768581511, 0xDB0C2E0D64F98FA7, 0x47B5481DBEFA4FA4]

/-- One more word of the message schedule, whose last 16 words are held newest first. -/
def shaNext (w : List (BitVec 64)) : BitVec 64 :=
  let at_ (n : Nat) : BitVec 64 := w.getD n 0
  let a := at_ 14
  let b := at_ 1
  let s0 := (a.rotateRight 1) ^^^ (a.rotateRight 8) ^^^ (a >>> 7)
  let s1 := (b.rotateRight 19) ^^^ (b.rotateRight 61) ^^^ (b >>> 6)
  at_ 15 + s0 + at_ 6 + s1

/-- n more words of the schedule; the list holds every word, newest first. -/
def shaSchedule : Nat → List (BitVec 64) → List (BitVec 64)
  | 0, w => w
  | n + 1, w => shaSchedule n (shaNext w :: w)

/-- The rounds over the schedule and the constants. -/
def shaRounds (h : List (BitVec 64)) : List (BitVec 64) → List (BitVec 64) → List (BitVec 64)
  | w :: ws, k :: ks =>
    let g (n : Nat) : BitVec 64 := h.getD n 0
    let e := g 4
    let a := g 0
    let s1 := (e.rotateRight 14) ^^^ (e.rotateRight 18) ^^^ (e.rotateRight 41)
    let ch := (e &&& g 5) ^^^ ((~~~e) &&& g 6)
    let t1 := g 7 + s1 + ch + k + w
    let s0 := (a.rotateRight 28) ^^^ (a.rotateRight 34) ^^^ (a.rotateRight 39)
    let maj := (a &&& g 1) ^^^ (a &&& g 2) ^^^ (g 1 &&& g 2)
    shaRounds [t1 + s0 + maj, a, g 1, g 2, g 3 + t1, e, g 5, g 6] ws ks
  | [], _ => h
  | _ :: _, [] => h

/-- One 128-byte block, its 16 words in order. -/
def shaBlock (h block : List (BitVec 64)) : List (BitVec 64) :=
  let r := shaRounds h (shaSchedule 64 block.reverse).reverse shaK
  (h.zip r).map fun p => p.1 + p.2

/-- n blocks of 16 words each. -/
def shaBlocks : Nat → List (BitVec 64) → List (BitVec 64) → List (BitVec 64)
  | 0, h, _ => h
  | n + 1, h, ws => shaBlocks n (shaBlock h (ws.take 16)) (ws.drop 16)

/-- Eight bytes of a little-endian packed message as a big-endian word: the first byte is the highest. -/
def beWord (m : Nat) : BitVec 64 :=
  BitVec.ofNat 64 ((List.range 8).foldl (fun a i => a * 256 + m / 256 ^ i % 256) 0)

/-- The padded message of n bytes (packed, first byte lowest) as big-endian words. -/
def shaPad (msg n : Nat) : List (BitVec 64) :=
  let blocks := (n + 17 + 127) / 128
  let body := msg % 256 ^ n + 0x80 * 256 ^ n
  ((List.range (16 * blocks - 1)).map fun i => beWord (body / 256 ^ (8 * i))) ++ [BitVec.ofNat 64 (8 * n)]

/-- Bytes 0 to 7 of the SHA-384 digest of n bytes, read little-endian. -/
def sha384Low (msg n : Nat) : Nat :=
  let ws := shaPad msg n
  (beWord ((shaBlocks (ws.length / 16) sha384Init ws).headD 0).toNat).toNat

/-- The 48 bytes of the SHA-384 digest, packed with the first byte lowest. -/
def sha384 (msg n : Nat) : Nat :=
  let ws := shaPad msg n
  (((shaBlocks (ws.length / 16) sha384Init ws).take 6).foldr
    (fun x a => (beWord x.toNat).toNat + 2 ^ 64 * a) 0)

end Sys2Proof.Machine
end

