-- ==== Sys2Proof/Machine/Sched.lean ====
section
/-! DEFINITION. The hardware scheduler's shared operations: header checks, placement, quires, dispatch, extents, task and
ebb start, die shares and stealing (R128 to R144, R416). -/

namespace Sys2Proof.Machine

-- Reads and writes by the device itself

/-- n bytes read with acquire by a die's front end or scheduler for a partition, as an ordinary access of its agent (R88,
R147, R185). -/
def Work.devRead (w : Work) (part die va n : Nat) : Except XErr (Nat × Work) :=
  if 2 ^ 56 ≤ va then .error (.refused 8)
  else match translate w (deviceAsker w.dev part die) [.read] va with
    | .error e => .error e
    | .ok x =>
      if reachFault w.dev die x.pa ≠ 0 then .error (.refused (reachFault w.dev die x.pa))
      else if regionOf x.pa = .peer then .ok w.free
      else .ok (Work.agentRead (feAgent die) (n / 64 + 2) x.pa n w)

/-- n records of z bytes from an address aligned to them, packed. -/
def Work.devRecords (w : Work) (part die z va : Nat) : Nat → Except XErr (Nat × Work)
  | 0 => .ok (0, w)
  | n + 1 =>
    match w.devRead part die va z with
    | .error e => .error e
    | .ok x =>
      match x.2.devRecords part die z (va + z) n with
      | .error e => .error e
      | .ok y => .ok (x.1 + 2 ^ (8 * z) * y.1, y.2)

/-- The line that a walk made for the device waits for (R160). -/
def Work.devBusy (w : Work) (part die va : Nat) (need : List Need) : Option Nat :=
  match translate w (deviceAsker w.dev part die) need va with
  | .ok _ => none
  | .error (.busy l) => some l
  | .error (.absent _) => none
  | .error .malformed => none
  | .error (.refused _) => none

/-- An access by the device translates with the permissions asked for. -/
def Work.devOk (w : Work) (part die va : Nat) (need : List Need) : Bool :=
  decide (va < 2 ^ 56) && (match translate w (deviceAsker w.dev part die) need va with
    | .ok _ => true
    | .error _ => false)

-- Header checks (R128, R129)

/-- The unit numbers of the set bits of an 8-bit mask, ascending. -/
def setBits (m : Nat) : List Nat := (List.range 8).filter fun i => bit m i

/-- Two ranges of n bytes meet. -/
def rangesMeet (a b n : Nat) : Bool := decide (a < b + n) && decide (b < a + n)

/-- W1 + ... + W(NF) (R129). -/
def Launch.widthSum (l : Launch) : Nat := ((List.range l.nf).map fun j => l.width (j + 1)).foldl (· + ·) 0

/-- An extent fits the widths; a sum of 64 permits any (R129, R91). -/
def Launch.extentFits (l : Launch) (e : Nat) : Bool := decide (64 ≤ l.widthSum) || decide (e ≤ 2 ^ l.widthSum)

/-- The reserved bits and bytes of the header are 0 (Table 6.1). -/
def Launch.reservedZero (l : Launch) : Bool :=
  decide (bits (l.hb 5 1) 7 5 = 0) && decide (bits (l.hb 6 1) 7 3 = 0) && decide (bits (l.hb 7 1) 7 4 = 0) &&
    decide (bits (l.hb 8 1) 7 6 = 0) && decide (bits (l.hb 9 1) 7 5 = 0) && decide (l.hb 22 2 = 0) &&
    decide (bits (l.hb 36 4) 31 20 = 0) && decide (bits (l.hb 40 4) 31 21 = 0) &&
    decide (bits (l.hb 44 4) 31 20 = 0) && decide (l.hb 58 2 = 0) && decide (l.hb 112 144 = 0)

/-- Every field lies in its range (Table 6.1), TIDES only where the header's own counts. -/
def Launch.fieldsOk (l : Launch) (ind : Bool) : Bool :=
  decide (l.qlog ≤ 4) && decide (1 ≤ l.nf) && decide (l.nf ≤ 6) && decide (1 ≤ l.tl) && decide (l.tl ≤ l.nf) &&
    decide (l.next ≤ 16) && decide (1 ≤ l.weight) && (ind || decide (1 ≤ l.hb 14 2)) &&
    decide (l.lsb % 32 = 0) && decide (l.lssz % 32 = 0) && decide (l.lssz ≤ 2 ^ 20) &&
    decide (l.vtab % 32 = 0) && decide (1 ≤ l.vcount) && decide (l.vcount ≤ 64) &&
    (decide (l.audk ≤ 16) || decide (l.audk = 255)) && decide (1 ≤ l.hb 60 4) && decide (1 ≤ l.hb 64 4) &&
    decide (1 ≤ l.hb 68 4) && decide (l.hb 68 4 ≤ 1000000) && (decide (l.next = 0) || decide (l.extt % 32 = 0)) &&
    decide (l.din % 8 = 0) && decide (l.dout % 8 = 0)

/-- The widths are as R129 asks. -/
def Launch.widthsOk (l : Launch) : Bool :=
  ((List.range 6).all fun j =>
    if j < l.nf then decide (1 ≤ l.width (j + 1)) && decide (l.width (j + 1) ≤ 64) else decide (l.width (j + 1) = 0)) &&
    decide (l.widthSum ≤ 64)

/-- The second bank's resources are as R129 asks. -/
def Launch.altOk (l : Launch) : Bool :=
  if l.alt then
    decide ((setBits l.acc).all fun i => !bit l.altacc i) &&
      decide ((setBits l.acc).length = (setBits l.altacc).length) &&
      (decide (l.lssz = 0) || !rangesMeet l.lsb l.altlsb l.lssz) && decide (l.altlsb + l.lssz ≤ 2 ^ 20)
  else decide (l.altacc = 0) && decide (l.altlsb = 0)

/-- The addresses at which a table of n bytes meets its 4 KiB pages: fuel bounds their number. -/
def tablePages : Nat → Nat → Nat → List Nat
  | 0, _, _ => []
  | k + 1, va, n => if n = 0 then [] else va :: tablePages k (va / 4096 * 4096 + 4096) (n - (4096 - va % 4096))

/-- The addresses that a header names, with the permissions that the launch needs there (R129). -/
def Launch.reaches (l : Launch) : List (Nat × List Need) :=
  ((tablePages 2 l.vtab (32 * l.vcount)).map fun a => (a, [Need.read])) ++
    (if l.next = 0 then [] else (tablePages 2 l.extt (32 * l.next)).map fun a => (a, [Need.read])) ++
    (if l.din = 0 then [] else [(l.din, [Need.read])]) ++
    (if l.dout = 0 then [] else [(l.dout, [Need.write, Need.atomic])])

/-- The first line that the checks of a header wait for. -/
def headerBusy (w : Work) (l : Launch) : Option Nat :=
  l.reaches.findSome? fun x => w.devBusy l.part l.die x.1 x.2

/-- The header passes every check of R129. -/
def headerOk (w : Work) (l : Launch) (ind : Bool) : Bool :=
  decide (l.hb 0 4 = 0x43474C48) && decide (l.hb 4 1 = 1) && l.reservedZero && l.fieldsOk ind && l.widthsOk &&
    (ind || l.extentFits (l.hb 24 8)) && decide (l.lsb + l.lssz ≤ 2 ^ 20) && l.altOk &&
    ((List.range 32).all fun k => !bit l.clmask k || bit (w.dev.partOf l.part).clusters k) &&
    l.reaches.all fun x => w.devOk l.part l.die x.1 x.2

-- Placement (R132, R133, R137, R138)

/-- The clusters that a launch may use: CLMASK, or its partition's; D3 c7 alone in the quarantine class (R99, R132). -/
def usable (d : Dev) (l : Launch) : List Nat :=
  if l.quarantine then [31]
  else (List.range 32).filter fun k => bit (if l.clmask = 0 then (d.partOf l.part).clusters else l.clmask) k

/-- The enabled sites of a cluster as global core numbers, ascending. -/
def sitesOf (d : Dev) (cl : Nat) : List Nat :=
  ((List.range 16).map fun k => 16 * cl + k).filter fun k => !d.coresOff.contains k

/-- Bits packed, bit 0 first. -/
def packBits (xs : List Bool) : Nat := packN 1 (xs.map fun b => if b then 1 else 0)

/-- The two state bits of a column in the placement record (R132). The spec does not say what a column that the record disables
shows, nor that its memory is out of reach: it shows 3, the code of a failed one, and is reached as any other (DESIGN CHOICE,
notes/assumptions/94.md; no record with such a column comes into force). -/
def columnCode (d : Dev) (k : Nat) : Nat :=
  if d.colsOff.contains k then 3 else if (d.column k).bus = 1 then 0 else (d.column k).bus % 4

/-- The 16-byte entry of a usable cluster (R132). -/
def placementEntry (d : Dev) (cl : Nat) : Nat :=
  1 + 2 ^ 16 * packBits ((List.range 16).map fun k => !d.coresOff.contains (16 * cl + k)) +
    2 ^ 32 * packBits ((List.range 64).map fun k => !d.slicesOff.contains (64 * cl + k)) +
    2 ^ 96 * packN 2 ((List.range 16).map fun k => columnCode d (16 * cl + k))

/-- The placement signature of a set of clusters (R132). -/
def placementSig (d : Dev) (cls : List Nat) : Nat :=
  sha384Low (packN 128 ((List.range 32).map fun k => if cls.contains k then placementEntry d k else 0)) 512

/-- A list cut into pieces of n, what is left over dropped; fuel bounds the number of pieces. -/
def pieces {α : Type} (n : Nat) : Nat → List α → List (List α)
  | 0, _ => []
  | k + 1, xs => if xs.length < n ∨ n = 0 then [] else xs.take n :: pieces n k (xs.drop n)

/-- The quires of a cluster by width (R137). -/
def quiresOf (d : Dev) (qlog cl : Nat) : List (List Nat) := pieces (2 ^ qlog) 16 (sitesOf d cl)

/-- The gang's quires (R138). -/
def gangOf (d : Dev) (l : Launch) : List (List Nat) := (usable d l).flatMap (quiresOf d l.qlog)

/-- The first variant entry with the signature and no nonzero reserved byte: flood and ebb entries (R133). -/
def pickVariant (tab sig : Nat) : Nat → Nat → Option (Nat × Nat)
  | 0, _ => none
  | n + 1, i =>
    if packedBytes tab (32 * i) 8 = sig ∧ packedBytes tab (32 * i + 24) 8 = 0 then
      some (packedBytes tab (32 * i + 8) 8, packedBytes tab (32 * i + 16) 8)
    else pickVariant tab sig n (i + 1)

-- Quarantine (R100)

/-- A quarantine exists: a quarantine-class launch is queued or running (R100); one that has ended is neither, though its entry
may still wait for its COMPLETION record's slot. -/
def quarantineOn (d : Dev) : Bool := d.launches.any fun p => p.2.quarantine && decide (p.2.st ≠ 0) && !p.2.ended

/-- A core of D3 c7, the reserved cluster. -/
def reservedCore (core : Nat) : Bool := decide (coreCluster core = 31)

-- Free quires (R137, R148)

/-- The bank of a core is free for a task: its context has nothing to run. -/
def Ctx.free (c : Ctx) : Bool := !c.busy

/-- A context is parked, woken or not. -/
def Ctx.isParked (c : Ctx) : Bool :=
  match c.st with
  | .parked _ => true
  | .idle => false
  | .ready => false
  | .entering _ => false
  | .reported => false

/-- The bank in which a quire may take a task of a launch, if it is free (R137, R148): bank 0 where both banks of every
member are idle; the other bank where one bank of every member is parked by the same launch and ALT = 1. -/
def freeBank (d : Dev) (l : Launch) (ix : Nat) (q : List Nat) : Option Nat :=
  let idle (b : Nat) : Bool := q.all fun k => (d.ctx k b).free
  let parkedHere (b : Nat) : Bool :=
    (q.all fun k => (d.ctx k b).isParked && decide ((d.ctx k b).ix = ix) && !(d.ctx k b).ebb) &&
      q.any fun k => !(d.ctx k b).runnable
  if idle 0 ∧ idle 1 then some 0
  else if l.alt = false then none
  else if idle 1 ∧ parkedHere 0 then some 1
  else if idle 0 ∧ parkedHere 1 then some 0
  else none

/-- Another launch holds a core from the completion of its roll-up to the end of its ebb (R144). -/
def heldByBarrier (d : Dev) (ix core : Nat) : Bool :=
  d.launches.any fun p => decide (p.1 ≠ ix) && (p.2.inEbb || (decide (p.2.st = 2) &&
    (match p.2.phase with
      | .barrier _ => true
      | .ebb => false
      | .dependence _ => false
      | .flood => false))) && p.2.gang.any fun q => q.contains core

/-- The allowance of a quire: the cw.therm of its cluster (R33, R137). -/
def allowance (d : Dev) (q : List Nat) : Nat := d.therm.get (coreCluster (q.headD 0)) 255

/-- The quire of a launch's gang on a die that takes its next task, with the bank: the free quire of highest allowance,
the lowest lead among equals (R137, R100). -/
def pickQuire (d : Dev) (ix die : Nat) : Option (List Nat × Nat) :=
  let l := d.launch ix
  let cand := l.gang.filterMap fun q =>
    let lead := q.headD 0
    if coreDie lead = die ∧ 0 < allowance d q ∧ (q.all fun k => !heldByBarrier d ix k) ∧
        (l.quarantine ∨ !reservedCore lead ∨ quarantineOn d = false) then
      (freeBank d l ix q).map fun b => (q, b)
    else none
  cand.foldl (fun best x => match best with
    | none => some x
    | some y => if allowance d y.1 < allowance d x.1 ∨
        (allowance d y.1 = allowance d x.1 ∧ x.1.headD 0 < y.1.headD 0) then some x else some y) none

-- Extents (R140, R141)

/-- What the translation of a task's extents finds (Table 6.4). -/
inductive ExtOut where
  | ok (e : List Extent)
  /-- a page not present: cause 8 or 9 should it stay so -/
  | missing (cause : Nat)
  | fails (cause : Nat)
  deriving DecidableEq, Repr

/-- One descriptor translated for a task (R140, R141); a range that reaches into the system page has no permission there
(R164). -/
def oneExtent (w : Work) (part die desc t : Nat) : ExtOut × Work :=
  let b (o n : Nat) : Nat := packedBytes desc o n
  let len := b 16 8
  let start : Int := (b 0 8 : Int) + (t : Int) * sx 64 (b 8 8)
  let perms := b 24 1 % 8
  if bits (b 0 8) 63 56 ≠ 0 ∨ b 24 1 / 8 ≠ 0 ∨ b 25 7 ≠ 0 ∨ len = 0 ∨ 2 ^ 40 < len then (.fails 53, w)
  else if start < 0 ∨ (2 : Int) ^ 56 < start + len then (.fails 53, w)
  else
    let need : List Need := (if bit perms 0 then [Need.read] else []) ++ (if bit perms 1 then [Need.write] else []) ++
      (if bit perms 2 then [Need.atomic] else [])
    let va := start.toNat
    match translate w (deviceAsker w.dev part die) need va with
    | .error (.refused c) => (.fails c, w)
    | .error e => (.missing (if perms = 1 then 8 else 9), w.awaits e)
    | .ok x =>
      if x.size < va % x.size + len then (.fails 53, w)
      else if inSystemPage (va + len - 1) then (.fails 11, w)
      else (.ok [{ pa := x.pa, len := len, perms := perms, cls := x.cls, va := va, desc := desc, lines := x.lines }], w)

/-- The extents of a task: n descriptors of packed records from number i (R140). -/
def taskExtents (part die tab t : Nat) : Nat → Nat → Work → ExtOut × Work
  | 0, _, w => (.ok [], w)
  | n + 1, i, w =>
    match oneExtent w part die (packedBytes tab (32 * i) 32) t with
    | (.missing c, w1) => (.missing c, w1)
    | (.fails c, w1) => (.fails c, w1)
    | (.ok e, w1) =>
      match taskExtents part die tab t n (i + 1) w1 with
      | (.missing c, w2) => (.missing c, w2)
      | (.fails c, w2) => (.fails c, w2)
      | (.ok es, w2) => (.ok (e ++ es), w2)

/-- The extents of a launch's task on a die (R140): the descriptor table is read at the dispatch. -/
def launchExtents (w : Work) (ix die t : Nat) : ExtOut × Work :=
  let l := w.dev.launch ix
  match w.devRecords l.part die 32 l.extt l.next with
  | .error (.refused c) => (.fails c, w)
  | .error e => (.missing 8, w.awaits e)
  | .ok r => taskExtents l.part die r.1 t l.next 0 r.2

-- Task start (R131)

/-- The context's state is that which a launch's last task in the bank left; what another launch's task has left there since
is kept for that launch (R131, R416). The claim of the bank ends where another launch's task comes (R172). -/
def Work.enterBank (w : Work) (ix core bank : Nat) : Work :=
  let c := w.ctx core bank
  let key := 2 * core + bank
  if c.lastIx = some ix then w
  else
    let w1 := match c.lastIx with
      | none => w
      | some j => if (w.dev.launches.get? j).isSome then w.updLaunch j fun l => { l with kept := l.kept.set key c } else w
    let w2 := w1.setClaim core bank l2divReset
    match (w.dev.launch ix).kept.get? key with
    | none => w2
    | some k =>
      (w2.updCtx core bank fun x => { k with lts := max x.lts k.lts, l2div := x.l2div, lastIx := some ix }).updLaunch ix
        fun l => { l with kept := l.kept.del key }

/-- A context's registers for a task of a launch: what its last task of the launch left, or zeros and reset values
(R131, R172, R187, R281, Table 9.2). -/
def Ctx.forLaunch (c : Ctx) (l : Launch) (ix : Nat) (p : Part) : Ctx :=
  if c.lastIx = some ix then c
  else { lts := c.lts, tvec := bits p.svec 55 5 * 32, handler := decide (bits p.svec 55 5 ≠ 0), l2div := c.l2div
         tframe := if 32768 ≤ l.lssz then l.lsb + l.lssz - 32768 else 0 }

/-- The items of Table 6.2 but for s1 to s3, the extents and the PC's bank. -/
def Ctx.taskItems (c : Ctx) (l : Launch) (ix t : Nat) (p : Part) : Ctx :=
  { c with
    st := .ready
    task := BitVec.ofNat 64 t
    wid := BitVec.ofNat 64 (l.firstId t)
    widHi := BitVec.ofNat 64 (l.lastId t)
    tide := l.tide
    frzlim := l.frzlim, qwait := l.qwait
    s := ((c.s.set 1 (BitVec.ofNat 64 l.args)).set 2 (BitVec.ofNat 64 l.extent)).set 3 (BitVec.ofNat 64 ix)
    mark := ((c.mark.del 1).del 2).del 3
    part := l.part, ix := ix, sec := p.world, audk := l.audk
    lvl := 0, plvl := 0, ppend := 0, dist := 0
    qlog := l.qlog, skew := l.skew, acc := l.acc, altacc := l.altacc
    lsb := l.lsb, lssz := l.lssz, next := l.next, args := l.args
    br := none, loop := { ctr := c.loop.ctr }, lbuf := []
    freeze := none, sync := none, syncGo := none, halt := min 1 c.halt }

/-- Start a task in a bank of one member of a quire (R131). What its stream had acquired when the launch started is visible
to it (R90). Where the other bank has parked, the first bundle issues 8 cycles after its last one (R224). Of the variant's flood
entry address the bits 55 to 5 count: the spec gives no check of the others (DESIGN CHOICE, notes/assumptions/127.md). -/
def Work.startMember (w : Work) (ix t bank lead rank core : Nat) (ext : List Extent) : Work :=
  let l := w.dev.launch ix
  let p := w.dev.partOf l.part
  let alt := decide (bank = 1)
  ((w.enterBank ix core bank).updCtx core bank fun x =>
    let y := (x.forLaunch l ix p).taskItems l ix t p
    { y with
      rank := rank, quire := lead + 512 * l.qlog, lead := lead
      ext := (List.range ext.length).zip ext
      pc := bits l.flood 55 5 * 32
      ebb := false
      alt := alt
      lts := max y.lts l.acquired
      reloc := if alt then (l.altlsb : Int) - (l.lsb : Int) else 0 }).updCore core fun k => { k with
        cur := bank, goAt := if k.cur = bank then k.goAt else max k.goAt k.leftAt }

/-- Start a task on every member of a quire (R131, R140). -/
def Work.startTask (w : Work) (ix t bank : Nat) (q : List Nat) (ext : List Extent) : Work :=
  let lead := q.headD 0
  let w1 := ((List.range q.length).zip q).foldl (fun a x => a.startMember ix t bank lead x.1 x.2 ext) w
  let cl := coreCluster lead
  w1.updLaunch ix fun l => { l with
    disp := l.disp.set cl (l.disp.get cl 0 + 1)
    banks := q.foldl (fun t k => t.set k bank) l.banks }

/-- The reserved cluster passes to the work of another partition: its cores and staging ways are zeroed (R100). -/
def Work.claimReserved (w : Work) (part : Nat) : Work :=
  if w.dev.quarPart = none ∨ w.dev.quarPart = some part then w.mapDev fun d => { d with quarPart := some part }
  else
    let clean (a : Work) (k : Nat) : Work :=
      ((((a.zeroKeys (Key.ls k 0) 0x100000).updCore k fun c => { c with
          acc := [], bnd := [], dig := [], adds := [], accLay := [], wb := [], lsBad := [] }).updCtx k 0
        fun c => { lts := c.lts, l2div := c.l2div }).updCtx k 1 fun c => { lts := c.lts, l2div := c.l2div })
    let w1 := (sitesOf w.dev 31).foldl clean w
    ((List.range 16).foldl (fun a k => zeroWay a 31 k) w1).mapDev fun d => { d with
      quarPart := some part
      launches := d.launches.map fun p => (p.1, { p.2 with
        kept := p.2.kept.filter fun x => !reservedCore (x.1 / 2) }) }

-- Dispatch (R136)

/-- A die's scheduler may dispatch: it makes at most one dispatch every 4 cycles of the 600 MHz clock (R6, R136). -/
def mayDispatch (d : Dev) (die : Nat) : Bool := decide (d.dispatchAt.get die 0 ≤ d.now)

/-- The die's scheduler has made a dispatch (R136). -/
def Work.dispatched (w : Work) (die : Nat) : Work :=
  w.mapDev fun d => { d with dispatchAt := d.dispatchAt.set die (d.now + 4) }

/-- The lowest task of a launch's range on a die, or a task whose extents have come to translate. -/
def nextTask (l : Launch) (die : Nat) : Option Nat :=
  let again := (l.again.filter fun x => decide (x.2 = die)).map (·.1)
  let r := l.ranges.get die (0, 0)
  let low := if r.1 < r.2 then [r.1] else []
  (again ++ low).foldl (fun m x => match m with
    | none => some x
    | some y => some (min x y)) none

/-- The flood of a launch's current tide is open. -/
def Launch.floods (l : Launch) : Bool :=
  decide (l.st = 2) && (match l.phase with
    | .flood => true
    | .dependence _ => false
    | .barrier _ => false
    | .ebb => false)

/-- The saved tasks whose extents are not waited for (R141, R150). -/
def Launch.resumable (l : Launch) : List Saved :=
  l.saved.filter fun s => !l.held.any fun h => decide (h.task = s.task)

/-- A launch has a task ready on a die (R136): one of its range there, or a saved one (R150), and a free quire. -/
def readyOn (d : Dev) (ix die : Nat) : Bool :=
  let l := d.launch ix
  l.floods && d.partRuns l.part && (!l.resumable.isEmpty || (nextTask l die).isSome) && (pickQuire d ix die).isSome

/-- The launch that a die's scheduler serves (R136): smallest PRI, then smallest V, then lowest index. -/
def pickLaunch (d : Dev) (die : Nat) : Option Nat :=
  let ready := (List.range 64).filter fun ix => readyOn d ix die
  ready.foldl (fun best ix => match best with
    | none => some ix
    | some b =>
      let lb := d.launch b
      let li := d.launch ix
      if li.pri < lb.pri ∨ (li.pri = lb.pri ∧ li.serv.get die 0 < lb.serv.get die 0) then some ix else some b) none

/-- The task leaves its die's range or the list of tasks that have come to translate. -/
def Launch.take (l : Launch) (die t : Nat) : Launch :=
  let r := l.ranges.get die (0, 0)
  if l.again.any fun x => decide (x = (t, die)) then { l with again := l.again.filter fun x => decide (x ≠ (t, die)) }
  else if r.1 = t then { l with ranges := l.ranges.set die (t + 1, r.2) }
  else l

/-- The service value after a dispatch (R136 step 4). -/
def Launch.charge (l : Launch) (die : Nat) : Launch :=
  { l with serv := l.serv.set die (l.serv.get die 0 + 65536 / l.weight) }

/-- A task is dispatched to a quire's bank, or held or the launch failed by its extents (R136, R141). -/
def Work.dispatchTask (w : Work) (ix die t bank : Nat) (q : List Nat) : Work :=
  let e := launchExtents w ix die t
  let w1 := e.2.updLaunch ix fun l => l.take die t
  match e.1 with
  | .fails c => w1.failLaunch ix c
  | .missing c =>
    (w1.updLaunch ix fun l => { l with
      held := l.held ++ [{ task := t, die := die, since := w.dev.now, cause := c, at_ := w.dev.now + 6000 }] }).logError c
      (w.dev.launch ix).part (feAgent die) t
  | .ok es =>
    let w2 := if reservedCore (q.headD 0) then w1.claimReserved (w.dev.launch ix).part else w1
    (w2.startTask ix t bank q es).updLaunch ix fun l => l.charge die

-- Die shares and stealing (R142, R143)

/-- Gang quires of a launch on a die. -/
def quiresOn (l : Launch) (die : Nat) : Nat := (l.gang.filter fun q => decide (coreDie (q.headD 0) = die)).length

/-- The ranges of the dies that hold part of the gang: in ascending order floor(N x Q_d / Q), the last taking the rest
(R142). -/
def dieRanges (l : Launch) (n total : Nat) : List Nat → Nat → Tab (Nat × Nat)
  | [], _ => []
  | [d], lo => [(d, (lo, n))]
  | d :: e :: t, lo =>
    let k := n * quiresOn l d / total
    (d, (lo, lo + k)) :: dieRanges l n total (e :: t) (lo + k)

/-- The flood of the current tide opens: the tasks are shared among the dies (R142, R147). -/
def Launch.openFlood (l : Launch) : Launch :=
  let dies := (List.range 4).filter fun d => decide (0 < quiresOn l d)
  { l with st := 2, phase := .flood, ranges := dieRanges l l.tasks l.gang.length dies 0, disp := [], ret := [],
           held := [], again := [], audits := [], steals := [], watch := none }

/-- V at the start of a launch on a die: the smallest of the running launches of its priority, or 0 (R136). -/
def startServ (d : Dev) (l : Launch) (die : Nat) : Nat :=
  let vs := (d.launches.filter fun p => decide (p.2.st = 2) && decide (p.2.pri = l.pri)).map fun p => p.2.serv.get die 0
  match vs with
  | [] => 0
  | v :: t => t.foldl min v

/-- The die that a thief steals from: the largest remaining range among the dies it reaches, the lowest of equals
(R143). -/
def victimOf (d : Dev) (l : Launch) (thief : Nat) : Option Nat :=
  let size (k : Nat) : Nat := let r := l.ranges.get k (0, 0); r.2 - r.1
  ((List.range 4).filter fun k => decide (k ≠ thief) && joined d thief k).foldl (fun m k => match m with
    | none => if 0 < size k then some k else none
    | some b => if size b < size k then some k else some b) none

/-- The split of R143: the victim keeps the lower half rounded up. -/
def Launch.steal (l : Launch) (thief victim : Nat) : Launch :=
  let r := l.ranges.get victim (0, 0)
  let n := r.2 - r.1
  if n < 2 then l
  else
    let mid := r.1 + (n + 1) / 2
    { l with ranges := (l.ranges.set victim (r.1, mid)).set thief (mid, r.2) }

-- Roll-up, barrier and ebb (R144, R145, R416)

/-- The roll-up is complete: every range is empty, no steal is in flight, no task is held or saved, and every task dispatched on each cluster
has retired there (R145). -/
def rolledUp (l : Launch) : Bool :=
  (l.ranges.all fun p => decide (p.2.2 ≤ p.2.1)) && l.held.isEmpty && l.again.isEmpty && l.saved.isEmpty && l.steals.isEmpty &&
    ((List.range 32).all fun k => decide (l.disp.get k 0 = l.ret.get k 0)) &&
    decide ((l.ret.map (·.2)).foldl (· + ·) 0 = l.tasks)

/-- The bank of a core in which it runs its ebb: that which last ran a task of the launch, else bank 0 (R416). -/
def ebbBank (d : Dev) (ix core : Nat) : Nat := (d.launch ix).banks.get core 0

/-- A gang core starts at the ebb entry (R144, R416); where D3 c7 passes to it from another partition's work it is zeroed
first (R100). Of the ebb entry address too the bits 55 to 5 count (DESIGN CHOICE, notes/assumptions/127.md). -/
def Work.startEbb (w : Work) (ix core : Nat) : Work :=
  let l := w.dev.launch ix
  let p := w.dev.partOf l.part
  let bank := ebbBank w.dev ix core
  let w1 := if reservedCore core then w.claimReserved l.part else w
  ((w1.enterBank ix core bank).updCtx core bank fun x =>
    let y := (x.forLaunch l ix p).taskItems l ix 0 p
    { y with lts := max y.lts l.acquired, rank := 0, quire := core, lead := core, ext := [], pc := bits l.ebb 55 5 * 32, ebb := true, alt := false,
             reloc := 0 }).updCore core fun k => { k with cur := bank }

end Sys2Proof.Machine
end

