-- ==== Sys2Proof/Machine/Save.lean ====
section
/-! DEFINITION. Pre-emption and resume: the save area of Table 9.4, its place in the partition's save pool, and what
saving and restoring a member does (R123, R124, R134, R150, R196, R232 to R234, R363). -/

namespace Sys2Proof.Machine

-- Where a save area lies (R233)

/-- Bytes of the save area of a member of a launch. -/
def areaSize (l : Launch) : Nat := 0x8000 + 0x8000 * (setBits l.acc).length + l.lssz

/-- The areas in use in a partition's save pool: base and size. -/
def areasInUse (d : Dev) (part : Nat) : List (Nat × Nat) :=
  (d.launches.filter fun p => decide (p.2.part = part)).flatMap fun p =>
    (p.2.saved.flatMap fun s => s.areas).map fun a => (a, areaSize p.2)

/-- The lowest base from `a` at which n bytes meet no area in use; fuel bounds the number of areas passed. -/
def freeArea (used : List (Nat × Nat)) (n : Nat) : Nat → Nat → Nat
  | 0, a => a
  | k + 1, a =>
    match used.find? fun u => decide (u.1 < a + n) && decide (a < u.1 + u.2) with
    | none => a
    | some u => freeArea used n k (u.1 + u.2)

/-- Bases for m save areas of n bytes in a partition's pool, lowest first, if they fit
(notes/assumptions/31.md). -/
def placeAreas (p : Part) (n : Nat) : Nat → List (Nat × Nat) → Option (List Nat)
  | 0, _ => some []
  | m + 1, used =>
    let a := freeArea used n (used.length + 1) p.savePool
    if p.savePool + p.saveSize < a + n then none
    else (placeAreas p n m ((a, n) :: used)).map fun t => a :: t

-- What is saved

/-- The local-store base as applied (R148). -/
def Ctx.baseApplied (c : Ctx) : Nat := ((c.lsb : Int) + c.reloc).toNat

/-- The header of a save area (Table 9.4). -/
def saveHeader (c : Ctx) (l : Launch) : List (Nat × Nat × Nat) :=
  [(0, 4, 0x43475341), (4, 2, 1), (6, 1, c.ppend), (8, 8, c.pc), (16, 8, l.sig), (24, 1, c.ix), (32, 8, c.task.toNat),
    (40, 2, c.tide), (48, 8, c.lts), (56, 8, c.l2div), (64, 1, c.unitMask), (68, 4, c.baseApplied), (72, 4, c.lssz)]

/-- The task-visible control words that a task may write, in the order of the control word map. -/
def savedWords (c : Ctx) : List Nat :=
  [c.tdel.toNat, c.tframe, c.frz.toNat, c.frzlim, c.qwait, c.split, c.bndlim, c.mmode, c.l2div, c.lease]

/-- The element size of a binding in bytes, or 0. -/
def Binding.bytes (b : Binding) : Nat := if b.st = .unbound then 0 else 2 ^ b.elog

/-- The fields of a save area but for the engines' commands, the accumulator units and the local store (Table 9.4). -/
def saveFields (c : Ctx) (l : Launch) : List (Nat × Nat × Nat) :=
  saveHeader c l ++
  ((List.range 64).map fun n => (0x100 + 8 * n, 8, (c.sreg n).toNat)) ++
  [(0x300, 1, c.preds)] ++
  ((List.range 7).map fun n => (0x320 + 32 * n, 32, (c.vmreg (n + 1)).toNat)) ++
  ((indexed (savedWords c)).map fun x => (0x400 + 8 * x.1, 8, x.2)) ++
  loopFields c.loop 0x500 ++
  ((List.range 8).map fun n => (0x540 + 2 * n, 2, (c.barmask.get n 0).toNat)) ++
  ((List.range 8).flatMap fun n =>
    let b := c.qb.get n {}
    [(0x550 + 16 * n, 8, if b.st = .unbound then 0 else b.handle), (0x558 + 16 * n, 8, b.bytes)]) ++
  [(0x5D0, 8, min c.requeue.length 12)] ++
  ((indexed (c.requeue.take 12)).flatMap fun x => requeueFields (0x5D8 + 24 * x.1) x.2) ++
  ((List.range 16).map fun n => (0x700 + 128 * n, 128, (c.nest.get n 0).toNat)) ++
  ((List.range 16).map fun n => (0xF00 + 32 * n, 32, (c.ext.get? n).elim 0 fun e => e.desc)) ++
  ((List.range 32).flatMap fun n =>
    let a := c.armed[n]?
    [(0x1100 + 16 * n, 8, a.elim 0 fun x => x.va), (0x1108 + 16 * n, 8, a.elim 0 fun x => x.count)]) ++
  boundFields c.loop 0x1320 ++
  ((List.range 32).map fun n => (0x4000 + 256 * n, 256, (c.vreg n).toNat))

/-- A command before another in the order of acceptance. -/
def insertCmd (x : Nat × CopyCmd) : List (Nat × CopyCmd) → List (Nat × CopyCmd)
  | [] => [x]
  | y :: t => if x.2.order < y.2.order then x :: y :: t else y :: insertCmd x t

/-- The unfinished commands of a context on both engines, with their engines, in the order of acceptance
(R232 step 2). -/
def unfinished (k : Core) (bank : Nat) : List (Nat × CopyCmd) :=
  (([0, 1].flatMap fun e => (k.engineCmds e).map fun c => (e, c)).filter fun x => decide (x.2.ctx = bank)).foldr
    insertCmd []

/-- The fields of the list of unfinished commands. -/
def commandFields (cs : List (Nat × CopyCmd)) : List (Nat × Nat × Nat) :=
  (0x1300, 8, cs.length) :: (indexed cs).flatMap fun x => unfinishedFields (0x1400 + 320 * x.1) x.2.1 x.2.2

/-- The rows and bound vectors of the units of a mask, as a save area holds them. -/
def unitFields (k : Core) (mask : Nat) : List (Nat × Nat × Nat) :=
  (indexed (setBits mask)).flatMap fun x =>
    ((List.range 64).map fun r => (0x8000 + 0x8000 * x.1 + 512 * r, 512, k.acc.get (64 * x.2 + r) 0)) ++
      (List.range 64).map fun r => (0x6000 + 256 * x.1 + 4 * r, 4, k.bnd.get (64 * x.2 + r) 0)

/-- Fields written into memory by a die's scheduler. -/
def putArea (w : Work) (die base : Nat) (fs : List (Nat × Nat × Nat)) : Work :=
  fs.foldl (fun a f => Work.agentWrite (feAgent die) (f.2.1 / 64 + 2) (base + f.1) f.2.1 f.2.2 a) w

/-- The queue operations of a context that are not waiting are performed (R123); fuel is their number. -/
def performQueued (core bank : Nat) : List QueueOp → Work → Work
  | [], w => w
  | q :: t, w => performQueued core bank t (if q.waiting.isSome then w else w.performQueueOp core bank q)

/-- Every queue operation of a member that has been performed lands (R123), but one whose landing raises a fault, which keeps
its place; fuel is the number of outstanding operations. -/
def landGood (core bank : Nat) : Nat → Work → Work
  | 0, w => w
  | n + 1, w =>
    let pick : Option (Outstanding × Arrived) := (sortOuts (w.ctx core bank).outs).findSome? fun o =>
      match o.res, o.kind with
      | some a, .queue => if a.fault.isNone then some (o, a) else none
      | some _, .load => none
      | some _, .atomic => none
      | some _, .word _ => none
      | none, _ => none
    match pick with
    | none => w
    | some x => landGood core bank n (w.landOut core bank x.1 x.2)

/-- What a member has under way is performed, and what the performed queue operations brought enters its state (R123). -/
def Work.drainMember (w : Work) (core bank : Nat) : Work :=
  let w1 := Work.performAll core bank (w.ctx core bank).accs.length (w.landFlights core bank)
  let w2 := performQueued core bank (w1.ctx core bank).qops w1
  landGood core bank (w2.ctx core bank).outs.length w2

/-- A performed queue operation of a member brought a fault, which the member takes before it can be saved (R121, R123). -/
def faultLanded (w : Work) (core bank : Nat) : Bool :=
  (w.ctx core bank).outs.any fun o => (o.res.any fun a => a.fault.isSome)

/-- One member of a quire that has drained is saved at an address and leaves its bank (R232, R233). -/
def Work.saveMember (w : Work) (core bank base : Nat) : Work :=
  let w2 := w.withdrawAll core bank
  let c := w2.ctx core bank
  let k := w2.core core
  let l := w2.dev.launch c.ix
  let die := coreDie core
  let w3 := putArea w2 die base (saveFields c l ++ commandFields (unfinished k bank) ++ unitFields k c.unitMask)
  let ls := w3.readN (Key.ls core c.baseApplied) c.lssz
  let w4 := Work.agentWrite (feAgent die) (c.lssz / 64 + 2) (base + 0x8000 + 0x8000 * (setBits c.unitMask).length)
    c.lssz ls w3
  (w4.updCore core fun x => { x with
    ce := (x.ce.set 0 (dropCmds bank (x.ce.get 0 []))).set 1 (dropCmds bank (x.ce.get 1 [])) }).setClaim core bank
      l2divReset

-- Pre-emption (R232)

/-- A member stands where a pre-emption request is honoured: parked by `ctx.park` (R329), or at a drain point with no
operation frozen but on queue operations. -/
def memberStops (w : Work) (core bank : Nat) : Bool :=
  let c := w.ctx core bank
  decide (c.ppend ≠ 0) && decide (c.lvl = 0) && !c.ebb &&
    (match c.st with
      | .parked (.line _ _ _) => true
      | .parked (.walk _ _ _) => false
      | .parked (.queue _) => atDrain w core bank
      | .parked (.woken frame) => !frame && atDrain w core bank
      | .ready => atDrain w core bank
      | .entering _ => false
      | .idle => false
      | .reported => false)

/-- The request pending on a quire is honoured now: every member has stopped at one bundle, and every accepted weight
load and calibration is complete (R232, R363). -/
def preemptNow (w : Work) (q : List Nat) (bank : Nat) : Bool :=
  let pc := (w.ctx (q.headD 0) bank).pc
  q.all fun k => memberStops w k bank && decide ((w.ctx k bank).pc = pc) && (w.core k).strm.isEmpty

/-- The members of a quire are saved at their areas. -/
def Work.saveMembers (w : Work) (bank : Nat) (q : List (Nat × Nat)) : Work :=
  q.foldl (fun a x => a.saveMember x.1 bank x.2) w

/-- A pre-emption request is honoured (R232): the quire's task is saved and its banks become idle. Where the partition's
save pool has no room, the request stays pending (notes/assumptions/31.md); so it does where a queue operation has brought a
fault, which the member takes first. -/
def preempt (core bank : Nat) (w : Work) : Work :=
  let q := quireOf w.dev core bank
  let c := w.ctx (q.headD core) bank
  let l := w.dev.launch c.ix
  if preemptNow w q bank = false then w
  else match placeAreas (w.dev.partOf c.part) (areaSize l) q.length (areasInUse w.dev c.part) with
    | none => w
    | some areas =>
      let cl := coreCluster (q.headD core)
      let w0 := q.foldl (fun a k => a.drainMember k bank) w
      if q.any fun k => faultLanded w0 k bank then w0 else
      let w1 := (w0.saveMembers bank (q.zip areas)).releaseQuire q bank
      let w2 := w1.updLaunch c.ix fun x => { x with
        saved := x.saved ++ [{ task := c.task.toNat, cluster := cl, areas := areas }]
        disp := x.disp.set cl (x.disp.get cl 0 - 1) }
      w2.settleLaunch c.ix

-- Resume (R134, R150, R234)

/-- n bytes of a save area. -/
def areaGet (w : Work) (base off n : Nat) : Nat := w.pread (base + off) n

/-- The registers, control words and loop state that a save area gives a context (Table 9.4); latches, operand ports and
marks are not saved. -/
def Ctx.restored (c : Ctx) (get : Nat → Nat → Nat) : Ctx :=
  let word (n : Nat) : Nat := get (0x400 + 8 * n) 8
  let resume := get 8 8
  { c with
    s := (List.range 64).foldl (fun t n => t.set n (BitVec.ofNat 64 (get (0x100 + 8 * n) 8))) c.s
    p := (List.range 8).foldl (fun t n => t.set n (bit (get 0x300 1) n)) c.p
    vm := (List.range 7).foldl (fun t n => t.set (n + 1) (BitVec.ofNat 256 (get (0x320 + 32 * n) 32))) c.vm
    v := (List.range 32).foldl (fun t n => t.set n (BitVec.ofNat 2048 (get (0x4000 + 256 * n) 256))) c.v
    nest := (List.range 16).foldl (fun t n => t.set n (BitVec.ofNat 1024 (get (0x700 + 128 * n) 128))) c.nest
    barmask := (List.range 8).foldl (fun t n => t.set n (BitVec.ofNat 16 (get (0x540 + 2 * n) 2))) c.barmask
    tdel := BitVec.ofNat 64 (word 0), tframe := word 1, frz := BitVec.ofNat 64 (word 2), frzlim := word 3,
    qwait := word 4, split := word 5, bndlim := word 6, mmode := word 7, lease := word 9,
    lat := [], vlat := [], port := [], vport := [], mark := [], mrowHv := false
    loop := listLoop get 0x500 0x1320 resume
    requeue := listRequeue get 0x5D0 0x5D8
    pc := resume }

/-- Accumulator units and bound vectors from a save area into the units of a mask. -/
def Core.restoreUnits (k : Core) (get : Nat → Nat → Nat) (mask : Nat) : Core :=
  (indexed (setBits mask)).foldl (fun a x => (List.range 64).foldl (fun b r => { b with
    acc := b.acc.set (64 * x.2 + r) (get (0x8000 + 0x8000 * x.1 + 512 * r) 512)
    bnd := b.bnd.set (64 * x.2 + r) (get (0x6000 + 256 * x.1 + 4 * r) 4) }) a) k

/-- A binding is asked for again (R124). -/
def Work.rebind (w : Work) (core bank : Nat) (n handle bytes pc : Nat) : Work :=
  if handle = 0 then w
  else
    let c := w.ctx core bank
    match translate w { part := c.part, sec := c.sec, die := coreDie core } [.read] handle with
    | .error e => (w.awaits e).updCtx core bank fun x => { x with
        qb := x.qb.set n { st := .failed (e.cause 8) pc, handle := handle } }
    | .ok t =>
      let b : Binding := { st := .pending, handle := handle, cb := t.pa, home := (w.block t.pa).home,
                           elog := Nat.log2 bytes }
      w.updCtx core bank fun x => { x with
        seq := x.seq + 1
        qb := x.qb.set n b
        qops := x.qops ++ [{ id := x.seq, form := 0x40, bnd := n, handle := handle, cb := t.pa, home := b.home,
                             elog := b.elog, pc := pc, slot := 1, ld := 0, arg := BitVec.ofNat 64 handle, elem := 0,
                             land := none, seq := x.seq }] }

/-- A barrier word is re-armed to its saved pending count (R234). -/
def Work.rearm (w : Work) (core bank va count : Nat) : Work :=
  if va = 0 ∨ count = 0 then w
  else
    let c := w.ctx core bank
    match translate w { part := c.part, sec := c.sec, die := coreDie core } [.write] va with
    | .error e => (w.awaits e).logError (e.cause 9) c.part (2 * core + bank) va
    | .ok x =>
      let r := w.cohWrite c.lts x.pa 8 count
      r.2.updCtx core bank fun y => { y.raiseLts r.1 with
        armed := y.armed ++ [{ va := va, pa := x.pa, count := count }] }

/-- An unfinished command is issued again, whole (R234). -/
def Work.reissue (w : Work) (core bank : Nat) (get : Nat → Nat → Nat) (off : Nat) : Work :=
  let c := w.ctx core bank
  let word0 := BitVec.ofNat 32 (get (off + 8) 4)
  let form := (word0.extractLsb' 25 7).toNat
  let a := BitVec.ofNat 64 (get (off + 24) 8)
  let b := BitVec.ofNat 64 (get (off + 16) 8)
  let word : Nat × Work := if form = 13 ∨ a = 0 then (0, w)
    else match translate w { part := c.part, sec := c.sec, die := coreDie core } [.write] a.toNat with
      | .ok x => (x.pa, w)
      | .error e => (2 ^ 52, w.awaits e)
  word.2.acceptCopy core bank (get (off + 12) 1 % 2) form (get off 8) word0 a b word.1 (BitVec.ofNat 1024 (get (off + 32) 128))
    (BitVec.ofNat 1024 (get (off + 160) 128)) (if form = 6 then c.nest.get (b.toNat % 16) 0 else 0)

/-- One member of a resumed task takes back what was saved of it (R234); the task has been placed on it (R150). Both banks are
empty and bank A is active (R363); what else the core knows of a bank, its owner and its calibration, stays (R251). -/
def Work.resumeMember (w : Work) (core bank base : Nat) : Work :=
  let get := areaGet w base
  let lts := max (get 48 8) (max (w.ctx core 0).lts (w.ctx core 1).lts)
  let w1 := (w.setClaim core bank (get 56 8)).updCtx core bank fun c => { c.restored get with lts := max c.lts lts }
  let c := w1.ctx core bank
  let n := (setBits c.unitMask).length
  let w2 := w1.updCore core fun k => { k.restoreUnits get c.unitMask with
    active := 0
    wb := (List.range 2).foldl (fun t b => t.set b { t.get b {} with st := .empty }) k.wb }
  let w3 := w2.writeN (Key.ls core c.baseApplied) c.lssz (get (0x8000 + 0x8000 * n) c.lssz)
  let w4 := (List.range 8).foldl (fun a i =>
    a.rebind core bank i (get (0x550 + 16 * i) 8) (get (0x558 + 16 * i) 8) c.pc) w3
  let w5 := (List.range 32).foldl (fun a i =>
    a.rearm core bank (get (0x1100 + 16 * i) 8) (get (0x1108 + 16 * i) 8)) w4
  (List.range (min (get 0x1300 8) 32)).foldl (fun a i => a.reissue core bank get (0x1400 + 320 * i)) w5

/-- A saved task resumes in a bank of a quire (R134, R150, R234). -/
def Work.resumeTask (w : Work) (ix die bank : Nat) (q : List Nat) (s : Saved) : Work :=
  let l := w.dev.launch ix
  if placementSig w.dev (usable w.dev l) ≠ l.sig then w.failLaunch ix 55
  else
    let e := launchExtents w ix die s.task
    match e.1 with
    | .fails c => e.2.failLaunch ix c
    | .missing c =>
      (e.2.updLaunch ix fun x => { x with
        held := x.held ++ [{ task := s.task, die := die, since := w.dev.now, cause := c, at_ := w.dev.now + 6000 }] }).logError
        c l.part (feAgent die) s.task
    | .ok es =>
      let w1 := if reservedCore (q.headD 0) then e.2.claimReserved l.part else e.2
      let w2 := w1.startTask ix s.task bank q es
      let w3 := (q.zip s.areas).foldl (fun a x => a.resumeMember x.1 bank x.2) w2
      w3.updLaunch ix fun x => { x.charge die with saved := x.saved.filter fun y => decide (y.task ≠ s.task) }

/-- The lowest saved task that may resume. -/
def lowestSaved (l : Launch) : Option Saved :=
  l.resumable.foldl (fun m s => match m with
    | none => some s
    | some y => if s.task < y.task then some s else some y) none

/-- The task of a launch that a die's scheduler places next: a saved one, or the lowest of its range (R136 step 3). -/
def Work.placeNext (w : Work) (ix die : Nat) : Work :=
  let l := w.dev.launch ix
  match pickQuire w.dev ix die with
  | none => w
  | some (q, bank) =>
    match lowestSaved l with
    | some s => w.resumeTask ix die bank q s
    | none => match nextTask l die with
      | none => w
      | some t => w.dispatchTask ix die t bank q

end Sys2Proof.Machine
end

