-- ==== Sys2Proof/Machine/SchedEvents.lean ====
section
/-! DEFINITION. The scheduler's events: admission, dispatch, stealing, barriers, ebbs, audits, dependence, extents and
the quarantine class (R99, R100, R128 to R147, R150, R416). -/

namespace Sys2Proof.Machine

-- Admission (R128, R129, R133)

/-- The extent and tide count of a launch: those of its header, or of the size record that was read when the packet
started, or how that record ends it (R91). A record with extent 0 ends the launch as done whatever its other fields hold: the
spec does not say which outcome goes first (DESIGN CHOICE, notes/assumptions/121.md). -/
def launchSizes (l : Launch) : Except Nat (Nat × Nat) :=
  match l.sizeErr, l.sizes with
  | some c, _ => .error c
  | none, none => .ok (l.hb 24 8, l.hb 14 2)
  | none, some r =>
    if packedBytes r 0 8 = 0 then .error 0
    else if packedBytes r 8 2 = 0 ∨ packedBytes r 10 6 ≠ 0 ∨ l.extentFits (packedBytes r 0 8) = false then .error 0x102
    else .ok (packedBytes r 0 8, packedBytes r 8 2)

/-- How admission ends a launch, or the line that one of its reads waits for. -/
inductive AdmitEnd where
  | ends (code : Nat)
  | waits (line : Nat)
  deriving DecidableEq, Repr

/-- What a failed read of admission does. -/
def XErr.admitEnd (e : XErr) : AdmitEnd :=
  match e with
  | .busy l => .waits l
  | .absent _ => .ends 8
  | .malformed => .ends 8
  | .refused c => .ends c

/-- The variant of a launch: its signature and entries (R133). -/
def launchVariant (w : Work) (l : Launch) : Except AdmitEnd ((Nat × Nat × Nat) × Work) :=
  let cls := usable w.dev l
  let sig := placementSig w.dev cls
  if cls.any fun k => decide ((sitesOf w.dev k).length < 2 ^ l.qlog) then .error (.ends 0x100)
  else match w.devRecords l.part l.die 32 l.vtab l.vcount with
    | .error e => .error e.admitEnd
    | .ok r =>
      match pickVariant r.1 sig l.vcount 0 with
      | none => .error (.ends 0x100)
      | some v => .ok ((sig, v.1, v.2), r.2)

/-- A launch with its header, sizes and variant, as it waits for the dependence test of tide 0, or how admission ends it
(R129): a bad header before what its size record gives (R91). -/
def admitted (w : Work) (l0 : Launch) : Except AdmitEnd (Launch × Work) :=
  match w.devRecords l0.part l0.die 64 l0.hdrVa 4 with
  | .error e => .error e.admitEnd
  | .ok hdr =>
    let l := { l0 with hdr := hdr.1 }
    match headerBusy hdr.2 l with
    | some x => .error (.waits x)
    | none =>
    if headerOk hdr.2 l (l.sizes.isSome || l.sizeErr.isSome) = false then .error (.ends 0x101)
    else match launchSizes l with
      | .error code => .error (.ends code)
      | .ok s =>
        if s.1 = 0 then .error (.ends 0)
        else match launchVariant hdr.2 l with
          | .error e => .error e
          | .ok v => .ok ({ l with
              extent := s.1, tides := s.2, sig := v.1.1, flood := v.1.2.1, ebb := v.1.2.2
              clusters := usable w.dev l, gang := gangOf w.dev l, admitted := true
              opens := (w.dev.host.policies.get l.part {}).open_ }, v.2)

/-- The policy core of the launch's die admits it or ends it (R83, R129, R146). -/
def admitLaunch (ix : Nat) (w : Work) : Work :=
  let l := w.dev.launch ix
  if l.st ≠ 1 ∨ l.ended ∨ l.admitted ∨ w.dev.policy.get l.die 0 ≠ 0 ∨ w.dev.mode ≠ .running ∨
      w.dev.partRuns l.part = false then w
  else match admitted w l with
    | .error (.ends code) => w.endLaunch ix code
    | .error (.waits x) => w.waitFor true x
    | .ok x => x.2.updLaunch ix fun _ => x.1

-- Dependence (R147)

/-- The flood of the current tide opens; at tide 0 the launch starts to run, with its service values (R136, R142). -/
def Work.openTide (w : Work) (ix : Nat) : Work :=
  let d := w.dev
  w.updLaunch ix fun l => if l.st = 1 then { l.openFlood with
    serv := (List.range 4).map fun k => (k, startServ d l k) } else l.openFlood

/-- The dependence test of a tide is true (R147). -/
def dependenceTrue (l : Launch) (x : Nat) : Bool := decide ((l.dinbase + l.tide * l.dinstep) % 2 ^ 64 ≤ x)

/-- When a launch waits for its dependence test: since when its word is missing (R135, R147). -/
def Launch.dependsSince (l : Launch) : Option (Option Nat) :=
  match l.phase with
  | .dependence t => if l.ended = false ∧ ((l.st = 1 ∧ l.admitted) ∨ l.st = 2) then some t else none
  | .flood => none
  | .barrier _ => none
  | .ebb => none

/-- The dependence word of a launch lies in a line, writes to which make the next test due (R147). -/
def Work.watchWord (w : Work) (ix : Nat) (l : Launch) : Work :=
  match translate w (deviceAsker w.dev l.part l.die) [.read] l.din with
  | .ok x => w.updLaunch ix fun y => { y with watch := some (x.pa / 64) }
  | .error e => w.awaits e

/-- A core is at a drain point between tides (R97): no context of it runs work, no launch of whose gang it is has a tide open,
and its matrix engine is at rest. -/
def betweenTides (d : Dev) (core : Nat) : Bool :=
  !(d.ctx core 0).busy && !(d.ctx core 1).busy && (d.core core).passes.isEmpty && (d.core core).strm.isEmpty &&
    d.launches.all fun p => decide (p.2.st ≠ 2) || !(p.2.gang.any fun q => q.contains core) || (match p.2.phase with
      | .dependence _ => true
      | .flood => false
      | .barrier _ => false
      | .ebb => false)

/-- A core still runs an `mcal` of a CALIBRATE packet. -/
def calRuns (d : Dev) (core : Nat) : Bool := (d.core core).strm.any fun x => decide (x.form = 2) && decide (x.ctx = 2)

/-- The next tide of a launch waits for the CALIBRATE that a core of its gang takes between tides (R97). -/
def calWaits (d : Dev) (l : Launch) : Bool :=
  l.gang.any fun q => q.any fun k => calRuns d k ||
    (betweenTides d k && d.fe.calibs.any fun c => c.cores.contains k)

/-- The dependence test is evaluated (R147): it is due again at a write of the word's line and after 1 us, and a word that
does not translate is tried again every 10 us for up to 100 ms. A launch of a partition that is not Running waits (R65). -/
def testDependence (ix : Nat) (w : Work) : Work :=
  let l := w.dev.launch ix
  match l.dependsSince with
  | none => w
  | some missing =>
    if (l.quarantine ∧ l.began = false) ∨ w.dev.partRuns l.part = false ∨ calWaits w.dev l then w
    else if l.din = 0 then w.openTide ix
    else match w.devRead l.part l.die l.din 8 with
      | .ok x =>
        if dependenceTrue l x.1 then x.2.openTide ix
        else (x.2.updLaunch ix fun y => { y with phase := .dependence none, recheck := w.dev.now + 600 }).watchWord ix l
      | .error (.busy x) => w.waitFor true x
      | .error (.refused c) => w.failLaunch ix c
      | .error _ =>
        match missing with
        | none => (w.updLaunch ix fun y => { y with
            phase := .dependence (some w.dev.now), recheck := w.dev.now + 6000 }).logError 8 l.part (feAgent l.die) l.din
        | some t =>
          if t + 60000000 ≤ w.dev.now then w.failLaunch ix 8
          else w.updLaunch ix fun y => { y with recheck := w.dev.now + 6000 }

-- Dispatch, resume and stealing

/-- A die's scheduler makes one dispatch (R136). -/
def dispatch (die : Nat) (w : Work) : Work :=
  match pickLaunch w.dev die with
  | none => w
  | some ix => if mayDispatch w.dev die then (w.placeNext ix die).dispatched die else w

/-- A pre-empted task of a launch resumes on a die (R136, R150, R234). -/
def resumeOn (die ix : Nat) (w : Work) : Work :=
  let l := w.dev.launch ix
  if l.floods = false ∨ l.st ≠ 2 ∨ w.dev.partRuns l.part = false ∨ mayDispatch w.dev die = false then w
  else match pickQuire w.dev ix die, lowestSaved l with
    | some (q, bank), some s => (w.resumeTask ix die bank q s).dispatched die
    | none, _ => w
    | some _, none => w

/-- A die steals from the largest remaining range (R143): its request sets out, or one that is on its way arrives and splits
the victim's range. -/
def stealFor (ix die : Nat) (w : Work) : Work :=
  let l := w.dev.launch ix
  let r := l.ranges.get die (0, 0)
  match l.steals.find? fun s => s.thief = die with
  | some s => w.updLaunch ix fun x => { x.steal die s.victim with steals := x.steals.filter fun y => decide (y ≠ s) }
  | none =>
    if l.floods = false ∨ r.1 < r.2 ∨ (pickQuire w.dev ix die).isNone then w
    else match victimOf w.dev l die with
      | none => w
      | some v => w.updLaunch ix fun x => { x with steals := x.steals ++ [{ thief := die, victim := v }] }

-- Barriers and ebbs (R100, R144, R145, R416)

/-- The roll-up of a launch's tide becomes complete (R145). -/
def rollUp (ix : Nat) (w : Work) : Work :=
  let l := w.dev.launch ix
  if l.floods ∧ rolledUp l then w.updLaunch ix fun x => { x with phase := .barrier w.dev.now } else w

/-- Two launches share a core. -/
def sharesCores (a b : Launch) : Bool := a.gang.any fun q => q.any fun k => b.gang.any fun r => r.contains k

/-- A launch's gang holds cores of D3 c7 (R100). -/
def Launch.onReserved (l : Launch) : Bool := l.gang.any fun q => q.any reservedCore

/-- A quarantine-class launch runs on D3 c7: it has begun and has not ended, be it that its last tasks run on after a failure
(R100). -/
def quarantineRuns (d : Dev) : Bool := d.launches.any fun p => p.2.quarantine && p.2.began && !p.2.ended

/-- Another launch whose gang shares cores goes before this one: its ebb runs, or its roll-up was complete earlier
(R144). -/
def goesBefore (ix at_ : Nat) (l : Launch) (p : Nat × Launch) : Bool :=
  decide (p.1 ≠ ix) && sharesCores l p.2 && (p.2.inEbb || (decide (p.2.st = 2) &&
    (match p.2.phase with
      | .barrier t => decide (t < at_) || (decide (t = at_) && decide (p.1 < ix))
      | .ebb => false
      | .dependence _ => false
      | .flood => false)))

/-- An island of the gang is changing its operating point, and its cores could not start with the others (R144, R151). -/
def gangChanging (d : Dev) (l : Launch) : Bool :=
  l.gang.any fun q => q.any fun k => ((d.islands.get (coreCluster k) {}).until_).isSome

/-- The barrier of a launch may be released (R100, R144, R145, R151). -/
def mayRelease (d : Dev) (ix : Nat) : Bool :=
  let l := d.launch ix
  match l.phase with
  | .barrier t =>
    decide (l.st = 2) && !l.ended && l.audits.isEmpty && !gangChanging d l && (d.launches.all fun p => !goesBefore ix t l p) &&
      (l.gang.all fun q => q.all fun k => !(d.ctx k 0).busy && !(d.ctx k 1).busy) &&
      (l.quarantine || !l.onReserved || !quarantineRuns d)
  | .dependence _ => false
  | .flood => false
  | .ebb => false

/-- A policy that clears OPEN bit 3 releases the holds of a launch's contexts when it takes effect (R75). -/
def Work.dropHolds (w : Work) (ix opens : Nat) : Work :=
  if bit opens 3 then w
  else w.mapDev fun d => { d with ctxs := d.ctxs.map fun p =>
    (p.1, if p.2.ix = ix then { p.2 with halt := 0 } else p.2) }

/-- The tide barrier is released: every gang core starts at the ebb entry (R144, R416), and the debug policy in force
becomes the launch's (R73). -/
def releaseBarrier (ix : Nat) (w : Work) : Work :=
  if mayRelease w.dev ix = false then w
  else
    let l := w.dev.launch ix
    let opens := (w.dev.host.policies.get l.part {}).open_
    let w1 := (w.updLaunch ix fun x => { x with phase := .ebb, opens := opens }).dropHolds ix opens
    l.gang.flatten.foldl (fun a k => a.startEbb ix k) w1

/-- A core has reported the end of its ebb. -/
def hasReported (d : Dev) (ix core : Nat) : Bool :=
  (List.range 2).any fun b => decide ((d.ctx core b).st = .reported) && decide ((d.ctx core b).ix = ix)

/-- The contexts that have reported are idle again. -/
def Work.clearReports (w : Work) (ix : Nat) : Work :=
  w.mapDev fun d => { d with ctxs := d.ctxs.map fun p =>
    (p.1, if p.2.ix = ix ∧ p.2.st = .reported then { p.2 with st := .idle, ebb := false } else p.2) }

/-- The next tide's test, or the launch's end (R144, R146). -/
def Work.nextTide (w : Work) (ix : Nat) : Work :=
  let l := w.dev.launch ix
  let w1 := w.clearReports ix
  if l.tide + 1 < l.tides then
    testDependence ix (w1.updLaunch ix fun x => { x with
      tide := x.tide + 1, phase := .dependence none, doutSince := none, recheck := 0 })
  else w1.endLaunch ix 0

/-- The DOUT addition of a tide, then its end; a word that does not translate is tried again every 10 us for up to 100 ms
(R147). -/
def Work.closeEbb (w : Work) (ix : Nat) : Work :=
  let l := w.dev.launch ix
  if l.dout = 0 then w.nextTide ix
  else if 2 ^ 56 ≤ l.dout then (w.clearReports ix).failLaunch ix 9
  else match translate w (deviceAsker w.dev l.part l.die) [.write, .atomic] l.dout with
    | .ok x =>
      if reachFault w.dev l.die x.pa ≠ 0 then (w.clearReports ix).failLaunch ix (reachFault w.dev l.die x.pa)
      else if regionOf x.pa = .peer then w.nextTide ix
      else (w.cohWrite (releaseTime w.dev) x.pa 8 ((w.pread x.pa 8 + 1) % 2 ^ 64)).2.nextTide ix
    | .error (.busy x) => w.waitFor true x
    | .error (.refused c) => (w.clearReports ix).failLaunch ix c
    | .error _ =>
      match l.doutSince with
      | none => (w.updLaunch ix fun y => { y with
          doutSince := some w.dev.now, recheck := w.dev.now + 6000 }).logError 9 l.part (feAgent l.die) l.dout
      | some t =>
        if t + 60000000 ≤ w.dev.now then (w.clearReports ix).failLaunch ix 9
        else w.updLaunch ix fun y => { y with recheck := w.dev.now + 6000 }

/-- The last gang core of a launch has reported its tide (R144). -/
def endEbb (ix : Nat) (w : Work) : Work :=
  let l := w.dev.launch ix
  if l.st = 2 ∧ l.phase = .ebb ∧ l.gang.flatten.all (hasReported w.dev ix) then w.closeEbb ix else w

-- Audits (R145, R262)

/-- An auditor log entry (Table 3.10), with the core that replayed and what the comparison leaves free. -/
def auditEntry (l : Launch) (ix : Nat) (a : Audit) (ok : Bool) (other x : Nat) : Nat :=
  ix + 2 ^ 8 * a.kind + 2 ^ 16 * (if ok then 0 else 1) + 2 ^ 32 * l.tide + 2 ^ 64 * (a.subject % 2 ^ 64) +
    2 ^ 128 * a.core + 2 ^ 144 * other +
    (if a.kind = 2 then 2 ^ 256 * (x % 2 ^ 64)
     else 2 ^ 160 * (x % 2 ^ 32) + 2 ^ 192 * (if ok then x % 2 ^ 32 else x / 2 ^ 32 % 2 ^ 32))

/-- The auditor replays the oldest piece of work chosen in a tide on another gang core in digital mode (R145). The comparison of a task's
elements is that of R262, made as the task ended (`memberOk`). Whether a core has erred besides, in a task or in what a signature
covers, is `ok`, which the event carries (notes/assumptions/98.md). Where the gang has no other core, the piece is not replayed. -/
def replayAudit (ix : Nat) (ok : Bool) (w : Work) : Work :=
  let l := w.dev.launch ix
  match l.audits with
  | [] => w
  | a :: rest =>
    let others := l.gang.flatten.filter fun k => decide (k ≠ a.core)
    if l.st ≠ 2 then w
    else if others.isEmpty then w.updLaunch ix fun x => { x with audits := rest }
    else
      let f := w.free
      let g := f.2.free
      let other := others.getD (f.1 % others.length) a.core
      let good := a.ok && ok
      let e := auditEntry l ix a good other g.1
      let w1 := g.2.mapDev fun d => { d with host := { d.host with
        alog := d.host.alog.set l.part ((e :: d.host.alog.get l.part []).take 64) } }
      let w2 := w1.updLaunch ix fun x => { x with audits := rest }
      if good then w2 else (w2.logError 46 l.part other a.subject).failLaunch ix 0x105

-- Extents that do not yet translate (R141, R147)

/-- A held task is tried again; `last` says that its 100 ms have passed (R141). -/
def Work.retryHeld (w : Work) (ix : Nat) (h : Held) (last : Bool) : Work :=
  let l := w.dev.launch ix
  let others := l.held.filter fun x => decide (x.task ≠ h.task)
  let e := launchExtents w ix h.die h.task
  match e.1 with
  | .fails c => e.2.failLaunch ix c
  | .missing c =>
    if last then e.2.failLaunch ix c
    else e.2.updLaunch ix fun x => { x with held := others ++ [{ h with cause := c, at_ := w.dev.now + 6000 }] }
  | .ok _ => e.2.updLaunch ix fun x => { x with
      held := others
      again := if x.saved.any fun s => decide (s.task = h.task) then x.again else x.again ++ [(h.task, h.die)] }

/-- What a launch waits for to translate: its dependence words (R147), else the named task's extents (R141). -/
def retryTranslation (ix task : Nat) (w : Work) : Work :=
  let l := w.dev.launch ix
  if l.doutSince.isSome then w.closeEbb ix
  else match l.dependsSince with
    | some (some _) => testDependence ix w
    | some none => w
    | none => match l.held.find? fun h => decide (h.task = task) with
      | none => w
      | some h => w.retryHeld ix h false

/-- 100 ms have passed since a translation was first missed (R141, R147). -/
def timeoutTranslation (ix task : Nat) (w : Work) : Work :=
  let l := w.dev.launch ix
  if l.doutSince.isSome then w.closeEbb ix
  else match l.dependsSince with
    | some (some _) => testDependence ix w
    | some none => w
    | none => match l.held.find? fun h => decide (h.task = task) with
      | none => w
      | some h => if h.since + 60000000 ≤ w.dev.now then w.retryHeld ix h true else w

-- The quarantine class (R99, R100)

/-- The quarantine-class launch that starts next: the first in the order of starting that has not begun, once it is
admitted (R99). -/
def nextQuarantined (d : Dev) : Option Nat :=
  let first := d.launches.foldl (fun m p =>
    if p.2.quarantine && !p.2.began && !p.2.ended && decide (p.2.st = 1) then
      (match m with
        | none => some (p.1, p.2.order)
        | some y => if p.2.order < y.2 then some (p.1, p.2.order) else some y)
    else m) (none : Option (Nat × Nat))
  match first with
  | none => none
  | some x => if (d.launch x.1).admitted then some x.1 else none

/-- D3 c7 is free for a quarantine-class launch (R100). -/
def reservedFree (d : Dev) : Bool :=
  (d.launches.all fun p => !(p.2.quarantine && p.2.began && !p.2.ended)) &&
    (d.ctxs.all fun p => !p.2.busy || !reservedCore (p.1 / 2)) &&
    d.launches.all fun p => p.2.quarantine || !p.2.onReserved || (!p.2.inEbb && (decide (p.2.st ≠ 2) ||
      (match p.2.phase with
        | .barrier _ => false
        | .ebb => false
        | .dependence _ => true
        | .flood => true)))

/-- The next quarantine-class launch starts on D3 c7 (R100). -/
def startQuarantined (w : Work) : Work :=
  match nextQuarantined w.dev with
  | none => w
  | some ix =>
    if reservedFree w.dev = false then w
    else
      let l := w.dev.launch ix
      testDependence ix ((w.claimReserved l.part).updLaunch ix fun x => { x with began := true, since := w.dev.now })

/-- The running work of a launch is ended where it stands. -/
def Work.cancelRunning (w : Work) (ix : Nat) : Work :=
  (running w.dev ix).foldl (fun a p => a.releaseQuire [p.1] p.2) w

/-- A quarantine-class launch passes 1 s (R99): its running work is cancelled and it ends with LAUNCH_TIME_LIMIT, or, where it
had failed before, with that failure (R146). -/
def endQuarantined (ix : Nat) (w : Work) : Work :=
  let l := w.dev.launch ix
  if l.quarantine ∧ l.began ∧ l.ended = false ∧ (l.st = 1 ∨ l.st = 2 ∨ l.st = 4) ∧ l.since + 600000000 ≤ w.dev.now then
    let w1 := (w.cancelRunning ix).clearReports ix
    w1.failLaunch ix 0x104
  else w

/-- The policy core admits a launch (R129, R133, R146). -/
def execLaunchAdmission (ix : Nat) (σ : State) : Host.Outcome State Fault Refusal :=
  .next (admitLaunch ix (Work.begin σ)).commit

/-- The dependence test of a tide is evaluated (R147). -/
def execDependenceTest (ix : Nat) (σ : State) : Host.Outcome State Fault Refusal :=
  .next (testDependence ix (Work.begin σ)).commit

/-- A die's scheduler makes one dispatch (R136 to R141, R150). -/
def execDispatch (die : Nat) (σ : State) : Host.Outcome State Fault Refusal :=
  .next (dispatch die (Work.begin σ)).commit

/-- A pre-empted task of a launch resumes on a die (R150, R234). -/
def execTaskResume (die : Nat) (ix : Nat) (σ : State) : Host.Outcome State Fault Refusal :=
  .next (resumeOn die ix (Work.begin σ)).commit

/-- A die with an empty range steals the upper half of another's (R143). -/
def execStealRequest (ix : Nat) (die : Nat) (σ : State) : Host.Outcome State Fault Refusal :=
  .next (stealFor ix die (Work.begin σ)).commit

/-- The gang is released into the ebb (R73, R144, R416). -/
def execTideBarrierRelease (ix : Nat) (σ : State) : Host.Outcome State Fault Refusal :=
  .next (releaseBarrier ix (Work.begin σ)).commit

/-- The last gang core has reported its tide (R144, R146, R147). -/
def execEbbEnd (ix : Nat) (σ : State) : Host.Outcome State Fault Refusal :=
  .next (endEbb ix (Work.begin σ)).commit

/-- The auditor replays one piece of a tide's work (R145). -/
def execAuditReplay (ix : Nat) (ok : Bool) (σ : State) : Host.Outcome State Fault Refusal :=
  .next (replayAudit ix ok (Work.begin σ)).commit

/-- A missing translation is tried again (R141, R147). -/
def execExtentTranslationRetry (ix : Nat) (task : Nat) (σ : State) : Host.Outcome State Fault Refusal :=
  .next (retryTranslation ix task (Work.begin σ)).commit

/-- A translation is still missing after 100 ms (R141, R147). -/
def execExtentTranslationTimeout (ix : Nat) (task : Nat) (σ : State) : Host.Outcome State Fault Refusal :=
  .next (timeoutTranslation ix task (Work.begin σ)).commit

/-- A quarantine-class launch starts on D3 c7 (R100). -/
def execQuarantineLaunchStart (σ : State) : Host.Outcome State Fault Refusal :=
  .next (startQuarantined (Work.begin σ)).commit

/-- A quarantine-class launch passes 1 s (R99). -/
def execQuarantineTimeLimit (ix : Nat) (σ : State) : Host.Outcome State Fault Refusal :=
  .next (endQuarantined ix (Work.begin σ)).commit

end Sys2Proof.Machine
end

