-- ==== Sys2Proof/Machine/CoreEvents.lean ====
section
/-! DEFINITION. Events of the cores: limits, barriers, landings, passes, loads, copies, the end of trap entry, parking and
pre-emption (R75, R119, R215 to R219, R223 to R227, R232, R251 to R253, R259, R357, R374). -/

namespace Sys2Proof.Machine

-- Limits (R119, R216, R219, R223)

/-- A freeze ends, or the next begins at 0. -/
def Work.thaw (w : Work) (core bank : Nat) : Work := w.updCtx core bank fun c => { c with freeze := none }

/-- A trap whose bundle was waiting to issue: the bundle at the PC has not committed. -/
def Work.raiseHere (w : Work) (core bank cause : Nat) : Work :=
  let f := w.free
  let pc := (w.ctx core bank).pc
  (f.2.thaw core bank).raise core bank
    { cause := cause, tval := f.1, epc := pc, resume := pc, extra := 0, begun := (w.core core).raw }

/-- A freeze that counts toward cw.frzlim has reached it (R216). -/
def frozenOut (c : Ctx) : Bool :=
  match c.freeze with
  | some (.limited, n) => decide (c.frzlim ≤ n)
  | some (.sequencer, n) => decide (c.frzlim ≤ n)
  | some (.walk _, n) => decide (c.frzlim ≤ n)
  -- the core takes the answer even so, and cause 50 follows it (R384)
  | some (.ask, _) => false
  | some (.queueWait _, _) => false
  | some (.barrier, _) => false
  | none => false

/-- Cause 50 (R216). -/
def limitFreeze (core bank : Nat) (w : Work) : Work :=
  if frozenOut (w.ctx core bank) then w.raiseHere core bank 50 else w

/-- The operations of a queue-wait freeze that has reached cw.qwait (R117, R119). -/
def waitedOut (c : Ctx) : Option (List Nat) :=
  match c.freeze with
  | some (.queueWait ops, n) => if c.qwait ≤ n then some ops else none
  | some (.limited, _) => none
  | some (.sequencer, _) => none
  | some (.walk _, _) => none
  | some (.ask, _) => none
  | some (.barrier, _) => none
  | none => none

/-- The cause recorded at a queue-wait park: that of the oldest waiting operation (R119). -/
def waitCause (c : Ctx) (ops : List Nat) : Nat :=
  match c.qops.find? fun q => ops.contains q.id && q.waiting.isSome with
  | some q => if q.isEnqueue then 16 else 17
  | none => 17

/-- A member parks on queue operations, or, in the other members of the quire, with nothing of its own to wait for. -/
def Work.parkMember (w : Work) (core bank : Nat) (ops : List Nat) (cause : Nat) : Work :=
  (w.settleContext core bank).updCtx core bank fun c =>
    let left := ops.filter fun x => c.qops.any fun q => decide (q.id = x)
    { c with cause := cause + 64 + 1024, since := w.dev.now
             st := if left.isEmpty then .parked (.woken false) else .parked (.queue left) }

/-- The quire of a context parks on queue operations (R119, R139, R224). -/
def parkOnQueue (core bank : Nat) (w : Work) : Work :=
  let c := w.ctx core bank
  match waitedOut c with
  | none => w
  | some ops =>
    let cause := waitCause c ops
    let q := quireOf w.dev core bank
    let w1 := q.foldl (fun a k => a.parkMember k bank (if k = core then ops else []) cause) w
    w1.handOver q bank

/-- A pre-emption request has stayed pending for 65,536 bundles (R223). -/
def limitDistance (core bank : Nat) (w : Work) : Work :=
  let c := w.ctx core bank
  if c.busy ∧ c.ppend ≠ 0 ∧ 65536 ≤ c.dist then w.endTask core bank 51 else w

-- Barriers (R217, R219)

/-- A context of a launch that a core runs now, if it has one. -/
def runsNow (w : Work) (ix core : Nat) : Option Nat :=
  let b := (w.core core).cur
  let c := w.ctx core b
  if c.ix = ix ∧ c.st = .ready then some b else none

/-- A core is held at a bundle that names register n with a mask value: its running context of the launch has come to that
bundle with that value in its own register, and the barrier has not been released (R217). -/
def heldAt (w : Work) (ix n mask core : Nat) : Bool :=
  match runsNow w ix core with
  | none => false
  | some b =>
    let c := w.ctx core b
    c.syncGo.isNone && (match c.sync with
      | some (m, v, _) => decide (m = n) && decide (v = mask)
      | none => false)

/-- The cores of a barrier mask of a core's cluster. -/
def maskCores (core mask : Nat) : List Nat :=
  ((List.range 16).filter fun k => bit mask k).map fun k => 16 * coreCluster core + k

/-- A SYNC barrier that every core of its mask has reached is released (R217). -/
def releaseSync (core bank : Nat) (w : Work) : Work :=
  let c := w.ctx core bank
  match c.sync with
  | none => w
  | some (n, mask, _) =>
    let ks := maskCores core mask
    if ks.all (heldAt w c.ix n mask) then
      ks.foldl (fun a k => match runsNow w c.ix k with
        | none => a
        | some b => a.updCtx k b fun x => if x.sync.isSome then { x with syncGo := some w.dev.now } else x) w
    else w

/-- A SYNC hold has lasted longer than the launch's barrier time limit (R219). -/
def limitBarrier (core bank : Nat) (w : Work) : Work :=
  let c := w.ctx core bank
  match c.sync with
  | none => w
  | some (_, _, t) =>
    if c.syncGo.isNone ∧ t + 600 * (w.dev.launch c.ix).barlim < w.dev.now then w.raiseHere core bank 49 else w

-- Landings and passes (R215, R226, R253, R259)

/-- The oldest access of a context may be performed and lands. -/
def landAccess (core bank : Nat) (w : Work) : Work :=
  let lands : Bool := match (w.ctx core bank).accs with
    | [] => false
    | a :: _ => match a.kind with
      | .load _ _ _ => true
      | .atomic _ _ _ _ _ _ => true
      | .store _ _ => false
      | .prefetch _ => false
      | .range _ _ => false
      | .publish _ _ _ => false
  if lands ∧ w.accessReady core bank then w.performAccess core bank else w

/-- The trigger held at issue proceeds once the streaming pass has ended its streaming (R253). -/
def releaseTrigger (core : Nat) (w : Work) : Work :=
  let b := (w.core core).cur
  match (w.ctx core b).freeze with
  | some (.sequencer, _) => if (w.core core).streaming < 2 then w.thaw core b else w
  | some (.limited, _) => w
  | some (.walk _, _) => w
  | some (.ask, _) => w
  | some (.queueWait _, _) => w
  | some (.barrier, _) => w
  | none => w

/-- The causes of completed passes are raised at the first bundle boundary after the completion cycle's bundle that lies outside
a forwarding window, naming the pass's bundle (R226, R259, R261). -/
def Work.raiseAfter (w : Work) (core bank : Nat) : Work :=
  let c := w.ctx core bank
  match c.after, c.st with
  | (cause, tval, pc, at_) :: rest, .ready =>
    if windowOpen w core bank ∨ at_ = (w.core core).clk then w
    else
      let w1 := w.updCtx core bank fun x => { x with after := rest }
      w1.raise core bank { cause := cause, tval := tval, epc := pc, resume := c.pc, extra := slotBits 4 false,
                           begun := (w.core core).raw }
  | _, _ => w

/-- The last row of a pass leaves the array: the pass completes (R249, R259). -/
def completePass (core : Nat) (w : Work) : Work :=
  let c := w.core core
  match duePass c c.clk with
  | none => w
  | some p => if p.done + 1 = p.rows then (w.cycle core c.clk).raiseAfter core p.ctx else w

-- Engines (R251, R357, R360, R374)

/-- A calibration of a CALIBRATE packet ends; a core's bank is trimmed (R97, R374). -/
def completeCal (core : Nat) (w : Work) : Work := w.finishCal core

/-- 500 ms have passed since a bank's last `mcal` (R251). -/
def staleTimer (core wbank : Nat) (w : Work) : Work :=
  w.updCore core fun c =>
    let b := c.wb.get wbank {}
    if b.calAt + 300000000 ≤ w.dev.now then { c with wb := c.wb.set wbank { b with stale := true } } else c

-- The end of a trap entry (R227)

/-- An entry that waits for queue operations completes when they have, or when cw.frzlim has passed and those left are
withdrawn and listed (R124, R227 step 4). -/
def finishEntry (core bank : Nat) (w : Work) : Work :=
  let c := w.ctx core bank
  match c.st with
  | .entering e =>
    let waits := c.qops.any fun q => decide (q.form ≠ 0x40)
    if waits ∧ (w.core core).raw < e.begun + c.frzlim then w
    else
      let w1 := landReady core bank c.outs.length w
      let w2 := if waits then w1.withdrawAll core bank else w1
      let w3 := w2.endEntry core bank e
      let w4 := takeSecond core bank (w3.ctx core bank).second.length w3
      if e.park.isSome ∨ e.watch.isSome then w4.leaveBank (quireOf w.dev core bank) bank else w4
  | .idle => w
  | .ready => w
  | .parked _ => w
  | .reported => w

-- Parking (R141, R225, R329)

/-- The limit of a `ctx.park` passes (R329). -/
def limitPark (core bank : Nat) (w : Work) : Work :=
  match (w.ctx core bank).st with
  | .parked (.line _ (some t) _) =>
    if t ≤ w.dev.now then w.updCtx core bank fun c => { c with st := .parked (.woken false) } else w
  | .parked (.line _ none _) => w
  | .parked (.queue _) => w
  | .parked (.woken _) => w
  | .parked (.walk _ _ _) => w
  | .idle => w
  | .ready => w
  | .entering _ => w
  | .reported => w

/-- A write to the watched line wakes the context (R329). -/
def wakePark (core bank : Nat) (w : Work) : Work :=
  match (w.ctx core bank).st with
  | .parked (.line _ _ true) => w.updCtx core bank fun c => { c with st := .parked (.woken false) }
  | .parked (.line _ _ false) => w
  | .parked (.queue _) => w
  | .parked (.woken _) => w
  | .parked (.walk _ _ _) => w
  | .idle => w
  | .ready => w
  | .entering _ => w
  | .reported => w

/-- A translation-fault park has lasted 100 ms: the launch ends with its cause (R141, R225). -/
def limitWalk (core bank : Nat) (w : Work) : Work :=
  match (w.ctx core bank).st with
  | .parked (.walk _ t cause) => if t ≤ w.dev.now then w.endTask core bank cause else w
  | .parked (.line _ _ _) => w
  | .parked (.queue _) => w
  | .parked (.woken _) => w
  | .idle => w
  | .ready => w
  | .entering _ => w
  | .reported => w

-- Queues and debug holds (R75, R113)

/-- A queue's home performs a context's next operation (R113). -/
def operateAtHome (core bank : Nat) (w : Work) : Work :=
  match (w.ctx core bank).nextQueueOp with
  | none => w
  | some q => w.performQueueOp core bank q

/-- A requested hold takes effect at the context's drain point (R75). -/
def takeHold (core bank : Nat) (w : Work) : Work :=
  let c := w.ctx core bank
  if c.halt = 1 ∧ c.st = .ready ∧ atDrain w core bank then
    (Work.performAll core bank c.accs.length w).updCtx core bank fun x => { x with halt := 2, freeze := none }
  else w

/-- A pending pre-emption request is honoured (R123, R232, R233, R363). -/
def execPreemption (core : Nat) (bank : Nat) (σ : State) : Host.Outcome State Fault Refusal :=
  .next (preempt core bank (Work.begin σ)).commit

/-- A pre-emption request has been pending for 65,536 bundles (R223). -/
def execDrainDistanceLimit (core : Nat) (bank : Nat) (σ : State) : Host.Outcome State Fault Refusal :=
  .next (limitDistance core bank (Work.begin σ)).commit

/-- A SYNC barrier is released (R217). -/
def execBarrierRelease (core : Nat) (bank : Nat) (σ : State) : Host.Outcome State Fault Refusal :=
  .next (releaseSync core bank (Work.begin σ)).commit

/-- A SYNC hold passes the barrier time limit (R219). -/
def execBarrierTimeLimit (core : Nat) (bank : Nat) (σ : State) : Host.Outcome State Fault Refusal :=
  .next (limitBarrier core bank (Work.begin σ)).commit

/-- A freeze reaches cw.frzlim (R216). -/
def execFreezeLimit (core : Nat) (bank : Nat) (σ : State) : Host.Outcome State Fault Refusal :=
  .next (limitFreeze core bank (Work.begin σ)).commit

/-- A variable-latency access is performed, and its data arrive (R215). -/
def execLanding (core : Nat) (bank : Nat) (σ : State) : Host.Outcome State Fault Refusal :=
  .next (landAccess core bank (Work.begin σ)).commit

/-- A third pass trigger proceeds (R253). -/
def execPassTriggerRelease (core : Nat) (σ : State) : Host.Outcome State Fault Refusal :=
  .next (releaseTrigger core (Work.begin σ)).commit

/-- A pass completes (R249, R259). -/
def execPassComplete (core : Nat) (σ : State) : Host.Outcome State Fault Refusal :=
  .next (completePass core (Work.begin σ)).commit

/-- A weight load completes (R360, R362, R378). -/
def execWeightLoadComplete (core : Nat) (σ : State) : Host.Outcome State Fault Refusal :=
  .next ((fun (w : Work) => w.finishLoad core) (Work.begin σ)).commit

/-- An `mcal` ends (R374). -/
def execCalibrationComplete (core : Nat) (σ : State) : Host.Outcome State Fault Refusal :=
  .next (completeCal core (Work.begin σ)).commit

/-- An engine command completes and acts on its word (R357). -/
def execCopyCommandComplete (core : Nat) (eng : Nat) (id : Nat) (σ : State) : Host.Outcome State Fault Refusal :=
  .next ((fun (w : Work) => w.finishCopy core eng id) (Work.begin σ)).commit

/-- A trap entry that waited for queue operations completes (R227). -/
def execTrapEntry (core : Nat) (bank : Nat) (σ : State) : Host.Outcome State Fault Refusal :=
  .next (finishEntry core bank (Work.begin σ)).commit

/-- The limit of a `ctx.park` passes (R329). -/
def execCtxParkLimit (core : Nat) (bank : Nat) (σ : State) : Host.Outcome State Fault Refusal :=
  .next (limitPark core bank (Work.begin σ)).commit

/-- A write to its line wakes a context parked by `ctx.park` (R329). -/
def execCtxParkWake (core : Nat) (bank : Nat) (σ : State) : Host.Outcome State Fault Refusal :=
  .next (wakePark core bank (Work.begin σ)).commit

/-- A translation-fault park has lasted 100 ms (R225). -/
def execTranslationParkLimit (core : Nat) (bank : Nat) (σ : State) : Host.Outcome State Fault Refusal :=
  .next (limitWalk core bank (Work.begin σ)).commit

/-- 500 ms have passed since a bank's last `mcal` (R251). -/
def execCalibrationStaleTimer (core : Nat) (wbank : Nat) (σ : State) : Host.Outcome State Fault Refusal :=
  .next (staleTimer core wbank (Work.begin σ)).commit

/-- A queue operation is performed at its home (R113). -/
def execQueueOpAtHome (core : Nat) (bank : Nat) (σ : State) : Host.Outcome State Fault Refusal :=
  .next (operateAtHome core bank (Work.begin σ)).commit

/-- A freeze on a waiting queue operation reaches cw.qwait (R119). -/
def execQwaitLimit (core : Nat) (bank : Nat) (σ : State) : Host.Outcome State Fault Refusal :=
  .next (parkOnQueue core bank (Work.begin σ)).commit

/-- A debug hold takes effect (R75). -/
def execDebugHoldTakesEffect (core : Nat) (bank : Nat) (σ : State) : Host.Outcome State Fault Refusal :=
  .next (takeHold core bank (Work.begin σ)).commit

end Sys2Proof.Machine
end

