-- ==== Sys2Proof/Machine/FrontEnd.lean ====
section
/-! DEFINITION. The packet fetchers and dispatchers: fetching, checking and carrying out the packets of command streams,
and the quarantine of their queues (R82 to R94, R98 to R101). A stream is named by the physical address of its queue's
control block. -/

namespace Sys2Proof.Machine

-- Packets (Tables 4.2 and 4.3)

def pkKind (p : Nat) : Nat := packedBytes p 0 1
def pkPart (p : Nat) : Nat := packedBytes p 2 1 % 32
def pkBar (p : Nat) : Bool := bit (packedBytes p 3 1) 0
def pkEvt (p : Nat) : Bool := bit (packedBytes p 3 1) 1
def pkSeq (p : Nat) : Nat := packedBytes p 4 4

/-- V of a slot's first bytes. -/
def pkV (p : Nat) : Bool := bit p 15

/-- A packet with V taken as 0. -/
def clearV (p : Nat) : Nat := if pkV p then p - 2 ^ 15 else p

/-- CHECK is the CRC-16 of bytes 0 to 61 with V taken as 0 (R85). -/
def pkCheck (p : Nat) : Bool := decide (crc16 (clearV p) 62 = packedBytes p 62 2)

/-- The bytes of the body that Table 4.3 lists for a kind, as offset and count; none for other kinds. -/
def bodyFields (kind : Nat) : Option (List (Nat × Nat)) :=
  match kind with
  | 0x80 => some [(8, 24)]
  | 0x81 => some [(8, 32)]
  | 0x82 => some [(8, 17), (28, 4)]
  | 0x83 => some [(8, 17)]
  | 0x84 => some [(8, 4)]
  | 0x85 => some []
  | 0x86 => some [(8, 18)]
  | 0x87 => some [(8, 32)]
  | 0x88 => some [(8, 1)]
  | 0x89 => some [(8, 17)]
  | 0x8A => some [(8, 5), (16, 8)]
  | 0x8B => some [(8, 17), (32, 8)]
  | 0x8C => some [(8, 16)]
  | 0x8D => some [(8, 20)]
  | _ => none

/-- The kind is in Table 4.3 and every reserved bit and byte is 0 (R87, R88). -/
def reservedClear (p : Nat) : Bool :=
  match bodyFields (pkKind p) with
  | none => false
  | some fs =>
    decide (packedBytes p 1 1 % 128 = 0) && decide (packedBytes p 2 1 / 32 = 0) && decide (packedBytes p 3 1 / 4 = 0) &&
      ((List.range 54).all fun k => decide (packedBytes p (8 + k) 1 = 0) ||
        fs.any fun f => decide (f.1 ≤ 8 + k) && decide (8 + k < f.1 + f.2)) &&
      (decide (pkKind p ≠ 0x89) || decide (packedBytes p 24 1 < 2))

/-- The clusters of a partition; those of 16 are the clusters that no partition owns (R61, R86). -/
def clustersOf (d : Dev) (part : Nat) : Nat :=
  if part < 16 then (d.partOf part).clusters
  else packBits ((List.range 32).map fun k => d.parts.all fun p => !(decide (p.1 < 16) && bit p.2.clusters k))

/-- The fields of a packet lie in their ranges and its addresses are aligned (Table 4.3, R88). -/
def inRange (d : Dev) (p : Nat) : Bool :=
  let f (off n : Nat) : Nat := packedBytes p off n
  match pkKind p with
  | 0x80 => decide (f 8 8 % 256 = 0) && decide (f 16 8 % 64 = 0) && decide (f 24 8 % 8 = 0)
  | 0x81 => decide (f 8 8 % 256 = 0) && decide (f 16 8 % 64 = 0) && decide (f 24 8 % 8 = 0) && decide (f 32 8 % 16 = 0)
  | 0x82 => decide (f 8 8 % 8 = 0) && decide (f 24 1 ≤ 3)
  | 0x83 => decide (f 8 8 % 8 = 0) && decide (f 24 1 ≤ 1)
  | 0x86 => decide (f 8 8 % 8 = 0) && decide (f 24 1 ≤ 3) && decide (1 ≤ f 25 1) && decide (f 25 1 ≤ 64)
  | 0x87 => decide (f 8 8 % 32 = 0) && decide (f 16 8 % 32 = 0) && decide (f 24 8 % 32 = 0) && decide (32 ≤ f 24 8) &&
      decide (f 24 8 ≤ 2 ^ 40) && decide (f 32 8 % 8 = 0)
  | 0x88 => decide (f 8 1 = 4) || decide (f 8 1 = 5)
  | 0x89 => decide (f 8 8 % 64 = 0) && decide (f 16 8 % 8 = 0)
  | 0x8A => decide (f 12 1 ≤ 1) && decide (f 16 8 % 8 = 0) &&
      (List.range 32).all fun k => !bit (f 8 4) k || bit (clustersOf d (pkPart p)) k
  | 0x8B => decide (f 8 8 % 4096 = 0) && decide (f 16 8 % 4096 = 0) && decide (f 16 8 ≠ 0) && decide (f 24 1 ≤ 1) &&
      decide (f 32 8 % 8 = 0)
  | 0x8C => decide (f 8 8 % 64 = 0) && decide (f 16 8 % 8 = 0)
  | 0x8D => decide (f 16 8 % 8 = 0)
  | _ => true

/-- The address of a packet's completion word, 0 for a kind without one. -/
def pkWord (p : Nat) : Nat :=
  match pkKind p with
  | 0x80 => packedBytes p 24 8
  | 0x81 => packedBytes p 24 8
  | 0x87 => packedBytes p 32 8
  | 0x89 => packedBytes p 16 8
  | 0x8A => packedBytes p 16 8
  | 0x8B => packedBytes p 32 8
  | 0x8C => packedBytes p 16 8
  | 0x8D => packedBytes p 16 8
  | _ => 0

-- Streams

/-- The stream of a command queue. -/
def Dev.stream (d : Dev) (q : Nat) : Stream := d.streams.get q {}

/-- Change a stream. -/
def Work.updStream (w : Work) (q : Nat) (f : Stream → Stream) : Work :=
  w.mapDev fun d => { d with streams := d.streams.set q (f (d.stream q)) }

/-- The slice that checks a queue's block, and whether it finds it whole (R104). -/
def queueSlice (w : Work) (q : Nat) : Nat := w.dev.sliceOf q (w.block q).home
def wholeQueue (w : Work) (q : Nat) : Bool := (w.block q).whole w.dev q (queueSlice w q)

/-- The die whose front end serves a queue: its home die (R84). -/
def feDie (w : Work) (q : Nat) : Nat := sliceDie (queueSlice w q) % 4

/-- The policy core of a queue's die runs (R82, R83). -/
def policyRuns (w : Work) (q : Nat) : Bool := decide (w.dev.policy.get (feDie w q) 0 = 0)

/-- What the policy core of a die does waits while that core restarts (R82, R83): the action is taken again. -/
def Work.policyWait (w : Work) (die : Nat) : Work := w.waitFor (decide (w.dev.policy.get die 0 ≠ 0)) (2 ^ 60)

/-- What is left to do when a packet completes. -/
def ticketOf (w : Work) (q p : Nat) : Ticket :=
  { part := pkPart p, cword := pkWord p, evt := pkEvt p, q := q, handle := (w.dev.homeOf q).handle, seq := pkSeq p }

/-- A packet or graph node completes (R89, R95, R101): completion word, record, and its place in the stream or graph. -/
def Work.complete (w : Work) (t : Ticket) (code : Nat) : Work :=
  let w1 := if t.cword = 0 ∧ code ≠ 0 ∧ code < 0x100 then w.logError code t.part (feAgent (feDie w t.q)) t.seq
            else w.writeCompletion t.part (feDie w t.q) t.cword code
  w1.mapDev fun d => { d with
    events := if t.evt then
        d.events ++ [completionRec t.part t.handle t.seq code t.cword (if t.loose then none else some t.q)]
      else d.events
    nodeEnds := match t.node with
      | some n => d.nodeEnds ++ [(n.1, n.2, code)]
      | none => d.nodeEnds
    streams := if t.node.isSome || t.loose then d.streams else d.asyncDone t.q }

-- Quarantine (R98, R101)

/-- The owner of a queue, from its block while that is whole. -/
def queueOwner (w : Work) (q : Nat) : Nat :=
  if wholeQueue w q then (w.block q).owner else (w.dev.homeOf q).part

/-- An event that concerns a queue (R98): Normal goes to Quarantined for reasons 1 to 6 and 11, and to Halted for the
others; Quarantined goes to Halted. The decision is the policy core's (R82). -/
def Work.queueEvent (w : Work) (q seq cause reason : Nat) : Work :=
  let s := w.dev.stream q
  let h := w.dev.homeOf q
  let soft := decide (1 ≤ reason ∧ reason ≤ 6) || decide (reason = 11)
  if s.st = 2 then w
  else
    let st := if soft ∧ s.st = 0 then 1 else 2
    ((((w.policyWait (feDie w q)).updStream q fun x => { x with
      st := st, reason := reason, pkt := none, waiting := false, limit := none, watch := none }).qnotice
      (queueOwner w q) h.handle seq cause reason st (some q))).quarantineQueue q

/-- The head slot of a queue. -/
def headSlot (w : Work) (q : Nat) : Nat :=
  let b := w.block q
  b.ring + b.head % b.cap * 64

/-- The cause that keeps the front end from reading the head slot, or 0: its column has failed or is not reached, or its
sectors carry a mark (R25, R28, R43, R181). What the fetcher makes of such a slot the spec leaves open: a read of it fails as
one whose check is wrong (DESIGN CHOICE, notes/assumptions/101.md). -/
def headFault (w : Work) (q : Nat) : Nat :=
  let pa := headSlot w q
  if reachFault w.dev (feDie w q) pa ≠ 0 then reachFault w.dev (feDie w q) pa else w.poisonAt pa 64

/-- The head slot is freed: byte 1 to 0, HEAD and the expected SEQ on (R85, R98). -/
def Work.freeSlot (w : Work) (q : Nat) : Work :=
  let agent := feAgent (feDie w q)
  let w1 := if headFault w q = 0 then Work.agentWrite agent 1 (headSlot w q + 1) 1 0 w else w
  let r := w1.atHome q (queueSlice w q) (w1.dev.homeOf q).handle (w1.dev.agentTime agent) .device (.release 1)
  r.2.updStream q fun s => { s with
    seq := (s.seq + 1) % 2 ^ 32, tries := 0, retryAt := none, stallAt := none }

/-- A malformed packet is discarded, its slot freed (R98); in a skip range it is one of the packets passed over (R93). -/
def Work.discard (w : Work) (q reason : Nat) : Work :=
  let seq := (w.dev.stream q).seq
  ((w.freeSlot q).updStream q fun s => { s with skip := s.skip - 1 }).queueEvent q seq 0 reason

-- Checks of an accepted packet (R88, R92, R93)

/-- The packet breaks the loop or condition structure of its stream. -/
def breaksLoops (s : Stream) (p : Nat) : Bool :=
  let k := pkKind p
  let marks := decide (k = 0x84) || decide (k = 0x85)
  (decide (k = 0x85) && s.loops.isEmpty) || (decide (k = 0x84) && decide (4 ≤ s.loops.length)) ||
    (marks && decide (0 < s.skip)) ||
    (!s.loops.isEmpty && decide (64 ≤ s.store.length) && !(decide (k = 0x85) && decide (s.loops.length = 1)))

/-- The lowest reason for which a packet is malformed, or 0 (R88). -/
def packetReason (w : Work) (q p : Nat) : Nat :=
  if reservedClear p = false then 2
  else if inRange w.dev p = false then 3
  else if pkPart p ≠ (w.block q).owner then 4
  else if breaksLoops (w.dev.stream q) p then 5
  else 0

/-- The innermost open loop's body is being skipped (R92). -/
def Stream.skipping (s : Stream) : Bool :=
  match s.loops with
  | [] => false
  | l :: _ => l.skips

/-- A loop opens; its body begins at the next packet. -/
def Stream.openLoop (s : Stream) (count : Nat) : Stream :=
  let start := match s.pos with
    | some i => i
    | none => s.store.length
  { s with loops := { start := start, left := count - 1, skips := decide (count = 0) || s.skipping } :: s.loops }

/-- The innermost loop goes round again from the replay store, or is left; a replay that has come to the end of what is
stored gives way to the queue. -/
def Stream.closeLoop (s : Stream) : Stream :=
  match s.loops with
  | [] => s
  | l :: rest =>
    if l.skips = false ∧ 0 < l.left then
      { s with loops := { l with left := l.left - 1 } :: rest, pos := some l.start }
    else if rest.isEmpty then { s with loops := [], store := [], pos := none }
    else { s with loops := rest, pos := match s.pos with
      | some i => if s.store.length ≤ i then none else some i
      | none => none }

/-- A packet is taken by the dispatcher, or passed over in a skip range or a skipped body (R92, R93). Loop packets nested in
a skipped body only open and close their level; the LOOP_END that matches a count of 0 is carried out. -/
def Stream.take (s : Stream) (p : Nat) : Stream :=
  let k := pkKind p
  let nested : Bool := match s.loops with
    | [] => false
    | _ :: rest => rest.any fun l => l.skips
  if 0 < s.skip then { s with skip := s.skip - 1 }
  else if s.skipping ∧ k = 0x84 then s.openLoop 0
  else if s.skipping ∧ k = 0x85 ∧ nested then s.closeLoop
  else if s.skipping ∧ k ≠ 0x85 then s
  else { s with pkt := some p, waiting := false, limit := none, watch := none }

/-- The next accepted packet of a stream enters the replay store inside a loop, and is taken (R92). -/
def Stream.accept (s : Stream) (p : Nat) : Stream :=
  (if s.loops.isEmpty then s else { s with store := s.store ++ [p] }).take p

-- Fetching (R85)

/-- A queue's block as its front end finds it before a fetch (R98): a corrupt block, a poisoned queue, another element
size. -/
def blockReason (w : Work) (q : Nat) : Nat :=
  let b := w.block q
  if (w.dev.homeOf q).pois ∨ b.pois then 9
  else if wholeQueue w q = false then 8
  else if b.elog ≠ 6 then 10
  else 0

/-- The stream waits for an event record that it produced to be placed (R101). -/
def recordWaits (d : Dev) (q : Nat) : Bool := d.events.any fun e => decide (e.stream = some q)

/-- The queue is a command queue (R82): its block says so, or said so when it was last whole. -/
def isCommandQueue (w : Work) (q : Nat) : Bool :=
  decide ((if wholeQueue w q then (w.block q).role else (w.dev.homeOf q).role) = 1)

/-- The stream may take a packet from its queue. While it carries out a packet or replays a loop, the fetcher neither reads nor times
the head slot, which the spec leaves open (DESIGN CHOICE, notes/assumptions/122.md). -/
def mayFetch (w : Work) (q : Nat) : Bool :=
  let s := w.dev.stream q
  decide (w.dev.mode = .running) && decide (s.st ≠ 2) && s.pkt.isNone && s.pos.isNone && !recordWaits w.dev q &&
    isCommandQueue w q && w.dev.partRuns (queueOwner w q)

/-- The head slot is read (R85): accepted, to be read again, or malformed. -/
def readHead (q : Nat) (w : Work) : Work :=
  let b := w.block q
  let s := w.dev.stream q
  if b.used = 0 then w
  else
    let bad := decide (headFault w q ≠ 0)
    let r := if bad then (0, w) else Work.agentRead (feAgent (feDie w q)) 2 (headSlot w q) 64 w
    let p := r.1
    let w1 := r.2
    if pkV p = false ∧ bad = false then
      if s.stallAt.isSome then w1 else w1.updStream q fun x => { x with stallAt := some (w.dev.now + 6000000) }
    else if bad ∨ pkCheck p = false ∨ pkSeq p ≠ s.seq then
      if 4 ≤ s.tries then w1.discard q 1
      else w1.updStream q fun x => { x with tries := x.tries + 1, retryAt := some (w.dev.now + 64) }
    else
      let why := packetReason w1 q (clearV p)
      if why ≠ 0 then w1.discard q why
      else (w1.freeSlot q).updStream q fun x => x.accept (clearV p)

/-- What the fetcher does with a queue whose block it finds sound; a block found corrupt is poisoned, which halts the stream and
places the one record of it, and a poisoned queue and another element size halt it too: nothing is freed then (R98, R101, R126). -/
def Work.ifSound (w : Work) (q : Nat) (go : Work → Work) : Work :=
  match blockReason w q with
  | 0 => go w
  | 8 => (w.policyWait (feDie w q)).poisonQueue q
  | 9 => w.queueEvent q 0 20 9
  | why => w.queueEvent q 0 19 why

/-- A fetch on a change notice (R85, R98). -/
def fetchPacket (q : Nat) (w : Work) : Work :=
  if mayFetch w q = false ∨ (w.dev.stream q).retryAt.isSome then w
  else (w.updHome q fun h => { h with notice := false }).ifSound q (readHead q)

/-- A further read, 64 cc after a failed one (R85). -/
def retryFetch (q : Nat) (w : Work) : Work :=
  match (w.dev.stream q).retryAt with
  | none => w
  | some t =>
    if w.dev.now < t ∨ mayFetch w q = false then w
    else w.ifSound q fun a => readHead q (a.updStream q fun x => { x with retryAt := none })

/-- A claimed head slot has held V = 0 for 10 ms (R85). -/
def stallFetch (q : Nat) (w : Work) : Work :=
  match (w.dev.stream q).stallAt with
  | none => w
  | some t =>
    if w.dev.now < t ∨ mayFetch w q = false then w
    else w.ifSound q fun a =>
      if pkV (a.pread (headSlot a q) 2) then a.updStream q fun x => { x with stallAt := none } else a.discard q 6

/-- The next packet of the replay store is taken (R92); a loop packet in a skip range is malformed there (R93). -/
def takeReplay (q : Nat) (w : Work) : Work :=
  let s := w.dev.stream q
  match s.pos with
  | none => w
  | some i =>
    if s.st = 2 ∨ s.pkt.isSome ∨ recordWaits w.dev q then w
    else match s.store[i]? with
      | none => w.updStream q fun x => { x with pos := none }
      | some p =>
        if 0 < s.skip ∧ (pkKind p = 0x84 ∨ pkKind p = 0x85) then
          (w.updStream q fun x => { x with pos := some (i + 1), skip := x.skip - 1 }).queueEvent q (pkSeq p) 0 5
        else w.updStream q fun x => { x.take p with pos := some (i + 1) }

-- Carrying out

/-- The packet that a stream is carrying out, if it is of a kind, its partition runs, and nothing it waits for is
left (R65, R90). -/
def current (w : Work) (q kind : Nat) : Option Nat :=
  let s := w.dev.stream q
  match s.pkt with
  | none => none
  | some p =>
    if pkKind p = kind ∧ s.st ≠ 2 ∧ w.dev.mode = .running ∧ recordWaits w.dev q = false ∧ w.dev.partRuns (pkPart p) ∧
        ((pkBar p = false ∧ kind ≠ 0x83 ∧ kind ≠ 0x88) ∨ s.async = 0) then some p else none

/-- The stream goes on to its next packet. -/
def Work.advance (w : Work) (q : Nat) : Work :=
  w.updStream q fun s => { s with pkt := none, waiting := false, limit := none, watch := none }

/-- A synchronous packet has been carried out; with EVT it leaves a record (Table 4.2). -/
def Work.syncDone (w : Work) (q p code : Nat) : Work :=
  let t := ticketOf w q p
  let w1 := w.advance q
  if pkEvt p then
    w1.mapDev fun d => { d with events := d.events ++ [completionRec t.part t.handle t.seq code t.cword (some q)] }
  else w1

/-- An asynchronous packet starts (R90). -/
def Work.asyncStart (w : Work) (q : Nat) : Work :=
  (w.advance q).updStream q fun s => { s with async := s.async + 1 }

/-- A word of a WAIT, SIGNAL or COND fails translation or permission (R88): error ring, and Halted with reason 12. -/
def Work.wordFailed (w : Work) (q p : Nat) (e : XErr) : Work :=
  let cause := e.cause (if pkKind p = 0x83 then 9 else 8)
  ((w.awaits e).logError cause (pkPart p) (feAgent (feDie w q)) (packedBytes p 8 8)).queueEvent q (pkSeq p) cause 12

/-- A front end's read with acquire of n bytes in one line: its logical time rises to the writer's, and with it that of
what the stream starts next (R90). What a peer's memory returns is free (R193). A poison mark on the bytes makes them a word that fails
with the mark's cause, of which the spec says nothing (DESIGN CHOICE, notes/assumptions/120.md). -/
def Work.feRead (w : Work) (die part va n : Nat) : Except XErr (Nat × Work) :=
  if 2 ^ 56 ≤ va then .error (.refused 8)
  else match translate w (deviceAsker w.dev part die) [.read] va with
    | .error e => .error e
    | .ok x =>
      if reachFault w.dev die x.pa ≠ 0 then .error (.refused (reachFault w.dev die x.pa))
      else if regionOf x.pa = .peer then
        let f := w.free
        .ok (f.1 % 2 ^ (8 * n), f.2)
      else if w.poisonAt x.pa n ≠ 0 then .error (.refused (w.poisonAt x.pa n))
      else .ok (Work.agentRead (feAgent die) 2 x.pa n w)

/-- A front end's write with release at system scope of n bytes in one line (R89, R90). -/
def Work.feWrite (w : Work) (die pa n v : Nat) : Work :=
  Work.agentWrite (feAgent die) 2 pa n v (w.raiseAgent (feAgent die) (releaseTime w.dev))

/-- The tests of WAIT and COND (R87). -/
def testWord (test x op : Nat) : Bool :=
  match test with
  | 0 => decide (op ≤ x)
  | 1 => decide (x = op)
  | 2 => decide (x ≠ op)
  | _ => decide (x &&& op = op)

/-- The test of a packet on its word, evaluated now. -/
def evalTest (w : Work) (q p : Nat) : Except XErr (Bool × Work) := do
  let r ← w.feRead (feDie w q) (pkPart p) (packedBytes p 8 8) 8
  .ok (testWord (packedBytes p 24 1) r.1 (packedBytes p 16 8), r.2)

-- Launches (R90, R91, R99, R100)

/-- The lowest free entry of the launch table. -/
def freeLaunch (d : Dev) : Option Nat := (List.range 64).find? fun ix => (d.launches.get? ix).isNone

/-- Requests with cause 51 on the ordinary tasks that run on D3 c7, as a quarantine begins (R100). -/
def Work.clearReserved (w : Work) : Work :=
  let hit (key : Nat) (c : Ctx) : Bool :=
    reservedCore (key / 2) && c.busy && !c.ebb && !(w.dev.launch c.ix).quarantine && decide (c.ppend = 0)
  w.mapDev fun d => { d with ctxs := d.ctxs.map fun p => (p.1, if hit p.1 p.2 then { p.2 with ppend := 51 } else p.2) }

/-- A launch enters the launch table (R90, R99); `sizes` is the size record of a LAUNCH_IND, or the cause with which the reading of
it failed, which is looked at once the header has passed its checks (R91, R129). Its tasks see all that its front
end had acquired by then (R90). -/
def Work.enterLaunch (w : Work) (ix p : Nat) (t : Ticket) (quarantine : Bool) (sizes sizeErr : Option Nat) : Work :=
  let die := feDie w t.q
  let l : Launch :=
    { st := 1, part := t.part, hdrVa := packedBytes p 8 8, args := packedBytes p 16 8, cword := t.cword, evt := t.evt,
      sizes := sizes, sizeErr := sizeErr, queue := t.handle, seq := t.seq, node := t.node, q := t.q, die := die, order := w.dev.launched,
      quarantine := quarantine, since := w.dev.now, acquired := w.dev.agentTime (feAgent die) }
  let w1 := w.mapDev fun d => { d with launches := d.launches.set ix l, launched := d.launched + 1 }
  if quarantine ∧ quarantineOn w.dev = false then w1.clearReserved else w1

/-- A launch starts (R90): a LAUNCH_IND reads its size record with acquire (R91). -/
def Work.startLaunch (w : Work) (ix p : Nat) (t : Ticket) (quarantine : Bool) : Work :=
  if pkKind p ≠ 0x81 then w.enterLaunch ix p t quarantine none none
  else match w.feRead (feDie w t.q) t.part (packedBytes p 32 8) 16 with
    | .error e => (w.awaits e).enterLaunch ix p t quarantine none (some (e.cause 8))
    | .ok r => r.2.enterLaunch ix p t quarantine (some r.1) none

/-- LAUNCH and LAUNCH_IND (R90, R91): the stream waits while the table is full, and while the policy core, which keeps the
table and decides the class, restarts (R82, R83). -/
def carryLaunch (kind q : Nat) (w : Work) : Work :=
  match current w q kind, freeLaunch w.dev with
  | some p, some ix =>
    let quarantine := decide ((w.dev.stream q).st = 1)
    ((w.policyWait (feDie w q)).asyncStart q).startLaunch ix p (ticketOf w q p) quarantine
  | none, _ => w
  | some _, none => w

-- WAIT, SIGNAL, COND (R88, R90, R93, R94)

/-- The line of the word of a WAIT, where it translates. -/
def wordLine (w : Work) (q p : Nat) : Option Nat :=
  match translate w (deviceAsker w.dev (pkPart p) (feDie w q)) [.read] (packedBytes p 8 8) with
  | .ok x => some (x.pa / 64)
  | .error _ => none

/-- A WAIT's test is evaluated; a true one lets the stream go on, and a false one is evaluated again at a write of the word's
line, and after 1 us (R94). -/
def Work.tryWait (w : Work) (q p : Nat) : Work :=
  match evalTest w q p with
  | .error e => w.wordFailed q p e
  | .ok r =>
    if r.1 then r.2.syncDone q p 0
    else r.2.updStream q fun s => { s with recheck := w.dev.now + 600, watch := wordLine w q p }

/-- A WAIT starts (R94). -/
def beginWait (q : Nat) (w : Work) : Work :=
  match current w q 0x82 with
  | none => w
  | some p =>
    if (w.dev.stream q).waiting then w
    else
      let us := packedBytes p 28 4
      (w.updStream q fun s => { s with
        waiting := true, limit := if us = 0 then none else some (w.dev.now + 600 * us) }).tryWait q p

/-- A WAIT evaluates its test again (R94). -/
def recheckWait (q : Nat) (w : Work) : Work :=
  match current w q 0x82 with
  | none => w
  | some p => if (w.dev.stream q).waiting then w.tryWait q p else w

/-- A WAIT's limit passes with its test still false: the queue is halted (R94). -/
def limitWait (q : Nat) (w : Work) : Work :=
  match current w q 0x82, (w.dev.stream q).limit with
  | some p, some t =>
    if w.dev.now < t then w
    else match evalTest w q p with
      | .error e => w.wordFailed q p e
      | .ok r => if r.1 then r.2.syncDone q p 0 else r.2.queueEvent q (pkSeq p) 0 7
  | none, _ => w
  | some _, none => w

/-- The write of a SIGNAL: a store, or an addition modulo 2^64 (R87, R90). One to a peer's memory leaves the part. -/
def signalWord (w : Work) (die p : Nat) : Except XErr Work :=
  let va := packedBytes p 8 8
  let adds := decide (packedBytes p 24 1 = 1)
  if 2 ^ 56 ≤ va then .error (.refused 9)
  else match translate w (deviceAsker w.dev (pkPart p) die) (if adds then [.write, .atomic] else [.write]) va with
    | .error e => .error e
    | .ok x =>
      let v := packedBytes p 16 8
      if reachFault w.dev die x.pa ≠ 0 then .error (.refused (reachFault w.dev die x.pa))
      else if regionOf x.pa = .peer then .ok w
      else .ok (w.feWrite die x.pa 8 ((if adds then w.pread x.pa 8 + v else v) % 2 ^ 64))

/-- SIGNAL (R88, R90). -/
def carrySignal (q : Nat) (w : Work) : Work :=
  match current w q 0x83 with
  | none => w
  | some p => match signalWord w (feDie w q) p with
    | .error e => w.wordFailed q p e
    | .ok w1 => w1.syncDone q p 0

/-- COND (R88, R93). -/
def carryCond (q : Nat) (w : Work) : Work :=
  match current w q 0x86 with
  | none => w
  | some p => match evalTest w q p with
    | .error e => w.wordFailed q p e
    | .ok r =>
      let w1 := r.2.syncDone q p 0
      if r.1 then w1 else w1.updStream q fun s => { s with skip := packedBytes p 25 1 }

/-- FENCE (R90): every earlier packet of the stream has completed, and what they wrote is visible to what starts next. -/
def carryFence (q : Nat) (w : Work) : Work :=
  match current w q 0x88 with
  | none => w
  | some p => (w.raiseAgent (feAgent (feDie w q)) (releaseTime w.dev)).syncDone q p 0

-- Loops (R92)

/-- LOOP_BEGIN (R92). -/
def carryLoopBegin (q : Nat) (w : Work) : Work :=
  match current w q 0x84 with
  | none => w
  | some p => (w.syncDone q p 0).updStream q fun s => s.openLoop (packedBytes p 8 4)

/-- LOOP_END (R92). -/
def carryLoopEnd (q : Nat) (w : Work) : Work :=
  match current w q 0x85 with
  | none => w
  | some p => (w.syncDone q p 0).updStream q Stream.closeLoop

-- Event records (R101)

/-- A record as it stands in an event queue: V = 1, PART, SEQ and a correct check. -/
def recordBytes (e : EventRec) (seq : Nat) : Nat :=
  let p := e.kind + 2 ^ 16 * e.part + 2 ^ 32 * (seq % 2 ^ 32) + 2 ^ 64 * (e.body % 2 ^ 432)
  p + 2 ^ 15 + 2 ^ 496 * crc16 p 62

/-- The oldest record of a partition that waits. -/
def oldestRecord : List EventRec → Nat → Option EventRec
  | [], _ => none
  | e :: t, part => if e.part = part then some e else oldestRecord t part

/-- The records without the oldest of a partition. -/
def dropRecord : List EventRec → Nat → List EventRec
  | [], _ => []
  | e :: t, part => if e.part = part then t else e :: dropRecord t part

/-- The oldest waiting record of a partition is placed in its event queue if there is room (R101), by the policy core of the
die of the stream that produced it (R82); where the partition names no queue that takes it, or its home is not reached (R120), the
record is lost and counted in the error ring (notes/assumptions/32.md). With a launch's COMPLETION record placed, its entry is freed (R146). -/
def placeRecord (part : Nat) (w0 : Work) : Work :=
  match oldestRecord w0.dev.events part with
  | none => w0
  | some e =>
    let die := match e.stream with
      | some q => feDie w0 q
      | none => 0
    let w := w0.policyWait die
    let gone (x : Work) : Work := x.mapDev fun d => { d with
      events := dropRecord d.events part
      launches := match e.frees with
        | some ix => d.launches.del ix
        | none => d.launches }
    let p := w.dev.partOf part
    match translate w (deviceAsker w.dev part die) [.read] p.evq with
    | .error x => ((gone w).awaits x).logError (x.cause 9) part (feAgent die) p.evq
    | .ok x =>
      if reachFault w.dev die x.pa ≠ 0 ∨ reachable w.dev die (queueSlice w x.pa) = false then
        (gone w).logError 22 part (feAgent die) p.evq
      else if p.evq = 0 ∨ ((w.block x.pa).role ≠ 2 ∧ wholeQueue w x.pa) then (gone w).logError 21 part (feAgent die) p.evq
      else
        let r := w.atHome x.pa (queueSlice w x.pa) p.evq (w.dev.agentTime (feAgent die)) .device
          (.enqueue (recordBytes e p.evSeq) false)
        match r.1 with
        | .done _ _ _ => (gone r.2).mapDev fun d => { d with
            parts := d.parts.set part { d.partOf part with evSeq := ((d.partOf part).evSeq + 1) % 2 ^ 32 } }
        | .full => r.2
        | .empty => r.2
        | .waiting => r.2
        | .held => r.2
        | .refused c => (gone r.2).logError c part (feAgent die) p.evq

/-- The fetcher reads the head slot on a change notice (R85, R88, R98). -/
def execPacketFetch (q : Nat) (σ : State) : Host.Outcome State Fault Refusal :=
  .next (fetchPacket q (Work.begin σ)).commit

/-- The fetcher reads the slot again (R85). -/
def execFetchRetry (q : Nat) (σ : State) : Host.Outcome State Fault Refusal :=
  .next (retryFetch q (Work.begin σ)).commit

/-- A claimed head slot still holds V = 0 after 10 ms (R85). -/
def execStalledProducerTimeout (q : Nat) (σ : State) : Host.Outcome State Fault Refusal :=
  .next (stallFetch q (Work.begin σ)).commit

/-- LAUNCH (R90, R99). -/
def execLaunch (q : Nat) (σ : State) : Host.Outcome State Fault Refusal :=
  .next (carryLaunch 0x80 q (Work.begin σ)).commit

/-- LAUNCH_IND (R90, R91, R99). -/
def execLaunchInd (q : Nat) (σ : State) : Host.Outcome State Fault Refusal :=
  .next (carryLaunch 0x81 q (Work.begin σ)).commit

/-- A WAIT starts (R94). -/
def execWait (q : Nat) (σ : State) : Host.Outcome State Fault Refusal :=
  .next (beginWait q (Work.begin σ)).commit

/-- A WAIT evaluates its test again (R94). -/
def execWaitRecheck (q : Nat) (σ : State) : Host.Outcome State Fault Refusal :=
  .next (recheckWait q (Work.begin σ)).commit

/-- The limit of a WAIT passes (R94, R98). -/
def execWaitLimit (q : Nat) (σ : State) : Host.Outcome State Fault Refusal :=
  .next (limitWait q (Work.begin σ)).commit

/-- SIGNAL (R88, R90). -/
def execSignal (q : Nat) (σ : State) : Host.Outcome State Fault Refusal :=
  .next (carrySignal q (Work.begin σ)).commit

/-- LOOP_BEGIN (R92). -/
def execLoopBegin (q : Nat) (σ : State) : Host.Outcome State Fault Refusal :=
  .next (carryLoopBegin q (Work.begin σ)).commit

/-- LOOP_END (R92). -/
def execLoopEnd (q : Nat) (σ : State) : Host.Outcome State Fault Refusal :=
  .next (carryLoopEnd q (Work.begin σ)).commit

/-- COND (R88, R93). -/
def execCond (q : Nat) (σ : State) : Host.Outcome State Fault Refusal :=
  .next (carryCond q (Work.begin σ)).commit

/-- FENCE (R90). -/
def execFence (q : Nat) (σ : State) : Host.Outcome State Fault Refusal :=
  .next (carryFence q (Work.begin σ)).commit

/-- A waiting event record is placed (R101). -/
def execEventRecordPlaced (part : Nat) (σ : State) : Host.Outcome State Fault Refusal :=
  .next (placeRecord part (Work.begin σ)).commit

end Sys2Proof.Machine
end

