-- ==== Sys2Proof/Machine/Package.lean ====
section
/-! DEFINITION. The package's own events: power and operating points, sensors, vertical buses, die boundaries and peer
ports (file 01). -/

namespace Sys2Proof.Machine

-- Operating points (R17, R34, R151)

/-- The island of a cluster. -/
def Dev.island (d : Dev) (cl : Nat) : Island := d.islands.get cl {}

/-- Change an island. -/
def Work.updIsland (w : Work) (cl : Nat) (f : Island → Island) : Work :=
  w.mapDev fun d => { d with islands := d.islands.set cl (f (d.island cl)) }

/-- The clusters that hold gang cores of a launch. -/
def gangClusters (l : Launch) : List Nat := sortClusters (l.gang.map fun q => coreCluster (q.headD 0))
where
  /-- the distinct numbers below 32 among some -/
  sortClusters (xs : List Nat) : List Nat := (List.range 32).filter fun k => xs.contains k

/-- The launches that run on a cluster, a failed one as long as its last tasks do. -/
def launchesOn (d : Dev) (cl : Nat) : List Launch :=
  (d.launches.filter fun p => p.2.live && (gangClusters p.2).contains cl).map (·.2)

/-- The operating point an island should run at: 300 MHz under the action of R32, else the lowest that a running launch
with gang cores there is assigned (R151), else 600 MHz. The spec is silent on an island that no running launch's gang holds: the
model raises it to 600 MHz at the next estimate or sample (DESIGN CHOICE, notes/assumptions/53.md). -/
def targetOp (d : Dev) (cl : Nat) : Nat :=
  if (d.island cl).hot then 12 else (launchesOn d cl).foldl (fun m l => min m l.op) 24

/-- The action of R32 begins or ends on an island: it acts on the sample, whatever a launch does there. -/
def Island.forced (i : Island) : Bool := i.hot || i.back

/-- An island may change now: no launch with gang cores there is between its barrier's release and the end of its ebb
(R151), or the action of R32 begins or ends. A release waits for the changes of the gang's islands to end (`mayRelease`). -/
def mayChange (d : Dev) (cl : Nat) : Bool := (d.island cl).forced || (launchesOn d cl).all fun l => !l.inEbb

/-- The islands that do not run at their target. -/
def offTarget (d : Dev) : List Nat := (List.range 32).filter fun cl => decide ((d.island cl).op ≠ targetOp d cl)

/-- The islands that begin to change now: those of a gang change as one unit, so that an island waits while another island
of a gang that it holds is off its target and may not change; the action of R32 is one island's alone (R151). -/
def changing (d : Dev) : List Nat :=
  let off := offTarget d
  let free := off.filter fun cl => ((d.island cl).until_).isNone && mayChange d cl
  let together (s : List Nat) (cl : Nat) : Bool :=
    (d.island cl).forced || (launchesOn d cl).all fun l => (gangClusters l).all fun k => !off.contains k || s.contains k
  free.foldl (fun s _ => s.filter (together s)) free

/-- The calibrations of an island's banks become stale (R251). -/
def Work.staleCluster (w : Work) (cl : Nat) (which : WBank → Bool) : Work :=
  (List.range 16).foldl (fun a k => a.updCore (16 * cl + k) fun c => { c with
    wb := (List.range 2).foldl (fun t b =>
      let x := t.get b {}
      if which x then t.set b { x with stale := true } else t) c.wb }) w

/-- An island begins a change of operating point: 1,200 cc of the new clock (R17). -/
def Work.beginChange (w : Work) (cl op : Nat) : Work :=
  (w.updIsland cl fun i => { i with op := op, back := false, until_ := some (w.dev.now + (1200 * 24 + op - 1) / op) }).staleCluster cl
    fun _ => true

/-- Every island that should and may change begins to (R17, R32, R151). -/
def Work.changeIslands (w : Work) : Work :=
  (changing w.dev).foldl (fun a cl => a.beginChange cl (targetOp w.dev cl)) w

/-- A step of the assigned operating points of the running launches. -/
def Work.stepOps (w : Work) (f : Nat → Nat) : Work :=
  w.mapDev fun d => { d with launches := d.launches.map fun p =>
    (p.1, if p.2.live then { p.2 with op := f p.2.op } else p.2) }

/-- The power managers act on an estimate of the package's draw in watts: a step down while it exceeds the envelope, and a
step up once every estimate of 100 us has been under 97 % of it (R34; notes/assumptions/99.md). -/
def estimatePower (draw : Nat) (w : Work) : Work :=
  let env := w.dev.envelope
  let now := w.dev.now
  if env < draw then ((w.mapDev fun d => { d with lowSince := none }).stepOps fun op => max 12 (op - 1)).changeIslands
  else if draw * 100 < 97 * env then
    match w.dev.lowSince with
    | none => w.mapDev fun d => { d with lowSince := some now }
    | some t =>
      if now < t + 60000 then w
      else ((w.mapDev fun d => { d with lowSince := some now }).stepOps fun op => min 24 (op + 1)).changeIslands
  else w.mapDev fun d => { d with lowSince := none }

/-- The host driver sets the envelope; it is held at 900 W where both copies of record kind 4 were rejected (R34,
R37), and a device in recovery answers nothing but its recovery interface (R38). -/
def chooseEnvelope (watts : Nat) (w : Work) : Work :=
  if w.dev.mode = .running ∧ 900 ≤ watts ∧ watts ≤ 1500 ∧ watts % 25 = 0 ∧ w.dev.envHeld = false then
    (w.mapDev fun d => { d with envelope := watts }).reply .done
  else w.reply .unsupported

/-- A change ends; each context of the island that holds work has been frozen for 1,200 cc (R17, R216). -/
def endChange (cl : Nat) (w : Work) : Work :=
  match (w.dev.island cl).until_ with
  | none => w
  | some t =>
    if w.dev.now < t then w
    else
      let thaw (a : Work) (k : Nat) : Work :=
        let core := 16 * cl + k
        let bank := (a.core core).cur
        if (a.ctx core bank).busy then a.updCtx core bank fun c => { c.count 2 1200 with frz := c.frz + 1200, frozen := true } else a
      ((List.range 16).foldl thaw w).updIsland cl fun i => { i with until_ := none }

-- Sensors (R31 to R33, R149)

/-- cw.therm from a junction reading and the highest layer reading, in 0.25 C (R33). -/
def thermOf (tj tl : Int) : Nat := (min 255 (min (256 * (420 - tj) / 240) (256 * (340 - tl) / 160))).toNat

/-- An action that begins at a threshold and ends below another. -/
def hysteresis (was : Bool) (on off t : Int) : Bool := decide (on ≤ t) || (was && decide (off ≤ t))

/-- The highest of a cluster's layer readings. -/
def hottestLayer (d : Dev) (cl : Nat) : Int :=
  (List.range 8).foldl (fun m n => max m (d.layer.get (8 * cl + n) 180)) (d.layer.get (8 * cl) 180)

/-- Pre-emption requests with cause 52 on the quires of a cluster that run a task of a launch with ROT = 1 (R149). -/
def Work.rotate (w : Work) (cl : Nat) : Work :=
  let hit (key : Nat) (c : Ctx) : Bool :=
    decide (coreCluster (key / 2) = cl) && c.busy && !c.ebb && (w.dev.launch c.ix).rot && decide (c.ppend = 0)
  w.mapDev fun d => { d with ctxs := d.ctxs.map fun p => (p.1, if hit p.1 p.2 then { p.2 with ppend := 52 } else p.2) }

/-- One cluster's actions at a sample (R32, R33). -/
def Work.sampleCluster (w : Work) (cl : Nat) : Work :=
  let d := w.dev
  let tj := d.junc.get cl 180
  let zero := (List.range 8).foldl (fun t n =>
    t.set (8 * cl + n) (hysteresis (d.zero95.get (8 * cl + n) false) 380 360 (d.layer.get (8 * cl + n) 180))) d.zero95
  let dref := (List.range 8).foldl (fun t n =>
    t.set (8 * cl + n) (hysteresis (d.dref.get (8 * cl + n) false) 340 328 (d.layer.get (8 * cl + n) 180))) d.dref
  let forced := (List.range 8).any fun n => zero.get (8 * cl + n) false
  let th := if forced then 0 else thermOf tj (hottestLayer d cl)
  let before := d.therm.get cl 255
  let w1 := (w.mapDev fun e => { e with zero95 := zero, dref := dref, therm := e.therm.set cl th }).updIsland cl
    fun i => let h := hysteresis i.hot 420 400 tj; { i with hot := h, back := (i.hot || i.back) && !h }
  let w2 := w1.staleCluster cl fun b => decide (32 < (tj - b.calTemp).natAbs)
  if th = 0 ∧ before ≠ 0 then w2.rotate cl else w2

/-- A sample of all sensors: 32 junction readings and then the 256 layer readings, in steps of 0.25 C; readings not
given stay (R31). -/
def sampleSensors (readings : List Int) (w : Work) : Work :=
  let w1 := w.mapDev fun d => { d with
    junc := (List.range 32).foldl (fun t k => t.set k (readings.getD k (d.junc.get k 180))) d.junc
    layer := (List.range 256).foldl (fun t k => t.set k (readings.getD (32 + k) (d.layer.get k 180))) d.layer }
  let w2 := ((List.range 32).foldl Work.sampleCluster w1).changeIslands
  if readings.any fun t => decide (460 ≤ t) then
    w2.mapDev fun d => { d with mode := .tripped, host := { d.host with irq := true } }
  else w2

-- Vertical buses (R22 to R26)

/-- Change a column. -/
def Work.updColumn (w : Work) (col : Nat) (f : Column → Column) : Work :=
  w.mapDev fun d => { d with cols := d.cols.set col (f (d.column col)) }

/-- A half of the lane groups has no unrepaired failure (R25). -/
def halfWhole (c : Column) (lo : Nat) : Bool := (List.range 32).all fun k => decide (c.lost.get (lo + k) 0 ≤ 1)

/-- The reference cycles that 1,200 cycles of a cluster's core clock last (R6, R10, R24). -/
def retrainTime (d : Dev) (cl : Nat) : Nat := (1200 * 24 + (d.island cl).op - 1) / (d.island cl).op

/-- A column after a lane of a group has failed at run time (R23 to R25): the spare is steered in, or the bus goes to
half width, and it retrains until `until_`; or the column has failed. -/
def Column.loseLane (c : Column) (group until_ : Nat) : Column :=
  let c1 := { c with lost := c.lost.set group (c.lost.get group 0 + 1) }
  if c.bus = 3 then c1
  else if c1.lost.get group 0 = 1 then { c1 with bus := if c.bus = 0 then 1 else c.bus, retrain := some until_ }
  else if halfWhole c1 0 ∨ halfWhole c1 32 then { c1 with bus := 2, retrain := some until_ }
  else { c1 with bus := 3, retrain := none }

/-- A lane of a group of a column's bus fails (R24). -/
def failLane (col group : Nat) (w : Work) : Work :=
  w.updColumn col fun c => c.loseLane group (w.dev.now + retrainTime w.dev (coreCluster col))

/-- A retrain ends (R24). -/
def endRetrain (col : Nat) (w : Work) : Work :=
  match (w.dev.column col).retrain with
  | none => w
  | some t => if w.dev.now < t then w else w.updColumn col fun c => { c with retrain := none }

-- Die boundaries (R27, R28, R120, R143)

/-- The two dies of a boundary, numbered D0-D1, D2-D3, D0-D2, D1-D3 (R16). -/
def boundaryDies (b : Nat) : Nat × Nat :=
  match b with
  | 0 => (0, 1)
  | 1 => (2, 3)
  | 2 => (0, 2)
  | _ => (1, 3)

/-- A die has lost both of its boundaries. -/
def dieCut (d : Dev) (die : Nat) : Bool :=
  (List.range 4).all fun b =>
    let e := boundaryDies b
    (decide (e.1 ≠ die) && decide (e.2 ≠ die)) || decide (16 ≤ d.bounds.get b 0)

/-- Queue operations in flight or waiting that can no longer reach their homes end with cause 22 (R120). -/
def Work.cutQueues (w : Work) : Work :=
  w.dev.ctxs.foldl (fun a p =>
    let core := p.1 / 2
    let bank := p.1 % 2
    (p.2.qops.filter fun q => !reachable w.dev (coreDie core) q.home).foldl (fun b q =>
      if q.form = 0x40 then (b.updCtx core bank fun c => { c with
        qb := c.qb.set q.bnd { st := .failed 22 q.pc, handle := q.handle }
        qops := c.qops.filter fun x => decide (x.id ≠ q.id) })
      else
        let b1 := if q.waiting.isSome then b.withdraw q.cb core bank q.id else b
        b1.answerOp core bank q.id (.refused 22) none 0) a) w

/-- A launch has tasks on a die: in its range, held by it, or running there (R143). -/
def tasksOnDie (d : Dev) (ix die : Nat) : Bool :=
  let l := d.launch ix
  let r := l.ranges.get die (0, 0)
  decide (r.1 < r.2) || (l.held.any fun h => decide (h.die = die)) || (l.again.any fun h => decide (h.2 = die)) ||
    ((running d ix).any fun p => decide (coreDie p.1 = die))

/-- The launches with tasks on an isolated die fail with cause 47, their tasks there being cancelled (R143). -/
def Work.failOnDie (w : Work) (die : Nat) : Work :=
  ((List.range 64).filter fun ix => decide ((w.dev.launch ix).st = 2) && tasksOnDie w.dev ix die).foldl (fun a ix =>
    let gone := (running a.dev ix).filter fun p => decide (coreDie p.1 = die)
    let a1 := gone.foldl (fun b p => b.releaseOne (quireOf a.dev p.1 p.2) p.2 p.1) a
    a1.failLaunch ix 47) w

/-- Steals whose dies no route joins any more fail with cause 54, and the thief may choose again (R143). -/
def Work.failSteals (w : Work) : Work :=
  w.dev.launches.foldl (fun a p => p.2.steals.foldl (fun b s =>
    if joined b.dev s.thief s.victim then b
    else (b.updLaunch p.1 fun x => { x with steals := x.steals.filter fun y => decide (y ≠ s) }).logError 54 p.2.part
      (20480 + s.thief) p.1) a) w

/-- A lane bundle of a boundary fails. With the last of its 16 the boundary has failed: queue operations and steals that no
route carries any more end, and a die that has lost both boundaries is isolated (R28, R120, R143). -/
def loseBundle (b : Nat) (w : Work) : Work :=
  let before := w.dev.bounds.get b 0
  let w1 := w.mapDev fun d => { d with bounds := d.bounds.set b (min 16 (before + 1)) }
  if before ≠ 15 then w1
  else
    let newly := (List.range 4).filter fun k => dieCut w1.dev k && !w1.dev.isolated.contains k
    newly.foldl Work.failOnDie
      ((w1.mapDev fun d => { d with isolated := d.isolated ++ newly }).cutQueues).failSteals

-- Peer ports (R30, R158, R193)

/-- Change a port. -/
def Work.updPort (w : Work) (port : Nat) (f : Port → Port) : Work :=
  w.mapDev fun d => { d with ports := d.ports.set port (f (d.ports.get port {})) }

/-- A port is declared down: the remote translations tagged with its link are shot down (R30). -/
def takePortDown (port : Nat) (w : Work) : Work :=
  let remote (e : TlbEntry) : Bool :=
    decide (regionOf e.frame = .peer) && decide (w.dev.routes.get? (bits e.frame 49 38) = some port)
  (w.updPort port fun p => { p with up := false }).mapDev fun d => { d with
    cores := d.cores.map fun c => (c.1, { c.2 with tlb := c.2.tlb.filter fun e => !remote e }) }

/-- A flit fails its CRC and is replayed; more than 32 replays within 1 ms take the port down (R30). -/
def replayFlit (port : Nat) (w : Work) : Work :=
  let p := w.dev.ports.get port {}
  let recent := w.dev.now :: p.replays.filter fun t => decide (w.dev.now < t + 600000)
  let w1 := w.updPort port fun q => { q with replays := recent }
  if 32 < recent.length ∧ p.up then takePortDown port w1 else w1

/-- A port comes back up under a new link tag (R30). -/
def takePortUp (port : Nat) (w : Work) : Work :=
  if (w.dev.ports.get port {}).up then w
  else w.updPort port fun p => { up := true, tag := p.tag + 1, replays := [] }

/-- A peer's access to this device's memory (R193): refused with an error completion where the address is none of
stacked memory that is powered and reachable, lies in a private granule (R166), or in a secure one (R69). -/
def peerRequest (port : Nat) (req : MemReq) (w : Work) : Work :=
  if (w.dev.ports.get port {}).up = false then w.reply .linkError
  else if rangeFault w.dev (portDie port) req.addr req.len false ≠ 0 ∨ anyPrivate w.dev req.addr req.len ∨
      anySecure w.dev req.addr req.len then w.reply .linkError
  else if outsideWaits w.dev req.addr req.len (decide (req.kind = 1)) then
    (w.snoopLines req.addr req.len).askAgain 2 port req
  else w.outsideAccess (portAgent port) req .linkError

/-- The host driver sets the package envelope (R34). -/
def execSetEnvelope (watts : Nat) (σ : State) : Host.Outcome State Fault Refusal :=
  .next (chooseEnvelope watts (Work.begin σ)).commit

/-- The power managers act on an estimate of the package's draw (R34). -/
def execPowerEstimate (draw : Nat) (σ : State) : Host.Outcome State Fault Refusal :=
  .next (estimatePower draw (Work.begin σ)).commit

/-- An island's change of operating point ends, and its cores resume (R17). -/
def execOperatingPointChangeDone (island : Nat) (σ : State) : Host.Outcome State Fault Refusal :=
  .next (endChange island (Work.begin σ)).commit

/-- The sensors are sampled (R31 to R33, R149, R251). -/
def execSensorSample (readings : List Int) (σ : State) : Host.Outcome State Fault Refusal :=
  .next (sampleSensors readings (Work.begin σ)).commit

/-- A lane of a column's bus fails at run time (R24, R25). -/
def execLaneFailure (col : Nat) (group : Nat) (σ : State) : Host.Outcome State Fault Refusal :=
  .next (failLane col group (Work.begin σ)).commit

/-- A retrain of a column's bus ends (R24). -/
def execVerticalBusRetrainDone (col : Nat) (σ : State) : Host.Outcome State Fault Refusal :=
  .next (endRetrain col (Work.begin σ)).commit

/-- A lane bundle of a die boundary fails (R28, R120, R143). -/
def execLaneBundleFailure (bnd : Nat) (σ : State) : Host.Outcome State Fault Refusal :=
  .next (loseBundle bnd (Work.begin σ)).commit

/-- A peer flit fails its CRC and is replayed (R30). -/
def execPeerFlitCrcFail (port : Nat) (σ : State) : Host.Outcome State Fault Refusal :=
  .next (replayFlit port (Work.begin σ)).commit

/-- A port loses lock and is declared down (R30). -/
def execPeerPortDown (port : Nat) (σ : State) : Host.Outcome State Fault Refusal :=
  .next (takePortDown port (Work.begin σ)).commit

/-- A port comes up (R30). -/
def execPeerPortUp (port : Nat) (σ : State) : Host.Outcome State Fault Refusal :=
  .next (takePortUp port (Work.begin σ)).commit

/-- A peer's access arrives (R69, R166, R193). -/
def execPeerRequest (port : Nat) (req : MemReq) (σ : State) : Host.Outcome State Fault Refusal :=
  .next (peerRequest port req (Work.begin σ)).commit

end Sys2Proof.Machine
end

