-- ==== Sys2Proof/Machine/Bringup.lean ====
section
/-! DEFINITION. Bring-up after reset and the recovery interface (R2, R3, R36 to R38, R80, R81). -/

namespace Sys2Proof.Machine

-- Memory encryption and zeroing (R66, R67, R69)

/-- The number of the key that a slot has now: 0 to 15 the partitions', 16 that of what no partition owns (R67). -/
def Dev.keyNumber (d : Dev) (slot : Nat) : Nat := slot + 17 * d.keyGen.get slot 0

/-- What waits stands in a granule: a line that the guest or the host holds, or that a guest's translation or a live extent came
from (R50, R53, R141, R163). -/
def granuleWaits (d : Dev) (g : Nat) : List Nat :=
  let ls := d.sock.dir.map (·.line) ++ d.host.dir.map (·.line) ++ (d.sock.tlb ++ d.sock.stale).flatMap (·.lines) ++
    d.sock.ctl.flatMap (·.lines) ++ (d.ctxs.flatMap fun p => p.2.ext.flatMap fun e => e.2.lines) ++
    d.coh.flipping.map (· * 64) ++ [g * 32768]
  ls.filter fun l => decide (l / 32768 = g) && writeWaits d l

/-- The writing of a granule waits for its lines. -/
def Work.awaitGranule (w : Work) (g : Nat) : Work := (granuleWaits w.dev g).foldl (fun a l => a.waitFor true l) w

/-- A granule is written with zeros through its owner's key (R66 step 2): no copy, mark or tag of it stays. -/
def Work.zeroGranule (w : Work) (g : Nat) : Work :=
  let base := g * 2 ^ 21
  let w1 := ((w.sweepLines base (2 ^ 21)).zeroKeys (Key.phys base) (2 ^ 21)).cleanRange base (2 ^ 21)
  let w2 := w1.mapDev fun d => { d with dataKeys := d.dataKeys.del g }
  if regionOf base = .stacked then
    w2.updColumn (columnOf base) fun c => { c with tags := c.tags.del (g % 256) }
  else w2

/-- The key of a granule changes from that of one owner to that of another: what was written there reads as other data from then on
(R67). Of the host window only what a partition owns is encrypted. -/
def Work.rekey (w : Work) (g : Nat) (old new : Nat) : Work :=
  let base := g * 2 ^ 21
  let ks := [old, new].filter fun s => decide (s < 16) || decide (regionOf base = .stacked)
  (w.sweepLines base (2 ^ 21)).mapDev fun d => { d with
    dataKeys := d.dataKeys.set g (d.dataKeys.get g [] ++ ks.map d.keyNumber) }

/-- The granules of a list of ranges. -/
def granuleList (rs : List (Nat × Nat)) : List Nat := rs.flatMap fun r => (List.range r.2).map fun k => r.1 + k

/-- The partitions end with a reset: their granules are under the key of what no partition owns, and those of the secure world,
which they leave, are scrubbed first (R67, R69). -/
def Work.dropPartitions (w : Work) : Work :=
  w.dev.parts.foldl (fun a p => (granuleList p.2.granules).foldl (fun b g =>
    (if inRanges b.dev.secGran g then b.zeroGranule g else b).rekey g p.1 16) a) w

-- Configuration records (R36, R37)

/-- A copy is accepted, but for its serial (R37, R70). -/
def FlashCopy.accepted (x : FlashCopy) (minVer : Tab Nat) : Bool :=
  x.good && x.signed && decide (minVer.get x.kind 0 ≤ x.version)

/-- The better of two accepted copies: the higher version, A where they are equal (R37). -/
def betterCopy (a b : FlashCopy) : FlashCopy :=
  if a.version < b.version ∨ (a.version = b.version ∧ b.copy < a.copy) then b else a

/-- The copy of a kind that is used, among those whose serial may be accepted (R37). -/
def usedCopy (d : Dev) (kind : Nat) (serial : Option Nat) : Option FlashCopy :=
  (d.flash.filter fun x => decide (x.kind = kind) && x.accepted d.minVer && (match serial with
    | none => true
    | some n => decide (x.serial = n))).foldl (fun best x => match best with
      | none => some x
      | some y => some (betterCopy y x)) none

/-- The records in force by kind, each under the serial of the identity record (R37). -/
def recordInForce (d : Dev) (kind : Nat) : Option FlashCopy :=
  match usedCopy d 1 none with
  | none => none
  | some one => if kind = 1 then some one else usedCopy d kind (some one.serial)

-- Bring-up (R38)

/-- A record's body, where it is not the factory's. -/
def bodyOf (x : Option FlashCopy) : Option Nat := x.bind FlashCopy.body

/-- A column after the training of its bus and the check of its remap table (R23, R38 steps 4 and 5, R181): failed lanes
stay failed; of the table's three copies `bad` are found bad, and with none whole the column has failed until the firmware has
rebuilt the table. -/
def Column.train (c : Column) (seeds : List (Nat × Nat)) (bad : Nat) : Column :=
  let lost := seeds.foldl (fun t s => t.set s.1 (max s.2 (t.get s.1 0))) c.lost
  let c1 : Column := { lost := lost, remapped := c.remapped }
  let bus := if lost.any fun g => decide (2 ≤ g.2) then (if halfWhole c1 0 || halfWhole c1 32 then 2 else 3)
             else if lost.any fun g => decide (g.2 = 1) then 1 else 0
  { c1 with bus := bus, wiped := c.wiped, whole := c.whole
            rbad := if bad = 3 then 3 else 0, rfail := decide (bad = 3) }

/-- The copies of a column's remap table that are found bad at bring-up: all three where they were before, else a number that the
spec leaves open, free for each column and reset (R181, notes/assumptions/67.md). -/
def badCopies (d : Dev) (k : Nat) : Nat := if (d.column k).rfail then 3 else Config.freeValue (d.fresh + k) % 4

/-- The columns whose remap tables have had a bad copy at bring-up are entered in the error ring (R181). -/
def Dev.noteCopies (d : Dev) : Dev :=
  let ring := ((List.range 512).filter fun k => decide (badCopies d k ≠ 0)).map fun k =>
    ({ cause := 44, part := 16, agent := k, time := d.now, value := 0 } : ErrEntry)
  { d with errRing := (ring.reverse ++ d.errRing).take 64, fresh := d.fresh + 512 }

/-- The columns after training. -/
def trainedColumns (d : Dev) : Tab Column :=
  let seeds (k : Nat) : List (Nat × Nat) := match bodyOf (recordInForce d 3) with
    | none => []
    | some b => Config.recordLanes b k
  (List.range 512).map fun k => (k, (d.column k).train (seeds k) (badCopies d k))

/-- What outlasts a reset: the flash and its minimum versions, the keys drawn so far, the package's damage and wiring, the
temperatures, the model's own counter, and what waits outside. -/
def Dev.keep (d : Dev) : Dev :=
  { flash := d.flash, minVer := d.minVer, keyGen := d.keyGen, fresh := d.fresh, inputs := d.inputs, bounds := d.bounds,
    dataKeys := d.dataKeys, cols := d.cols, routes := d.routes, junc := d.junc, layer := d.layer }

/-- The device stops in bring-up at a step and answers only through the recovery interface (R38, R80). -/
def Dev.stopAt (d : Dev) (step : Nat) : Dev := { d with mode := .recovery, step := step, failed := step }

/-- What a list of numbers taken from a record's body holds, where it is not the factory's. -/
def bodyList (f : Nat → List Nat) (x : FlashCopy) : List Nat :=
  match x.body with
  | none => []
  | some b => f b

/-- The part number that a record of kind 2 gives; the factory's is the CG4-512 (Table 0.1). -/
def partNumber (x : FlashCopy) : Nat :=
  match x.body with
  | none => 512
  | some b => Config.recordPart b

/-- The record of kind 2 describes one of the two parts of Table 0.1: it disables no core site, or exactly two of each
cluster, and no slice and no column. What any other record does is left open; the model stops at step 6 (R1 to R3, R38;
notes/assumptions/94.md). -/
def enablementOk (x : FlashCopy) : Bool :=
  let off := bodyList Config.recordCores x
  let per (n : Nat) : Bool := (List.range 32).all fun cl =>
    decide ((((List.range 16).map fun k => 16 * cl + k).filter fun k => off.contains k).length = n)
  (bodyList Config.recordSlices x).isEmpty && (bodyList Config.recordColumns x).isEmpty &&
    ((decide (partNumber x = 512) && per 0) || (decide (partNumber x = 448) && per 2))

/-- A policy core as it begins to run an image of some version, verified and loaded (R38, R83). -/
def loadedPolicy (version : Nat) : PolicyCore :=
  { regs := (Config.policyStart version).2, pc := (Config.policyStart version).1
    tcm := Config.policyMemory version % 2 ^ (8 * 262144) }

/-- The steps of Table 1.8. -/
def Dev.bringUp (d0 : Dev) : Dev :=
  let d := d0.keep
  match recordInForce d 1, recordInForce d 2, recordInForce d 3 with
  | some one, some two, some _ =>
    match usedCopy d 0 none with
    | none => d.stopAt 2
    | some image =>
      let held := (recordInForce d 4).isNone
      -- steps 1 to 5
      let d1 : Dev := { (Dev.noteCopies d) with
        serialNo := one.serial
        partNo := partNumber two
        envelope := if held then 900 else 1500
        envHeld := held
        policyCores := (List.range 4).map fun die => (die, loadedPolicy image.version)
        isolated := (List.range 4).filter fun k => dieCut d k
        cols := trainedColumns d }
      if enablementOk two then { d1 with
        coresOff := bodyList Config.recordCores two
        slicesOff := bodyList Config.recordSlices two
        colsOff := bodyList Config.recordColumns two
        mode := .running
        step := 255 }
      else d1.stopAt 6
  | _, _, _ => d.stopAt 1

/-- The device is reset and takes the steps of Table 1.8; the recovery window and staging buffer are emptied (R38,
R81). -/
def resetDevice (w : Work) : Work :=
  ((w.dropPartitions.zeroKeys (Key.recBuf 0) 0x100000).zeroKeys (Key.recWin 0) 0x10000).mapDev Dev.bringUp

-- The recovery registers (Table 3.8, R81)

/-- Change the recovery registers. -/
def Work.updRecovery (w : Work) (f : Recovery → Recovery) : Work :=
  w.mapDev fun d => { d with recovery := f d.recovery }

/-- A write of CMD while ST is busy is ignored (R81). -/
def Work.command (w : Work) (f : Work → Work) : Work := if w.dev.recovery.st = 1 then w else f w

/-- A command ends done, or refused with WHY. -/
def Work.endCommand (w : Work) (why : Nat) : Work :=
  w.updRecovery fun r => { r with st := if why = 0 then 2 else 3, why := why, storing := none }

/-- The staging buffer is emptied (R81). -/
def Work.emptyStaging (w : Work) : Work :=
  (w.zeroKeys (Key.recBuf 0) 0x100000).updRecovery fun r => { r with slen := 0 }

/-- CMD 5 (R81): the window holds 65,536 bytes. LEN is at most 65,536 by Table 3.8, though its field is wider; of a greater
LEN the model appends the window's bytes and counts LEN in SLEN (DESIGN CHOICE, notes/assumptions/100.md; unsafe). -/
def appendWindow (w : Work) : Work :=
  let r := w.dev.recovery
  if 0x100000 < r.off + r.len then w.endCommand 5
  else
    let n := min r.len 65536
    ((w.writeN (Key.recBuf r.off) n (w.readN (Key.recWin 0) n)).updRecovery fun x =>
      { x with slen := max x.slen (r.off + r.len) }).endCommand 0

/-- CMD 2 and 3 (R81): the staged object begins to be stored. -/
def beginStore (kind : Nat) (w : Work) : Work :=
  let r := w.dev.recovery
  if r.slen = 0 then w.endCommand 3
  else w.updRecovery fun x => { x with st := 1, why := 0, storing := some (kind, w.readN (Key.recBuf 0) r.slen) }

/-- Why a staged firmware image is refused, or 0 (R70, R81). -/
def imageRefused (d : Dev) (obj : Nat) : Nat :=
  if Config.signatureOk 0 obj = false then 1
  else if Config.imageVersion obj < d.minVer.get 0 0 then 2
  else 0

/-- Why a staged configuration record of some length is refused, or 0 (Table 1.7, R37, R81); the serial is that of the identity
record in force, where there is one. -/
def recordRefused (d : Dev) (len obj : Nat) : Nat :=
  let f (off n : Nat) : Nat := packedBytes obj off n
  let kind := f 4 2
  if len < 32 ∨ f 0 4 ≠ 0x43474346 ∨ kind = 0 ∨ 4 < kind ∨ f 6 2 ≠ 0 ∨ f 28 4 ≠ 0 ∨ 65536 < f 24 4 ∨
      len ≠ 32 + f 24 4 + 64 + 3309 ∨ ((recordInForce d 1).any fun one => decide (f 16 8 ≠ one.serial)) then 3
  else if Config.signatureOk 0 obj = false then 1
  else if f 8 8 < d.minVer.get kind 0 then 2
  else 0

/-- Both flash copies hold a new object, and the stored minimum version rises (R37, R81). -/
def Work.putFlash (w : Work) (kind version serial body digest : Nat) : Work :=
  w.mapDev fun d =>
    let new (k : Nat) : FlashCopy :=
      { kind := kind, copy := k, version := version, serial := serial, body := some body,
        digest := some digest }
    { d with flash := new 0 :: new 1 :: d.flash.filter fun x => decide (x.kind ≠ kind)
             minVer := d.minVer.set kind version }

/-- A store to flash finishes (R81); whether the flash writes fail is free. -/
def endStore (w : Work) : Work :=
  match w.dev.recovery.storing with
  | none => w
  | some (kind, obj) =>
    let len := w.dev.recovery.slen
    let f := w.free
    let why0 := if kind = 2 then imageRefused w.dev obj else recordRefused w.dev len obj
    let why := if why0 = 0 ∧ f.1 % 2 = 1 then 4 else why0
    let w1 := f.2
    let w2 := if why ≠ 0 then w1
      else if kind = 2 then w1.putFlash 0 (Config.imageVersion obj) 0 obj (sha384 obj len)
      else w1.putFlash (packedBytes obj 4 2) (packedBytes obj 8 8) (packedBytes obj 16 8) (packedBytes obj 32 (packedBytes obj 24 4))
        (sha384 obj len)
    w2.emptyStaging.endCommand why

/-- Reset and bring-up (R38). -/
def execDeviceReset (σ : State) : Host.Outcome State Fault Refusal :=
  .next (resetDevice (Work.begin σ)).commit

/-- Recovery CMD 2 (R81). -/
def execStoreFirmwareImage (σ : State) : Host.Outcome State Fault Refusal :=
  .next ((fun (w : Work) => w.command (beginStore 2)) (Work.begin σ)).commit

/-- Recovery CMD 3 (R81). -/
def execStoreConfigurationRecord (σ : State) : Host.Outcome State Fault Refusal :=
  .next ((fun (w : Work) => w.command (beginStore 3)) (Work.begin σ)).commit

/-- Recovery CMD 4 (R80). -/
def execResetDevice (σ : State) : Host.Outcome State Fault Refusal :=
  .next ((fun (w : Work) => w.command resetDevice) (Work.begin σ)).commit

/-- Recovery CMD 5 (R81). -/
def execAppendStaging (σ : State) : Host.Outcome State Fault Refusal :=
  .next ((fun (w : Work) => w.command appendWindow) (Work.begin σ)).commit

/-- Recovery CMD 6 (R81). -/
def execEmptyStagingBuffer (σ : State) : Host.Outcome State Fault Refusal :=
  .next ((fun (w : Work) => w.command fun x => x.emptyStaging.endCommand 0) (Work.begin σ)).commit

/-- A store to flash finishes (R81). -/
def execRecoveryStoreDone (σ : State) : Host.Outcome State Fault Refusal :=
  .next (endStore (Work.begin σ)).commit

end Sys2Proof.Machine
end

