-- ==== Sys2Proof/Machine/MemEvents.lean ====
section
/-! DEFINITION. Events of the memory system: the floor of logical times, page-table writes, publishes, the swap engine,
row repair and layers (R163, R169, R178 to R182, R191). -/

namespace Sys2Proof.Machine

/-- The package floor rises to the largest cw.lts less 2^61, and every lower cw.lts to it (R191). -/
def raiseFloor (w : Work) : Work :=
  let top := w.dev.ctxs.foldl (fun m p => max m p.2.lts) 0
  let floor := max w.dev.coh.floor (top - 2 ^ 61)
  w.mapDev fun d => { d with
    coh := { d.coh with floor := floor, floorAt := d.now }
    ctxs := d.ctxs.map fun p => (p.1, { p.2 with lts := max p.2.lts floor }) }

-- Accesses performed by their rows

/-- The access is a write to a line. -/
def Access.writes (a : Access) (l : Nat) : Bool :=
  decide (a.pa / 64 = l) && (match a.kind with
    | .store _ _ => true
    | .atomic _ _ _ _ _ _ => true
    | .load _ _ _ => false
    | .prefetch _ => false
    | .range _ _ => false
    | .publish _ _ _ => false)

/-- A context whose oldest access is a write to a line and may be performed. -/
def writerOf (w : Work) (l : Nat) : Option (Nat × Nat) :=
  (w.dev.ctxs.find? fun p =>
    (match p.2.accs with
      | [] => false
      | a :: _ => a.writes l) && w.accessReady (p.1 / 2) (p.1 % 2)).map fun p => (p.1 / 2, p.1 % 2)

/-- A pending write to a line that translations came from is performed: they are recalled, and contexts parked on the
line wake (R163, R225). -/
def writeTableLine (l : Nat) (w : Work) : Work :=
  match writerOf w l with
  | none => w
  | some x => w.performAccess x.1 x.2

/-- The oldest access of a context is a publish. -/
def Ctx.publishes (c : Ctx) : Bool :=
  match c.accs with
  | [] => false
  | a :: _ => match a.kind with
    | .publish _ _ _ => true
    | .store _ _ => false
    | .atomic _ _ _ _ _ _ => false
    | .load _ _ _ => false
    | .prefetch _ => false
    | .range _ _ => false

/-- The oldest publish of a context is performed (R169). -/
def publishNow (core bank : Nat) (w : Work) : Work :=
  if (w.ctx core bank).publishes ∧ w.accessReady core bank then w.performAccess core bank else w

-- The swap engine (R178, R179)

/-- Two ranges of bytes meet. -/
def meets (a n b m : Nat) : Bool := decide (a < b + m) && decide (b < a + n)

/-- Some adopted control block, or the ring of one, which it names by its physical address, lies in a frame. -/
def holdsBlock (w : Work) (f size : Nat) : Bool :=
  w.dev.homes.any fun p => meets p.1 64 f size ||
    meets (w.block p.1).ring (2 ^ ((w.block p.1).elog + (w.block p.1).field 6 1)) f size

/-- An exchange that the engine takes (R178), its frames joined by a route (R28). -/
def exchangeOk (w : Work) (die f1 f2 size : Nat) : Bool :=
  let d := w.dev
  (decide (size = 4096) || decide (size = 65536) || decide (size = 0x200000)) &&
    decide (f1 % size = 0) && decide (f2 % size = 0) && decide (f1 ≠ f2) &&
    decide (regionOf f1 = .stacked) && decide (columnOf f1 / 128 = die) &&
    (decide (regionOf f2 = .stacked) || decide (regionOf f2 = .host)) &&
    joined d die (homeDie d f2) && (d.coh.swaps.all fun x => decide (x.die ≠ die)) &&
    !anyPrivate d f1 size && (decide (regionOf f2 = .host) || !anyPrivate d f2 size) &&
    !holdsBlock w f1 size && !holdsBlock w f2 size

/-- Change the exchange of a die. -/
def Work.updSwap (w : Work) (die : Nat) (f : Swap → Swap) : Work :=
  w.updCoh fun c => { c with swaps := c.swaps.map fun x => if x.die = die then f x else x }

/-- Bytes copied from one key to another, n of them, each read and written through the key of its owner (R67, R178). -/
def Work.copyKeys (w : Work) (src dst : Nat) : Nat → Work
  | 0 => w
  | n + 1 => ((w.put dst (w.seen src)).copyKeys (src + 1) (dst + 1)) n

/-- The next chunk of an exchange is read into the buffer (R178 steps 1 and 2). -/
def Work.beginChunk (w : Work) (x : Swap) : Work :=
  let off := 4096 * x.done
  if x.size ≤ off then w
  else
    let w1 := (w.sweepLines (x.f1 + off) 4096).sweepLines (x.f2 + off) 4096
    let w2 := (w1.copyKeys (Key.phys (x.f1 + off)) (Key.swapBuf x.die 0 0) 4096).copyKeys
      (Key.phys (x.f2 + off)) (Key.swapBuf x.die 1 0) 4096
    w2.updSwap x.die fun y => { y with inFlight := true }

/-- The firmware starts an exchange; one that the engine refuses has no effect (R178). -/
def startExchange (die f1 f2 size : Nat) (w : Work) : Work :=
  if exchangeOk w die f1 f2 size then
    let x : Swap := { die := die, f1 := f1, f2 := f2, size := size }
    (w.updCoh fun c => { c with swaps := c.swaps ++ [x] }).beginChunk x
  else w

/-- A chunk's halves are written to the other frames, and the next chunk begins (R178 step 3); it waits while no route joins
the frames (R28). -/
def endChunk (die : Nat) (w : Work) : Work :=
  match w.dev.coh.swaps.find? fun x => decide (x.die = die) && x.inFlight with
  | none => w
  | some x =>
    if joined w.dev die (homeDie w.dev x.f2) = false then w else
    let off := 4096 * x.done
    let w1 := (w.copyKeys (Key.swapBuf die 0 0) (Key.phys (x.f2 + off)) 4096).copyKeys
      (Key.swapBuf die 1 0) (Key.phys (x.f1 + off)) 4096
    let y : Swap := { x with done := x.done + 1, inFlight := false }
    (w1.updSwap die fun _ => y).beginChunk y

/-- The poison marks of two sectors change places with their data. -/
def Work.swapMarks (w : Work) (s1 s2 : Nat) : Work :=
  let a := sectorPoison w.dev s1
  let b := sectorPoison w.dev s2
  if a = 0 ∧ b = 0 then w
  else
    let put (x : Work) (s m : Nat) : Work :=
      let y := x.cleanSectors (32 * s) 32
      if m = 0 then y else y.updCoh fun c => { c with poison := c.poison.set s m }
    put (put w s1 b) s2 a

/-- Two lines take one write time and lease end above both. -/
def Work.joinTimes (w : Work) (l1 l2 : Nat) : Work :=
  let a := w.dev.coh.line l1
  let b := w.dev.coh.line l2
  let t := max (max a.wts a.rts) (max b.wts b.rts)
  w.updCoh fun c => { c with lines := (c.lines.set l1 { wts := t, rts := t }).set l2 { wts := t, rts := t } }

/-- Where the data of a frame are after an exchange, for a frame of 2^lg bytes inside one of the exchanged ones. -/
def exchanged (x : Swap) (lg frame : Nat) : Option Nat :=
  if x.size < 2 ^ lg then none
  else if x.f1 ≤ frame ∧ frame < x.f1 + x.size then some (x.f2 + (frame - x.f1))
  else if x.f2 ≤ frame ∧ frame < x.f2 + x.size then some (x.f1 + (frame - x.f2))
  else none

/-- An entry with its frame in bits 51 to 12 that names the frame that now holds the data. -/
def retarget (x : Swap) (lg e : Nat) : Nat :=
  match exchanged x lg (bits e 51 12 * 4096) with
  | none => e
  | some f => e % 2 ^ 12 + f / 4096 % 2 ^ 40 * 2 ^ 12 + e / 2 ^ 52 * 2 ^ 52

/-- The firmware writes an entry of a table, where it changes: a coherent write, with the recall of R163. -/
def Work.rewrite (w : Work) (a old new : Nat) : Work :=
  if old = new then w else (w.cohWrite (releaseTime w.dev) a 8 new).2

/-- The entries of a page table, from a level down, name the frames that now hold their data (R160, R179). -/
def Work.retargetTable (x : Swap) : Nat → Nat → Work → Work
  | 0, table, w => (List.range 512).foldl (fun a i =>
      let e := a.pread (table + 8 * i) 8
      if bit e 0 ∧ entryMalformed 0 e = false ∧ bits e 9 8 = 0 then
        a.rewrite (table + 8 * i) e (retarget x (leafLog 0 (bit e 10)) e)
      else a) w
  | k + 1, table, w => (List.range 512).foldl (fun a i =>
      let e := a.pread (table + 8 * i) 8
      if bit e 0 = false ∨ entryMalformed (k + 1) e then a
      else if bit e 1 then
        if bits e 9 8 = 0 then a.rewrite (table + 8 * i) e (retarget x (leafLog (k + 1) (bit e 10)) e) else a
      else (Work.retargetTable x k (bits e 51 12 * 4096) a).rewrite (table + 8 * i) e (retarget x 12 e)) w

/-- The entries of a handle table likewise, where the whole object moved (R167, R168). -/
def Work.retargetHandles (x : Swap) (htab n : Nat) (w : Work) : Work :=
  (List.range n).foldl (fun a i =>
    let e := a.pread (htab + 16 * i) 8
    let pages := a.pread (htab + 16 * i + 8) 4
    let whole := decide (bits e 51 12 * 4096 % x.size + pages * 2 ^ bits e 5 0 ≤ x.size)
    if bit e 6 ∧ whole then a.rewrite (htab + 16 * i) e (retarget x (bits e 5 0) e) else a) w

/-- A page, an object or a table of n bytes lies in an exchanged frame but is not wholly inside it: nothing that names it whole can
name both of its places. -/
def straddles (x : Swap) (base n : Nat) : Bool :=
  let inside (f : Nat) : Bool := decide (f ≤ base) && decide (base + n ≤ f + x.size)
  (meets base n x.f1 x.size && !inside x.f1) || (meets base n x.f2 x.size && !inside x.f2)

/-- A leaf of a page table, from a level down, names a page that straddles an exchanged frame. -/
def tableStraddles (w : Work) (x : Swap) : Nat → Nat → Bool
  | 0, table => (List.range 512).any fun i =>
      let e := w.pread (table + 8 * i) 8
      bit e 0 && !entryMalformed 0 e && decide (bits e 9 8 = 0) &&
        straddles x (bits e 51 12 * 4096) (2 ^ leafLog 0 (bit e 10))
  | k + 1, table => (List.range 512).any fun i =>
      let e := w.pread (table + 8 * i) 8
      if bit e 0 = false ∨ entryMalformed (k + 1) e then false
      else if bit e 1 then decide (bits e 9 8 = 0) && straddles x (bits e 51 12 * 4096) (2 ^ leafLog (k + 1) (bit e 10))
      else tableStraddles w x k (bits e 51 12 * 4096)

/-- A handle's object straddles an exchanged frame. -/
def handlesStraddle (w : Work) (x : Swap) (htab n : Nat) : Bool :=
  (List.range n).any fun i =>
    let e := w.pread (htab + 16 * i) 8
    bit e 6 && straddles x (bits e 51 12 * 4096) (w.pread (htab + 16 * i + 8) 4 * 2 ^ bits e 5 0)

/-- Everything that names an exchanged frame can be rewritten to name the frame that holds its data now. -/
def movable (w : Work) (x : Swap) : Bool :=
  w.dev.parts.all fun p => decide (p.2.st = 0) ||
    ((decide (p.2.root = 0) || !tableStraddles w x 4 p.2.root) && !handlesStraddle w x p.2.htab p.2.hcount &&
      !(decide (p.2.hcount ≠ 0) && straddles x p.2.htab (16 * p.2.hcount)))

/-- An address follows its data. -/
def exchangedAddr (x : Swap) (a : Nat) : Nat := (exchanged x 0 a).getD a

/-- A line follows its data. -/
def exchangedLine (x : Swap) (l : Nat) : Nat := exchangedAddr x (64 * l) / 64

/-- What a context watches and the words it has armed follow their data. -/
def Ctx.exchange (x : Swap) (c : Ctx) : Ctx :=
  { c with
    st := match c.st with
      | .parked (.line l t b) => .parked (.line (exchangedLine x l) t b)
      | .parked (.walk l t b) => .parked (.walk (exchangedLine x l) t b)
      | .entering e => .entering { e with
          park := e.park.map (exchangedLine x)
          watch := e.watch.map fun y => (exchangedLine x y.1, y.2.1, y.2.2) }
      | .parked (.queue l) => .parked (.queue l)
      | .parked (.woken b) => .parked (.woken b)
      | .idle => .idle
      | .ready => .ready
      | .reported => .reported
    armed := c.armed.map fun a => { a with pa := exchangedAddr x a.pa } }

/-- The words of the accepted commands follow their data. -/
def Core.exchange (x : Swap) (c : Core) : Core :=
  { c with
    ce := c.ce.map fun p => (p.1, mapCmds (fun y => { y with wordPa := exchangedAddr x y.wordPa }) p.2)
    strm := c.strm.map fun y => { y with wordPa := exchangedAddr x y.wordPa } }

/-- What the cores, the front ends and the schedulers hold by physical addresses of the exchanged frames names the places of the
data after the release (R179). -/
def Dev.exchange (x : Swap) (d : Dev) : Dev :=
  let line (o : Option Nat) : Option Nat := o.map (exchangedLine x)
  { d with
    ctxs := d.ctxs.map fun p => (p.1, p.2.exchange x)
    cores := d.cores.map fun p => (p.1, p.2.exchange x)
    streams := d.streams.map fun p => (p.1, { p.2 with watch := line p.2.watch })
    launches := d.launches.map fun p => (p.1, { p.2 with watch := line p.2.watch })
    fe := { d.fe with graphs := d.fe.graphs.map fun g => (g.1, { g.2 with
      watch := g.2.watch.map fun y => (y.1, exchangedLine x y.2) }) } }

/-- The exchange's release waits for the lines of its frames that the host's or the guest's caches hold. -/
def Work.awaitHolders (w : Work) (x : Swap) : Work :=
  let inside (l : Nat) : Bool := meets (64 * l) 64 x.f1 x.size || meets (64 * l) 64 x.f2 x.size
  ((w.dev.sock.dir ++ w.dev.host.dir).filter fun g => inside g.line).foldl (fun a g => a.waitFor true g.line) w

/-- The root or another table address that the firmware keeps follows its data. -/
def exchangedRoot (x : Swap) (a : Nat) : Nat := (exchanged x 12 a).getD a

/-- The firmware rewrites every table of every partition that names an exchanged frame (R179). -/
def Work.retargetAll (w : Work) (x : Swap) : Work :=
  w.dev.parts.foldl (fun a p =>
    if p.2.st = 0 then a
    else
      let a1 := if p.2.root = 0 then a else Work.retargetTable x 4 p.2.root a
      let a2 := Work.retargetHandles x p.2.htab p.2.hcount a1
      a2.mapDev fun d => { d with parts := d.parts.set p.1 { d.partOf p.1 with
        root := exchangedRoot x p.2.root, htab := exchangedAddr x p.2.htab } }) w

/-- The firmware releases a finished exchange: it has rewritten the page-table entries, and addresses name their own frames
again, with no copy of either (R179). An exchange under a page, an object or a block that cannot be named in its new places is not
released: the redirection goes on. -/
def releaseSwap (die : Nat) (w : Work) : Work :=
  match w.dev.coh.swaps.find? fun x => decide (x.die = die) && decide (x.done = x.size / 4096) with
  | none => w
  | some x =>
    if movable w x = false ∨ holdsBlock w x.f1 x.size ∨ holdsBlock w x.f2 x.size then w
    else
      let w0 := (w.retargetAll x).awaitHolders x
      let w1 := (w0.sweepLines x.f1 x.size).sweepLines x.f2 x.size
      let w2 := (List.range (x.size / 64)).foldl (fun a k => a.joinTimes (x.f1 / 64 + k) (x.f2 / 64 + k)) w1
      let w3 := (List.range (x.size / 32)).foldl (fun a k => a.swapMarks (x.f1 / 32 + k) (x.f2 / 32 + k)) w2
      (w3.mapDev (Dev.exchange x)).updCoh fun c => { c with swaps := c.swaps.filter fun y => decide (y.die ≠ die) }

-- Repair and layers (R180 to R182)

/-- The firmware remaps a row and rewrites the table's three copies; how many of them it finds bad is free. With none
whole the column fails with cause 44 (R180, R181). -/
def remapRow (col row : Nat) (w : Work) : Work :=
  let f := w.free
  let bad := f.1 % 4
  let w1 := f.2
  let w2 := if bad = 0 then w1 else w1.logError 44 16 col row
  if bad = 3 then w2.updColumn col fun c => { c with rbad := 3, rfail := true }
  else w2.updColumn col fun c => { c with rbad := 0, remapped := row :: c.remapped.filter fun x => decide (x ≠ row) }

/-- The firmware has rebuilt the remap table of a failed column, marked every line, and returned the column to service
(R181). -/
def Work.rebuildColumn (w : Work) (col : Nat) : Work :=
  if (w.dev.column col).rfail then
    w.updColumn col fun c => { c with rbad := 0, rfail := false, wiped := true, whole := [] }
  else w

/-- The register that number x names: s1 to s63 and v0 to v31, by the keys of their marks (R212). -/
def failedReg (x : Nat) : Nat := if x % 95 < 63 then x % 95 + 1 else x % 95 + 33

/-- An uncorrectable error arises (Table 9.5: causes 40 to 43). When and where the spec leaves open, so both are free: in a
register of a context, or in a sector of a core's local store, of a cluster's staging ways, of a line in a slice, or of
stacked memory (notes/assumptions/66.md). -/
def Work.decay (w0 : Work) : Work :=
  let f := w0.free
  let g := f.2.free
  let x := g.1
  let w := g.2
  let way := Key.staging (x % 32) 0 (32 * (x / 32 % 0x80000)) / 32
  match f.1 % 4 with
  | 0 => w.updCtx (x % 512) (x / 512 % 2) fun c => { c with mark := c.mark.set (failedReg (x / 1024)) 40 }
  | 1 =>
    let s := x / 512 % 0x8000
    w.updCore (x % 512) fun c => { c with lsBad := s :: c.lsBad.filter fun y => decide (y ≠ s) }
  | 2 => w.updCoh fun c => { c with errors := c.errors.set way 42 }
  | _ => w.updCoh fun c => { c with errors := c.errors.set (x / 2 % 2 ^ 33) (42 + x % 2) }

/-- The layers of a column that the allocated granules need: the least that cover them, and at least one (R182). -/
def neededLayers (d : Dev) (col : Nat) : Nat :=
  d.parts.foldl (fun m p => p.2.granules.foldl (fun k r =>
    let top := min (r.1 + r.2) (256 * col + 256)
    if 256 * col < top ∧ r.1 < top then max k ((top - 1 - 256 * col) / 32 + 1) else k) m) 1

/-- The firmware begins to power a further layer on, where an allocated granule needs it (R182). -/
def powerOn (col : Nat) (w : Work) : Work :=
  let c := w.dev.column col
  if neededLayers w.dev col ≤ c.layers ∨ c.powering.isSome then w
  else w.updColumn col fun x => { x with powering := some w.dev.now }

/-- The layer runs (R182). -/
def poweredOn (col : Nat) (w : Work) : Work :=
  if (w.dev.column col).powering.isNone then w
  else w.updColumn col fun c => { c with layers := c.layers + 1, powering := none }

/-- The top layer, which no allocated granule needs any more, is powered off (R182). -/
def powerDown (col : Nat) (w : Work) : Work :=
  let c := w.dev.column col
  if c.layers ≤ neededLayers w.dev col then w
  else (w.sweepLines (col * 2 ^ 29 + (c.layers - 1) * 2 ^ 26) (2 ^ 26)).updColumn col fun x =>
    { x with layers := x.layers - 1, powering := none }

/-- Every 1 ms the lowest logical times are raised to the floor (R191). -/
def execLtsFloorRaise (σ : State) : Host.Outcome State Fault Refusal :=
  .next (raiseFloor (Work.begin σ)).commit

/-- A write to a page-table line is performed (R163). -/
def execPageTableLineWrite (line : Nat) (σ : State) : Host.Outcome State Fault Refusal :=
  .next (writeTableLine line (Work.begin σ)).commit

/-- A posted publish is performed (R169, R170, R201, R321). -/
def execPublishPerformed (core : Nat) (bank : Nat) (σ : State) : Host.Outcome State Fault Refusal :=
  .next (publishNow core bank (Work.begin σ)).commit

/-- The firmware starts an exchange (R178). -/
def execSwapExchange (die : Nat) (f1 : Nat) (f2 : Nat) (size : Nat) (σ : State) : Host.Outcome State Fault Refusal :=
  .next (startExchange die f1 f2 size (Work.begin σ)).commit

/-- A chunk of an exchange is done (R178, R179). -/
def execSwapChunkDone (die : Nat) (σ : State) : Host.Outcome State Fault Refusal :=
  .next (endChunk die (Work.begin σ)).commit

/-- The firmware releases an exchange (R179). -/
def execSwapRelease (die : Nat) (σ : State) : Host.Outcome State Fault Refusal :=
  .next (releaseSwap die (Work.begin σ)).commit

/-- A row is remapped (R180, R181). -/
def execRowRemap (col : Nat) (row : Nat) (σ : State) : Host.Outcome State Fault Refusal :=
  .next (remapRow col row (Work.begin σ)).commit

/-- A further layer of a column is powered on (R182). -/
def execLayerPowerOn (col : Nat) (σ : State) : Host.Outcome State Fault Refusal :=
  .next (powerOn col (Work.begin σ)).commit

/-- The layer powered on runs (R182). -/
def execLayerPoweredOn (col : Nat) (σ : State) : Host.Outcome State Fault Refusal :=
  .next (poweredOn col (Work.begin σ)).commit

/-- The top layer of a column is powered off (R182). -/
def execLayerPowerDown (col : Nat) (σ : State) : Host.Outcome State Fault Refusal :=
  .next (powerDown col (Work.begin σ)).commit

end Sys2Proof.Machine
end

