-- ==== Sys2Proof/Machine/Service.lean ====
section
/-! DEFINITION. What the command front end does beside carrying packets: the copy services, graphs, calibration, bias flips,
the summary record, the clearing of queues and the watchdogs (R83, R95 to R98, R102, R77 to R79, R127). -/

namespace Sys2Proof.Machine

-- Copy services (R102)

/-- The copies that stand in a die's service queue or run. -/
def Dev.copies (d : Dev) (die : Nat) : List CopyJob := d.fe.jobs.get die []

/-- Change the front end beside the streams. -/
def Work.updFe (w : Work) (f : FrontEnd → FrontEnd) : Work := w.mapDev fun d => { d with fe := f d.fe }

/-- Change the copies of a die. -/
def Work.updCopies (w : Work) (die : Nat) (f : List CopyJob → List CopyJob) : Work :=
  w.updFe fun e => { e with jobs := e.jobs.set die (f (e.jobs.get die [])) }

/-- A COPY packet takes a place in the service queue of a die; it is to see all that was visible at a logical time. -/
def Work.addCopy (w : Work) (die : Nat) (t : Ticket) (p lts : Nat) : Work :=
  let job : CopyJob :=
    { id := w.dev.fe.serial, tk := t, part := t.part, src := packedBytes p 8 8, dst := packedBytes p 16 8,
      len := packedBytes p 24 8, lts := lts }
  (w.updCopies die fun js => js ++ [job]).updFe fun e => { e with serial := e.serial + 1 }

/-- A queue of the copy-service role has a whole packet at its head that its die's copy service has not taken. -/
def serviceDue (w : Work) (cb : Nat) : Bool :=
  let b := w.block cb
  decide (b.role = 3) && !(w.dev.homeOf cb).pois && decide (b.used ≠ 0) && pkV (w.pread (headSlot w cb) 2)

/-- COPY (R90, R102): the stream waits while the service queue is full. -/
def carryCopy (q : Nat) (w : Work) : Work :=
  match current w q 0x87 with
  | none => w
  | some p =>
    let die := feDie w q
    if 1024 ≤ serviceLoad w die then w
    else (w.asyncStart q).addCopy die (ticketOf w q p) p (w.dev.agentTime (feAgent die))

/-- The copies of a die that run. -/
def runningCopies (d : Dev) (die : Nat) : List CopyJob := (d.copies die).filter fun j => j.running

/-- A copy service starts the copy next in its queue, up to 16 at once (R102). -/
def startJob (die : Nat) (w : Work) : Work :=
  match (w.dev.copies die).find? fun j => !j.running with
  | none => w
  | some j =>
    if 16 ≤ (runningCopies w.dev die).length then w
    else
      let t := max j.lts (w.dev.agentTime (svcAgent die))
      (w.raiseAgent (svcAgent die) t).updCopies die fun js => js.map fun x => if x.id = j.id then { x with running := true, lts := t, wts := t } else x

/-- A packet from a queue of the copy-service role is one that a copy service carries out (R102). -/
def servicePacketOk (w : Work) (cb p : Nat) : Bool :=
  pkV p && pkCheck p && decide (pkKind p = 0x87) && reservedClear (clearV p) && inRange w.dev p &&
    decide (pkPart p = (w.block cb).owner)

/-- A copy service takes the next packet of a queue of its role homed on its die, once its V is set, into its one queue; one
that is no good COPY packet is entered in the error ring (R102; notes/assumptions/102.md). -/
def takeService (die cb : Nat) (w : Work) : Work :=
  let b := w.block cb
  if serviceDue w cb = false ∨ feDie w cb ≠ die then w
  else
    let r := w.atHome cb (queueSlice w cb) (w.dev.homeOf cb).handle (w.dev.agentTime (svcAgent die)) .device (.dequeue false)
    match r.1 with
    | .done _ p mark =>
      if mark ≠ 0 then r.2.logError 39 b.owner (svcAgent die) cb
      else if servicePacketOk w cb p then
        let t : Ticket := { part := pkPart p, cword := pkWord p, evt := pkEvt p, q := cb,
                            handle := (w.dev.homeOf cb).handle, seq := pkSeq p, loose := true }
        r.2.addCopy die t p (r.2.dev.homeOf cb).lts
      else r.2.logError 1 b.owner (svcAgent die) cb
    | .full => w
    | .empty => w
    | .waiting => w
    | .held => w
    | .refused _ => r.2

/-- Where a copy's sector lies, or the cause it fails with (R102): translated in the space of its partition, in the world of the copy
service (R69). -/
def copyPlace (w : Work) (die part va : Nat) (out : Bool) : Except XErr Nat :=
  if 2 ^ 56 ≤ va then .error (.refused (if out then 9 else 8))
  else match translate w { part := part, sec := w.dev.secBlocks.contains (.copyService die), die := die }
      [if out then .write else .read] va with
    | .error e => .error e
    | .ok x => if reachFault w.dev die x.pa ≠ 0 then .error (.refused (reachFault w.dev die x.pa)) else .ok x.pa

/-- Replace a copy. -/
def Work.putJob (w : Work) (die : Nat) (j : CopyJob) : Work :=
  w.updCopies die fun js => js.map fun x => if x.id = j.id then j else x

/-- A copy ends with a cause (R102). -/
def CopyJob.fails (j : CopyJob) (cause : Nat) : CopyJob := { j with err := some cause, buf := [] }

/-- A copy reads its source sector k (R197). -/
def readJob (w : Work) (die : Nat) (j : CopyJob) (k : Nat) : Work :=
  match copyPlace w die j.part (j.src + 32 * k) false with
  | .error e => (w.awaits e).putJob die (j.fails (e.cause 8))
  | .ok pa =>
    if regionOf pa = .peer then
      let f := w.free
      f.2.putJob die { j with buf := j.buf.set k (f.1 % 2 ^ 256) }
    else if sectorError w.dev (pa / 32) ≠ 0 then w.putJob die (j.fails (sectorError w.dev (pa / 32)))
    else if w.poisonAt pa 32 ≠ 0 then w.putJob die (j.fails 39)
    else
      let r := Work.agentRead (svcAgent die) 2 pa 32 w
      r.2.putJob die { j with buf := j.buf.set k r.1, lts := r.2.dev.agentTime (svcAgent die) }

/-- A copy writes its next destination sector, above its earlier writes (R198). -/
def writeJob (w : Work) (die : Nat) (j : CopyJob) : Work :=
  match copyPlace w die j.part (j.dst + 32 * j.at_) true with
  | .error e => (w.awaits e).putJob die (j.fails (e.cause 9))
  | .ok pa =>
    let v := j.buf.get j.at_ 0
    let w1 := if regionOf pa = .peer then w
      else Work.agentWrite (svcAgent die) 2 pa 32 v (w.raiseAgent (svcAgent die) (j.wts + 1))
    w1.putJob die { j with at_ := j.at_ + 1, buf := j.buf.del j.at_, wts := w1.dev.agentTime (svcAgent die) }

/-- A running copy reads a sector, at most 16 ahead, or writes one (R102). -/
def stepJob (die id : Nat) (w : Work) : Work :=
  match (w.dev.copies die).find? fun j => decide (j.id = id) with
  | none => w
  | some j =>
    if j.running = false ∨ j.err.isSome ∨ j.len ≤ 32 * j.at_ then w
    else
      let f := w.free
      let k := j.at_ + j.buf.length
      if j.buf.isEmpty then readJob w die j k
      else if 32 * k < j.len ∧ j.buf.length < 16 ∧ f.1 % 2 = 1 then readJob f.2 die j k
      else writeJob f.2 die j

/-- A copy has written its last sector, or failed (R102). -/
def CopyJob.ended (j : CopyJob) : Bool := j.err.isSome || (j.running && decide (j.len ≤ 32 * j.at_))

/-- A copy completes (R89, R102). -/
def endJob (id : Nat) (w : Work) : Work :=
  match (List.range 4).find? fun die => (w.dev.copies die).any fun j => decide (j.id = id) && j.ended with
  | none => w
  | some die =>
    match (w.dev.copies die).find? fun j => decide (j.id = id) with
    | none => w
    | some j =>
      (w.updCopies die fun js => js.filter fun x => decide (x.id ≠ id)).complete j.tk (j.err.getD 0)

-- Graphs (R95, R96)

/-- The number of nodes of a graph object. -/
def graphCount (obj : Nat) : Nat := packedBytes obj 4 2

/-- The packet of node i. -/
def graphPacket (obj i : Nat) : Nat := packedBytes obj (64 + 128 * i) 64

/-- The predecessors of node i. -/
def graphPreds (obj i : Nat) : List Nat :=
  (List.range (packedBytes obj (128 + 128 * i) 2)).map fun k => packedBytes obj (130 + 128 * i + 2 * k) 2

/-- A graph's header is sound (Table 4.5). -/
def graphHeaderOk (h : Nat) : Bool :=
  decide (packedBytes h 0 4 = 0x43474752) && decide (1 ≤ graphCount h) && decide (graphCount h ≤ 256) &&
    decide (packedBytes h 6 56 = 0) && decide (crc16 h 62 = packedBytes h 62 2)

/-- A node record is sound (R95), its packet also being in range and of the queue's partition (R86, R87). -/
def graphNodeOk (d : Dev) (part obj i : Nat) : Bool :=
  let p := graphPacket obj i
  let k := pkKind p
  let n := packedBytes obj (128 + 128 * i) 2
  (decide (k = 0x80) || decide (k = 0x81) || decide (k = 0x82) || decide (k = 0x83) || decide (k = 0x87)) &&
    !pkV p && decide (pkSeq p = 0) && pkCheck p && reservedClear p && inRange d p && decide (pkPart p = part) &&
    decide (n ≤ 31) && ((graphPreds obj i).all fun x => decide (x < i)) &&
    ((List.range 31).all fun j => decide (j < n) || decide (packedBytes obj (130 + 128 * i + 2 * j) 2 = 0))

/-- A graph object as read for a snapshot by a policy core: the object, or the cause that its reading meets (R96). -/
def readGraph (w : Work) (part die va : Nat) : Except XErr (Nat × Work) := do
  let h ← w.devRecords part die 64 va 1
  if graphHeaderOk h.1 then
    let body ← h.2.devRecords part die 64 (va + 64) (2 * graphCount h.1)
    .ok (h.1 + 2 ^ 512 * body.1, body.2)
  else .ok h

/-- The object keeps R95. -/
def graphOk (d : Dev) (part obj : Nat) : Bool :=
  graphHeaderOk obj && (List.range (graphCount obj)).all (graphNodeOk d part obj)

/-- The live instances of a partition. -/
def liveGraphs (d : Dev) (part : Nat) : List (Nat × Graph) := d.fe.graphs.filter fun g => decide (g.2.tk.part = part)

/-- An asynchronous packet starts and at once completes with a cause. -/
def Work.startsAndEnds (w : Work) (q p code : Nat) : Work := (w.asyncStart q).complete (ticketOf w q p) code

/-- GRAPH_RUN (R88, R95, R96). -/
def carryGraph (q : Nat) (w : Work) : Work :=
  match current w q 0x89 with
  | none => w
  | some p =>
    let part := pkPart p
    let addr := packedBytes p 8 8
    if policyRuns w q = false ∨ 16 ≤ (liveGraphs w.dev part).length then w
    else match readGraph w part (feDie w q) addr with
      | .error e => (w.awaits e).startsAndEnds q p (e.cause 8)
      | .ok r =>
        let obj := r.1
        if graphOk w.dev part obj = false then w.queueEvent q (pkSeq p) 0 11
        else
          let same := (liveGraphs w.dev part).filter fun g => decide (g.2.addr = addr)
          let conc := bit (packedBytes p 24 1) 0
          let g : Graph :=
            { tk := ticketOf w q p, addr := addr, conc := conc, snap := obj,
              after := if conc then [] else same.map (·.1),
              nodes := List.replicate (graphCount obj) .waiting }
          (r.2.asyncStart q).updFe fun e => { e with graphs := e.graphs ++ [(e.serial, g)], serial := e.serial + 1 }

/-- Nodes that depend on a failed one do not run (R95): one pass in index order suffices. -/
def blockNodes (obj : Nat) : Nat → Nat → List NodeState → List NodeState
  | 0, _, ns => ns
  | n + 1, i, ns =>
    let bad (j : Nat) : Bool := match ns.getD j .done with
      | .failed => true
      | .blocked => true
      | .waiting => false
      | .running => false
      | .done => false
    blockNodes obj n (i + 1) (if ns.getD i .done = .waiting ∧ (graphPreds obj i).any bad then ns.set i .blocked else ns)

/-- Every runnable node has finished. -/
def Graph.over (g : Graph) : Bool := g.nodes.all fun x => decide (x ≠ .waiting) && decide (x ≠ .running)

/-- A node ends with a code (R95): those that wait for it become ready or never run, and the graph may complete. -/
def endNode (g node code : Nat) (w : Work) : Work :=
  match w.dev.fe.graphs.get? g with
  | none => w
  | some x =>
    if w.dev.nodeEnds.contains (g, node, code) = false then w
    else
      let ns := x.nodes.set node (if code = 0 then .done else .failed)
      let y : Graph := { x with
        nodes := blockNodes x.snap ns.length 0 ns
        limits := x.limits.del node
        checks := x.checks.del node
        watch := x.watch.del node }
      let w1 := w.mapDev fun d => { d with nodeEnds := d.nodeEnds.erase (g, node, code) }
      if y.over then
        (w1.updFe fun e => { e with graphs := e.graphs.del g }).complete y.tk
          (if y.nodes.all fun s => decide (s = .done) then 0 else 0x107)
      else w1.updFe fun e => { e with graphs := e.graphs.set g y }

/-- The nodes of an instance that may start: every earlier instance it waits for has completed (R96), and so have their
predecessors. -/
def readyNodes (d : Dev) (x : Graph) : List Nat :=
  if x.after.all fun a => (d.fe.graphs.get? a).isNone then (List.range x.nodes.length).filter fun i =>
    decide (x.nodes.getD i .done = .waiting) && (graphPreds x.snap i).all fun j => decide (x.nodes.getD j .failed = .done)
  else []

/-- What a node leaves to be done when it completes. -/
def Graph.ticket (x : Graph) (g i : Nat) : Ticket :=
  let p := graphPacket x.snap i
  { part := x.tk.part, cword := pkWord p, evt := pkEvt p, q := x.tk.q, handle := x.tk.handle, seq := x.tk.seq,
    node := some (g, i) }

/-- A node is marked running. -/
def Work.runNode (w : Work) (g i : Nat) (limit : Option Nat) : Work :=
  w.updFe fun e =>
    match e.graphs.get? g with
    | none => e
    | some x => { e with graphs := e.graphs.set g { x with
        nodes := x.nodes.set i .running
        limits := match limit with
          | none => x.limits
          | some t => x.limits.set i t } }

/-- A node's word fails translation or permission: it fails, which enters the cause in the error ring, and its queue is halted
(R88). -/
def Work.nodeFailed (w : Work) (x : Graph) (g i : Nat) (e : XErr) : Work :=
  let cause := e.cause (if pkKind (graphPacket x.snap i) = 0x83 then 9 else 8)
  ((w.awaits e).complete (x.ticket g i) cause).queueEvent x.tk.q x.tk.seq cause 12

/-- When a WAIT node is next evaluated, and the line of its word (R94). -/
def Work.watchNode (w : Work) (g i : Nat) (line : Option Nat) : Work :=
  w.updFe fun e => match e.graphs.get? g with
    | none => e
    | some x => { e with graphs := e.graphs.set g { x with
        checks := x.checks.set i (w.dev.now + 600)
        watch := match line with
          | some l => x.watch.set i l
          | none => x.watch } }

/-- A running WAIT node evaluates its test; a passed limit halts the queue (R94, R95). The spec gives no code with which the
node then completes; the model's is 1, which, as the node has no completion word, also enters the error ring (DESIGN CHOICE,
notes/assumptions/103.md). -/
def pollNode (g i : Nat) (w : Work) : Work :=
  match w.dev.fe.graphs.get? g with
  | none => w
  | some x =>
    let p := graphPacket x.snap i
    if x.nodes.getD i .done ≠ .running ∨ pkKind p ≠ 0x82 ∨ policyRuns w x.tk.q = false ∨
        (w.dev.nodeEnds.any fun e => decide (e.1 = g) && decide (e.2.1 = i)) then w
    else match evalTest w x.tk.q p with
      | .error e => w.nodeFailed x g i e
      | .ok r =>
        let late := match x.limits.get? i with
          | none => false
          | some t => decide (t ≤ w.dev.now)
        if r.1 then r.2.complete (x.ticket g i) 0
        else if late then (r.2.complete (x.ticket g i) 1).queueEvent x.tk.q x.tk.seq 0 7
        else r.2.watchNode g i (wordLine w x.tk.q p)

/-- A ready node starts (R95). A LAUNCH waits for a free entry of the launch table, a COPY for room (R90). -/
def startNode (g i : Nat) (w : Work) : Work :=
  match w.dev.fe.graphs.get? g with
  | none => w
  | some x =>
    let p := graphPacket x.snap i
    let t := x.ticket g i
    let die := feDie w x.tk.q
    if (readyNodes w.dev x).contains i = false ∨ policyRuns w x.tk.q = false then w
    else match pkKind p with
      | 0x82 =>
        let us := packedBytes p 28 4
        pollNode g i (w.runNode g i (if us = 0 then none else some (w.dev.now + 600 * us)))
      | 0x83 => match signalWord w die p with
        | .error e => (w.runNode g i none).nodeFailed x g i e
        | .ok w1 => (w1.runNode g i none).complete t 0
      | 0x87 =>
        if 1024 ≤ serviceLoad w die then w else (w.runNode g i none).addCopy die t p (w.dev.agentTime (feAgent die))
      | _ => match freeLaunch w.dev with
        | none => w
        | some ix => (w.runNode g i none).startLaunch ix p t (decide ((w.dev.stream x.tk.q).st = 1))

-- Calibration (R97, R374)

/-- CALIBRATE (R97). -/
def carryCalibrate (q : Nat) (w : Work) : Work :=
  match current w q 0x8A with
  | none => w
  | some p =>
    if policyRuns w q = false then w
    else
      let c : Calib :=
        { id := w.dev.fe.serial, tk := ticketOf w q p, all := decide (packedBytes p 12 1 = 1),
          cores := ((List.range 32).filter fun k => bit (packedBytes p 8 4) k).flatMap (sitesOf w.dev) }
      (w.asyncStart q).updFe fun e => { e with calibs := e.calibs ++ [c], serial := e.serial + 1 }

/-- A core of a CALIBRATE begins `mcal` on its banks, all or the stale ones (R97, R374), by the policy core of the packet's die
(R82). -/
def beginCal (id core : Nat) (w : Work) : Work :=
  match w.dev.fe.calibs.find? fun c => decide (c.id = id) with
  | none => w
  | some c =>
    if policyRuns w c.tk.q = false ∨ c.cores.contains core = false ∨ betweenTides w.dev core = false then w
    else
      let banks := (List.range 2).filter fun b => c.all || bankStale w.dev ((w.core core).wb.get b {})
      let cmd (b : Nat) : WCmd := { form := 2, wbank := b, id := (w.core core).cmdSer + b, ctx := 2, pc := 0, word := id }
      (w.updCore core fun k => { k with strm := k.strm ++ banks.map cmd, cmdSer := k.cmdSer + 2 }).updFe fun e =>
        { e with calibs := e.calibs.map fun x =>
          if x.id = id then { x with cores := x.cores.filter fun k => decide (k ≠ core) } else x }

/-- A core still runs `mcal` for a CALIBRATE. -/
def calibrating (d : Dev) (id : Nat) : Bool :=
  d.cores.any fun p => p.2.strm.any fun x => decide (x.form = 2) && decide (x.ctx = 2) && decide (x.word = id)

/-- A CALIBRATE whose last core has finished completes (R97). -/
def endCalibs (w : Work) : Work :=
  match w.dev.fe.calibs.find? fun c => policyRuns w c.tk.q && c.cores.isEmpty && !calibrating w.dev c.id with
  | none => w
  | some c => (w.updFe fun e => { e with calibs := e.calibs.filter fun x => decide (x.id ≠ c.id) }).complete c.tk 0

-- Bias (R77, R78)

/-- BIAS_FLIP (R77). -/
def carryFlip (q : Nat) (w : Work) : Work :=
  match current w q 0x8B with
  | none => w
  | some p =>
    if policyRuns w q = false then w
    else
      let base := packedBytes p 8 8 / 4096
      let f : Flip := { id := w.dev.fe.serial, tk := ticketOf w q p, next := base, last := base + packedBytes p 16 8 / 4096 - 1,
                        toDevice := decide (packedBytes p 24 1 = 1) }
      (w.asyncStart q).updFe fun e => { e with flips := e.flips ++ [f], serial := e.serial + 1 }

/-- A place that an engine reads or writes lies in a granule. -/
def spotOn (w : Work) (who : Issuer) (gran : Nat) (s : Spot) : Bool :=
  decide (s.kind ≠ 3) && decide (s.kind ≠ 5) && (match reachPhys w who s.kind s.cls s.addr false false with
    | .error _ => false
    | .ok x => decide (x.1 / 4096 = gran))

/-- A started weight load still has a source sector in a granule. -/
def loadOn (w : Work) (core gran : Nat) (x : WCmd) : Bool :=
  x.started && x.left.any fun s =>
    spotOn w { core := core, bank := x.ctx, part := x.part, sec := x.sec } gran
      { (if s.1 = 0 then x.src else x.scale) with addr := (32 * s.2 : Nat) }

/-- A running engine command, a copy or a weight load (R194), still has a sector in a granule. -/
def commandsOn (w : Work) (gran : Nat) : Bool :=
  w.dev.cores.any fun p =>
    (p.2.strm.any (loadOn w p.1 gran)) || p.2.cmds.any fun c => c.running && c.left.any fun piece =>
      ({ (if c.form = 5 then ({ kind := 1 } : Spot) else c.o2) with addr := (32 * piece.2 : Nat) } ::
        (c.needs piece).map (·.2)).any (spotOn w (c.who p.1) gran)

/-- Change a flip. -/
def Work.updFlip (w : Work) (id : Nat) (f : Flip → Flip) : Work :=
  w.updFe fun e => { e with flips := e.flips.map fun x => if x.id = id then f x else x }

/-- The flip of a packet is over, and the packet completes with a code. -/
def Work.finishFlip (w : Work) (x : Flip) (code : Nat) : Work :=
  (w.updFe fun e => { e with flips := e.flips.filter fun y => decide (y.id ≠ x.id) }).complete x.tk code

/-- The flip goes on to the next granule, or its packet completes. -/
def Work.nextGranule (w : Work) (x : Flip) : Work :=
  if x.next < x.last then w.updFlip x.id fun y => { y with next := y.next + 1, gran := none }
  else w.finishFlip x 0

/-- A flip takes up its next granule (R77): it is skipped at the target bias or where the address has no bias bit, waits
behind an earlier flip of it and, toward host bias, for the engine commands started on it. -/
def takeFlip (i : Nat) (w : Work) : Work :=
  match w.dev.fe.flips[i]? with
  | none => w
  | some x =>
    if x.gran.isSome ∨ policyRuns w x.tk.q = false then w
    else match (if 2 ^ 44 ≤ x.next then .error (.refused 8) else
        translate w (deviceAsker w.dev x.tk.part (feDie w x.tk.q)) [.read] (4096 * x.next)) with
      | .error e => (w.awaits e).finishFlip x (e.cause 8)
      | .ok a =>
        let g := a.pa / 4096
        if regionOf a.pa ≠ .stacked ∨ w.dev.coh.devBias.contains g = x.toDevice then w.nextGranule x
        else if w.dev.coh.flipping.contains g ∨ (x.toDevice = false ∧ commandsOn w g) then w
        else (w.updFlip x.id fun y => { y with gran := some g }).updCoh fun c => { c with flipping := g :: c.flipping }

/-- A granule's flip may end: toward device bias the host has given back every line of the granule that its caches held, as
the device's ownership requests ask it to (R77). -/
def flipEnds (d : Dev) (x : Flip) : Bool :=
  match x.gran with
  | none => false
  | some g => !x.toDevice || d.host.dir.all fun l => decide (l.line / 64 ≠ g)

/-- A granule's flip ends, by the policy core of the packet's die (R77, R82): toward host bias every second-level copy is written back and invalidated first. -/
def endFlip (gran : Nat) (w : Work) : Work :=
  match w.dev.fe.flips.find? fun x => decide (x.gran = some gran) with
  | none => w
  | some x =>
    if policyRuns w x.tk.q = false ∨ flipEnds w.dev x = false then w
    else
      let w1 := if x.toDevice then w else w.sweepLines (4096 * gran) 4096
      (w1.updCoh fun c => { c with
        flipping := c.flipping.filter fun g => decide (g ≠ gran)
        devBias := if x.toDevice then gran :: c.devBias else c.devBias.filter fun g => decide (g ≠ gran) }).nextGranule x

-- The summary record (R79)

/-- One bit through the CRC-32C register, reflected. -/
def crc32cBit (c : Nat) : Nat := if c % 2 = 1 then (c / 2) ^^^ 0x82F63B78 else c / 2

/-- One byte through the CRC-32C register. -/
def crc32cByte (c b : Nat) : Nat :=
  crc32cBit (crc32cBit (crc32cBit (crc32cBit (crc32cBit (crc32cBit (crc32cBit (crc32cBit (c ^^^ b))))))))

/-- n bytes through the CRC-32C register. -/
def crc32cFrom (c x : Nat) : Nat → Nat
  | 0 => c
  | n + 1 => crc32cFrom (crc32cByte c (x % 256)) (x / 256) n

/-- CRC-32C of the n low bytes of packed data. -/
def crc32c (x n : Nat) : Nat := crc32cFrom 0xFFFFFFFF x n ^^^ 0xFFFFFFFF

/-- Fields laid out in packed bytes: offset, bytes, value. -/
def packFields (fs : List (Nat × Nat × Nat)) : Nat :=
  fs.foldl (fun x f => x + 2 ^ (8 * f.1) * (f.2.2 % 2 ^ (8 * f.2.1))) 0

/-- `gs.stat` (Table 2.2). -/
def Sock.stat (s : Sock) : Nat :=
  let st := match s.fence with
    | some f => f.was
    | none => s.st
  st + 8 * s.mods + 128 * s.rate + 1024 * (if st = 4 then s.part else 0) + 16384 * s.duty +
    131072 * (if s.dv then 1 else 0)

/-- A requester with a partition sees an entry of a partition; the PF, 16, sees all (R79). -/
def sees (view part : Nat) : Bool := decide (view = 16) || decide (view = part)

def summaryHeader (d : Dev) : List (Nat × Nat × Nat) :=
  [(0, 4, 0x43475359), (4, 2, 1), (6, 2, 4096), (8, 8, d.serialNo), (16, 8, d.host.sumCount), (24, 8, d.now),
    (32, 1, d.step), (33, 1, d.failed), (34, 1, match d.mode with
      | .running => 0
      | .bringUp => 0
      | .recovery => 1
      | .tripped => 2)]

/-- A die's entry; boundary 0 or 1 is its horizontal one, 2 or 3 its vertical one (R16). -/
def summaryDie (d : Dev) (die : Nat) : List (Nat × Nat × Nat) :=
  let o := 64 + 16 * die
  let h := d.bounds.get (die / 2) 0
  let v := d.bounds.get (2 + die % 2) 0
  [(o, 1, if d.isolated.contains die then 2 else if h ≠ 0 ∨ v ≠ 0 then 1 else 0), (o + 1, 1, h), (o + 2, 1, v),
    (o + 3, 1, d.policy.get die 0), (o + 4, 1, if d.coh.swaps.any fun x => decide (x.die = die) then 1 else 0)]

/-- The partition that owns a cluster, or 255. -/
def clusterOwner (d : Dev) (cl : Nat) : Nat :=
  ((List.range 16).find? fun k => bit (d.partOf k).clusters cl).getD 255

def summaryCluster (d : Dev) (cl : Nat) : List (Nat × Nat × Nat) :=
  let o := 128 + 4 * cl
  [(o, 1, (d.island cl).op), (o + 1, 1, d.therm.get cl 255), (o + 2, 1, clusterOwner d cl),
    (o + 3, 1, if cl = 31 then 1 + (if quarantineOn d then 2 else 0) else 0)]

def summaryColumn (d : Dev) (k : Nat) : List (Nat × Nat × Nat) :=
  let c := d.column k
  let hot := (List.range 8).any fun n => d.dref.get (8 * (k / 16) + n) false
  [(256 + k, 1, c.bus % 4 + (if hot then 4 else 0) + 8 * (c.rbad % 4) + 32 * (c.layers - 1))]

def summaryLaunch (d : Dev) (view ix : Nat) : List (Nat × Nat × Nat) :=
  let o := 768 + 16 * ix
  let l := d.launch ix
  if sees view l.part then
    [(o, 8, l.hdrVa), (o + 8, 1, l.part), (o + 9, 1, l.pri), (o + 10, 2, l.tide), (o + 12, 1, l.st)]
  else []

def summaryPart (d : Dev) (view k : Nat) : List (Nat × Nat × Nat) :=
  let o := 1792 + 16 * k
  let p := d.partOf k
  let y := d.host.policies.get k {}
  if sees view k then
    [(o, 1, p.st), (o + 1, 1, if p.conf then 1 else 0), (o + 2, 1, p.vfs.length), (o + 4, 2, y.open_),
      (o + 8, 4, y.version)]
  else []

def summaryPort (d : Dev) (k : Nat) : List (Nat × Nat × Nat) :=
  let o := 2048 + 16 * k
  let p := d.ports.get k {}
  [(o, 1, if p.up then 1 else 0), (o + 4, 4, p.tag), (o + 8, 4, (p.replays.filter fun t => decide (d.now < t + 600000)).length)]

/-- The guest's entry; the places of the bound and the count of queues within it are this model's
(notes/assumptions/33.md). -/
def summaryGuest (d : Dev) : List (Nat × Nat × Nat) :=
  [(2304, 4, d.sock.stat), (2308, 4, d.sock.bound), (2312, 4, d.sock.queues)]

/-- An entry of the error ring; its layout within the 16 bytes is this model's (notes/assumptions/33.md). -/
def summaryError (view i : Nat) (e : ErrEntry) : List (Nat × Nat × Nat) :=
  let o := 2880 + 16 * i
  if sees view e.part then
    [(o, 2, e.cause), (o + 2, 1, e.part), (o + 4, 2, e.agent), (o + 6, 4, e.time), (o + 10, 6, e.value)]
  else []

/-- The summary record as a requester sees it (Table 3.7), sampled in one step, so that CHG is 0. -/
def summaryRecord (d : Dev) (view : Nat) : Nat :=
  let body := packFields (summaryHeader d ++ (List.range 4).flatMap (summaryDie d) ++
    (List.range 32).flatMap (summaryCluster d) ++ (List.range 512).flatMap (summaryColumn d) ++
    (List.range 64).flatMap (summaryLaunch d view) ++ (List.range 16).flatMap (summaryPart d view) ++
    (List.range 16).flatMap (summaryPort d) ++ summaryGuest d ++
    (indexed ((d.quarantined.filter fun q => sees view q.1).take 64)).map (fun x => (2368 + 8 * x.1, 8, x.2.2)) ++
    (indexed d.errRing).flatMap fun x => summaryError view x.1 x.2)
  body + 2 ^ (8 * 4092) * crc32c body 4092

/-- n lines from a line-aligned address are written with release for a partition, or the cause met. -/
def Work.writeLines (w : Work) (die part va v : Nat) : Nat → Except XErr Work
  | 0 => .ok w
  | n + 1 =>
    if 2 ^ 56 ≤ va then .error (.refused 9)
    else match translate w (deviceAsker w.dev part die) [.write] va with
      | .error e => .error e
      | .ok x =>
        if reachFault w.dev die x.pa ≠ 0 then .error (.refused (reachFault w.dev die x.pa)) else
        (w.feWrite die x.pa 64 (v % 2 ^ 512)).writeLines die part (va + 64) (v / 2 ^ 512) n

/-- SUMMARY (R79, R97). -/
def carrySummary (q : Nat) (w : Work) : Work :=
  match current w q 0x8C with
  | none => w
  | some p =>
    if policyRuns w q = false then w
    else
      let w1 := (w.asyncStart q).mapDev fun d => { d with host := { d.host with sumCount := d.host.sumCount + 1 } }
      match w1.writeLines (feDie w q) (pkPart p) (packedBytes p 8 8) (summaryRecord w1.dev (pkPart p)) 64 with
      | .error e => (w1.awaits e).complete (ticketOf w q p) (e.cause 9)
      | .ok w2 => w2.complete (ticketOf w q p) 0

-- QCLEAR (R58, R98, R127)

/-- A queue is Normal. -/
def queueNormal (w : Work) (cb : Nat) : Bool :=
  decide ((w.dev.stream cb).st = 0) && !(w.block cb).quar && !(w.block cb).pois && !(w.dev.homeOf cb).pois

/-- A QCLEAR from a queue for another is refused (R98, R58). -/
def clearRefused (w : Work) (q part cb : Nat) : Bool :=
  let b := w.block cb
  (decide (part ≠ 16) && decide (b.owner ≠ part)) || !wholeQueue w cb ||
    ((decide (b.role = 4) || decide (b.role = 5) || decide (b.role = 6)) &&
      decide (w.dev.sock.st ≠ 3) && decide (w.dev.sock.st ≠ 4)) ||
    decide ((w.dev.stream q).st ≠ 0)

/-- A queue returns to Normal (R98, R127): flags cleared, the block adopted as written, bindings made before a poisoning
unusable, also for an operation already issued through one, and its stream begun afresh; bytes 24 to 27 of the packet count for command
queues alone. The record is the stream's that cleared it. A packet that the cleared queue's stream had accepted and was still carrying
out is dropped, of which the spec says nothing (DESIGN CHOICE, notes/assumptions/123.md). -/
def Work.clearQueue (w : Work) (q cb handle seq : Nat) : Work :=
  let b := w.block cb
  let was := (w.dev.homeOf cb).pois
  let b1 := (b.put 7 1 (b.field 7 1 % 4 + b.field 7 1 / 16 * 16)).seal
  let w1 := ((w.setBlock cb b1).adopt cb handle b.owner (queueSlice w cb)).updHome cb fun h =>
    { h with pois := false, waiters := [], notice := true, handle := handle }
  let w2 := if was then w1.mapDev fun d => { d with ctxs := d.ctxs.map fun p =>
      (p.1, { p.2 with
        qops := p.2.qops.map fun q => if q.cb = cb ∧ q.form ≠ 0x40 then { q with stale := true } else q
        qb := p.2.qb.map fun x => (x.1, if x.2.cb = cb then { x.2 with stale := true } else x.2) }) }
    else w1
  let w3 := if b.role = 1 then w2.updStream cb fun s => { async := s.async, seq := seq } else w2
  w3.qnotice b.owner handle (if b.role = 1 then seq else 0) 0 0 0 (some q)

/-- The control block that a QCLEAR names: its handle translated in the space of its partition; the PF, which may name the
queue of any partition, needs not own it (R98). -/
def clearedBlock (w : Work) (part die handle : Nat) : Except XErr Nat :=
  if 2 ^ 56 ≤ handle then .error (.refused 8)
  else match translate w (deviceAsker w.dev part die) [.read] handle with
    | .ok x => .ok x.pa
    | .error (.refused c) =>
      if part ≠ 16 ∨ (c ≠ 11 ∧ c ≠ 12) then .error (.refused c)
      else match walkFrom w die handle 4 (w.dev.partOf part).root [] with
        | .error e => .error e
        | .ok (e, level, _) =>
          let pa := bits e 51 12 * 4096 + handle % 2 ^ leafLog level (bit e 10)
          if bit e 2 ∧ bits e 9 8 = 0 ∧ regionOf pa = .stacked then .ok pa else .error (.refused c)
    | .error e => .error e

/-- QCLEAR (R98). -/
def carryQclear (q : Nat) (w : Work) : Work :=
  match current w q 0x8D with
  | none => w
  | some p =>
    if policyRuns w q = false then w
    else
      let part := pkPart p
      let handle := packedBytes p 8 8
      let finish (x : Work) (code : Nat) : Work :=
        (if pkWord p = 0 ∧ code ≠ 0 ∧ code < 0x100 then x.logError code part (feAgent (feDie w q)) handle
         else x.writeCompletion part (feDie w q) (pkWord p) code).syncDone q p code
      if handle % 64 ≠ 0 then finish w 13
      else match clearedBlock w part (feDie w q) handle with
        | .error e => finish (w.awaits e) (e.cause 8)
        | .ok cb =>
          if clearRefused w q part cb then finish w 0x106
          else if queueNormal w cb then finish w 0
          else finish (w.clearQueue q cb handle (packedBytes p 24 4)) 0

-- Watchdogs (R83)

/-- A policy core's watchdog has counted 1 ms of the reference clock (R83). -/
def mayExpire (d : Dev) (die : Nat) : Bool := decide (d.policy.get die 0 = 0) && decide (d.policyAt.get die 0 + 600000 ≤ d.now)

/-- A policy core's watchdog expires, as the core has not reset it within its 1 ms (R83): a delegate is restarted, and the
master's expiry puts the device in the recovery state. -/
def expireWatchdog (die : Nat) (w : Work) : Work :=
  if mayExpire w.dev die = false then w
  else
    let w1 := w.logError 61 16 (feAgent die) die
    if die = 0 then w1.mapDev fun d => { d with mode := .recovery, policy := d.policy.set 0 2 }
    else w1.mapDev fun d => { d with policy := d.policy.set die 1 }

/-- A delegate is running again, from the image that was verified at bring-up, as the master began (R83). -/
def endRestart (die : Nat) (w : Work) : Work :=
  if w.dev.policy.get die 0 = 1 then w.mapDev fun d => { d with
    policyCores := d.policyCores.set die (d.policyCores.get 0 {})
    policy := d.policy.set die 0, policyAt := d.policyAt.set die d.now } else w

/-- COPY (R90, R102). -/
def execCopy (q : Nat) (σ : State) : Host.Outcome State Fault Refusal :=
  .next (carryCopy q (Work.begin σ)).commit

/-- A copy service's copy completes (R89, R102). -/
def execCopyServiceComplete (id : Nat) (σ : State) : Host.Outcome State Fault Refusal :=
  .next (endJob id (Work.begin σ)).commit

/-- GRAPH_RUN (R95, R96). -/
def execGraphRun (q : Nat) (σ : State) : Host.Outcome State Fault Refusal :=
  .next (carryGraph q (Work.begin σ)).commit

/-- A node of a graph completes (R95). -/
def execGraphNodeComplete (g : Nat) (node : Nat) (code : Nat) (σ : State) : Host.Outcome State Fault Refusal :=
  .next (endNode g node code (Work.begin σ)).commit

/-- CALIBRATE (R97). -/
def execCalibrate (q : Nat) (σ : State) : Host.Outcome State Fault Refusal :=
  .next (carryCalibrate q (Work.begin σ)).commit

/-- BIAS_FLIP (R77, R78). -/
def execBiasFlip (q : Nat) (σ : State) : Host.Outcome State Fault Refusal :=
  .next (carryFlip q (Work.begin σ)).commit

/-- A granule's bias has flipped (R77). -/
def execGranuleFlipDone (gran : Nat) (σ : State) : Host.Outcome State Fault Refusal :=
  .next (endFlip gran (Work.begin σ)).commit

/-- SUMMARY (R79, R97). -/
def execSummary (q : Nat) (σ : State) : Host.Outcome State Fault Refusal :=
  .next (carrySummary q (Work.begin σ)).commit

/-- QCLEAR (R58, R98, R127). -/
def execQclear (q : Nat) (σ : State) : Host.Outcome State Fault Refusal :=
  .next (carryQclear q (Work.begin σ)).commit

/-- The watchdog of a policy core expires (R83). -/
def execPolicyWatchdog (die : Nat) (σ : State) : Host.Outcome State Fault Refusal :=
  .next (expireWatchdog die (Work.begin σ)).commit

/-- A delegate's restart ends (R83). -/
def execDelegateRestartDone (die : Nat) (σ : State) : Host.Outcome State Fault Refusal :=
  .next (endRestart die (Work.begin σ)).commit

end Sys2Proof.Machine
end

