-- ==== Sys2Proof/Machine/Guest.lean ====
section
/-! DEFINITION. The guest socket: link and states, guest queues, control packets and their deadlines, the coherent and
translation ports, and the fence (R39 to R58). -/

namespace Sys2Proof.Machine

/-- Change the socket. -/
def Work.updSock (w : Work) (f : Sock → Sock) : Work := w.mapDev fun d => { d with sock := f d.sock }

/-- A list without its first element that passes a test. -/
def dropFirst (f : Nat → Bool) : List Nat → List Nat
  | [] => []
  | e :: t => if f e then t else e :: dropFirst f t

/-- One of the commands that the guest has taken is over: the oldest that passes a test (R49). -/
def Work.endTaken (w : Work) (f : Nat → Bool) : Work := w.updSock fun s => { s with taken := dropFirst f s.taken }

-- The ten queues (R45)

/-- Capacity logarithm and role of guest queue k: gq0 to gq7, gcq, gfq. -/
def guestShape (k : Nat) : Nat × Nat := if k < 8 then (8, 4) else if k = 8 then (6, 5) else (9, 6)

/-- A fresh control block (Table 5.1, R106). -/
def freshBlock (lcap role ring owner home : Nat) (sec : Bool) : Block :=
  Block.seal (packFields [(0, 4, 0x51554542), (4, 1, 1), (5, 1, 6), (6, 1, lcap), (7, 1, 1 + 2 + (if sec then 16 else 0) + 32),
    (24, 8, 2 ^ lcap), (32, 8, ring), (48, 1, owner), (49, 2, home), (51, 1, role)])

/-- The granules of D1 that no partition owns and that can hold the guest's queues. -/
def guestGranules (d : Dev) : List Nat :=
  ((List.range 128).flatMap fun k => (List.range 32).map fun j => (128 + k) * 256 + j).filter fun g =>
    granuleOwned d 16 g && decide (privateTag d (g * 2 ^ 21) = 0) && !(d.column (g / 256)).rfail &&
      decide ((d.column (g / 256)).bus ≠ 3)

/-- The policy firmware creates the ten queues, in a granule and on slices of D1 of its choice (R45). -/
def Work.createQueues (w : Work) : Work :=
  let gs := guestGranules w.dev
  let slices := ((List.range 512).map fun k => 512 + k).filter fun s => !w.dev.slicesOff.contains s
  let f := w.free
  let h := f.2.free
  match gs[f.1 % gs.length]? with
  | none => w
  | some g =>
    let base := g * 2 ^ 21
    let put (a : Work) (k : Nat) : Work :=
      let s := guestShape k
      a.setBlock (base + 64 * k)
        (freshBlock s.1 s.2 (base + 0x10000 * (k + 1)) 16 (slices.getD ((h.1 + k) % slices.length) 512) w.dev.sock.sec)
    ((List.range 10).foldl put h.2).updSock fun s => { s with cbs := (List.range 10).map fun k => base + 64 * k }

/-- The control block of guest queue k. -/
def guestCb (w : Work) (k : Nat) : Nat := w.dev.sock.cbs.getD k 0

/-- A queue's block is poisoned. -/
def poisoned (w : Work) (cb : Nat) : Bool := (w.dev.homeOf cb).pois || (w.block cb).pois

/-- A block changed by the front end, whose check is kept right where it was whole; a block that a store has broken stays
corrupt, to be found so (R106, R126). -/
def Work.putBlock (w : Work) (cb : Nat) (b : Block) : Work := w.setBlock cb (if wholeQueue w cb then b.seal else b)

/-- Head equals tail, the free-slot count the capacity, and no waiter in the block. -/
def Work.emptyQueue (w : Work) (cb : Nat) : Work :=
  let b := w.block cb
  w.putBlock cb (((b.put 8 8 b.tail).put 24 8 b.cap).withWaiters [])

/-- Every one of the ten queues takes an owner; the granule that holds them goes with them, as R104 asks
(notes/assumptions/34.md). -/
def Work.ownQueues (w : Work) (owner : Nat) : Work :=
  let g := granuleOf (guestCb w 0)
  let w1 := w.dev.sock.cbs.foldl (fun a cb => a.putBlock cb ((a.block cb).put 48 1 owner)) w
  w1.mapDev fun d => { d with parts := (List.range 16).foldl (fun t k =>
    let p := d.partOf k
    let rest := p.granules.filter fun r => decide (r ≠ (g, 1))
    if k = owner then t.set k { p with granules := (g, 1) :: rest }
    else if p.granules.contains (g, 1) then t.set k { p with granules := rest } else t) d.parts }

/-- The firmware sets the ten queues up again, empty, where a scrub has zeroed them: on the same slices, in no partition, and as
quarantined or poisoned as they were (notes/assumptions/129.md). `old` is the state before. -/
def Work.renewQueues (w old : Work) : Work :=
  (List.range w.dev.sock.cbs.length).foldl (fun a k =>
    let cb := guestCb a k
    let s := guestShape k
    let b := freshBlock s.1 s.2 (guestCb a 0 + 0x10000 * (k + 1)) 16 (queueSlice old cb) a.dev.sock.sec
    a.setBlock cb (b.put 7 1 (b.field 7 1 % 4 + (old.block cb).field 7 1 % 16 / 4 * 4 + b.field 7 1 / 16 * 16)).seal) w

/-- The elements of a queue, oldest first. -/
def queueElements (w : Work) (cb : Nat) : List Nat :=
  let b := w.block cb
  (List.range (min b.used b.cap)).map fun i => w.pread (b.ring + (b.head + i) % b.cap * 64) 64

/-- A queue is no longer poisoned or quarantined. -/
def Work.clearFlags (w : Work) (cb : Nat) (quar : Bool) : Work :=
  let b := w.block cb
  let flags := b.field 7 1
  let f := if quar then flags % 4 + flags / 16 * 16 else flags % 8 + flags / 16 * 16
  (w.updHome cb fun h => { h with pois := false }).putBlock cb (b.put 7 1 f)

/-- Entry to Measuring (R42, R43, R45). The queues of a guest that was fenced while it was bound still have its partition's
OWNER, which returns to 16 here (notes/assumptions/107.md). -/
def Work.enterMeasuring (w : Work) : Work :=
  let w1 := if w.dev.sock.cbs.isEmpty then w.createQueues else w.ownQueues 16
  let used := w1.dev.sock.queues
  let fresh (a : Work) (k : Nat) : Work :=
    let cb := guestCb a k
    let a1 := if k = 9 then a.clearFlags cb true
              else if 1 ≤ used ∧ used ≤ k ∧ k < 8 ∧ poisoned a cb then a.clearFlags cb false else a
    a1.emptyQueue cb
  ((List.range w1.dev.sock.cbs.length).foldl fresh w1).updSock fun s => { s with
    st := 2, helloBy := some (w.dev.now + 60000000), spdmBy := none, measured := false, queues := 0, ctl := []
    suspended := false, leaving := false, taken := [], claims := [], tlb := [], stale := [] }

-- Commands in the engine queues (R45, R49, R56)

/-- A command's completion barrier word takes an error code and detail, or an event record tells of it (R49, R56). -/
def Work.endCommandWord (w : Work) (part va cause detail : Nat) : Work :=
  if va = 0 then
    w.mapDev fun d => { d with events := d.events ++ [completionRec part 0 0 cause 0 none] }
  else if 2 ^ 56 ≤ va then w.logError 9 part guestAgent va
  else match translate w (deviceAsker w.dev part 1) [.write] va with
    | .error e => (w.awaits e).logError (e.cause 9) part guestAgent va
    | .ok x =>
      if reachFault w.dev 1 x.pa ≠ 0 then w.logError (reachFault w.dev 1 x.pa) part guestAgent va else
      let v := wordAct (w.pread x.pa 8) 0 (some (cause, detail))
      let r := w.cohWrite (releaseTime w.dev) x.pa 8 v
      r.2.mapDev fun d => { d with ctxs := d.ctxs.map fun p => (p.1, p.2.armedNow x.pa v r.1) }

/-- Every element still in the engine queues ends with a cause, and they are emptied; of a block that is not whole the elements
cannot be told. -/
def Work.endElements (w : Work) (part cause : Nat) : Work :=
  (List.range 8).foldl (fun a k =>
    let cb := guestCb a k
    if wholeQueue a cb = false then a
    else ((queueElements a cb).foldl (fun b e => b.endCommandWord part (packedBytes e 8 8) cause 0) a).emptyQueue cb) w

-- The fence (R56, R57)

/-- A line that the guest owns is written to memory with a poison mark of cause 47. -/
def Work.poisonLine (w : Work) (l : Nat) : Work :=
  let r := w.cohWrite (w.dev.agentTime guestAgent) (64 * l) 64 (w.pread (64 * l) 64)
  (r.2.raiseAgent guestAgent r.1).updCoh fun c => { c with poison := (c.poison.set (2 * l) 47).set (2 * l + 1) 47 }

/-- The guest's lines: owned ones are poisoned, shared ones dropped (R56 step 2). -/
def Work.dropDirectory (w : Work) : Work :=
  let ls := w.dev.sock.dir
  ((ls.filter fun x => x.owned).foldl (fun a x => a.poisonLine x.line)
    (w.updSock fun s => { s with dir := [], snoops := [] }))

/-- A queue receives the quarantine flag, and its handle is listed (R56 step 4, R101). -/
def Work.fenceQueue (w : Work) (cb cause : Nat) : Work :=
  (w.quarantineQueue cb).qnotice (w.block cb).owner cb 0 cause 0 1 none

/-- The socket becomes Absent, with no module trained. -/
def Work.goAbsent (w : Work) : Work :=
  w.updSock fun s => { s with st := 0, mods := 0, rate := 0, helloBy := none, spdmBy := none }

/-- A socket that is Absent begins to train where EN is set and a partner is there (R42). -/
def Work.tryTrain (w : Work) : Work :=
  w.updSock fun s => if s.st = 0 ∧ s.en ∧ s.partner then { s with st := 1 } else s

/-- What a socket link reset does once no guest is left to fence (R51). -/
def Work.finishReset (w : Work) : Work :=
  let w1 := w.dropDirectory
  let st := if w.dev.sock.st = 0 then 0 else if w.dev.sock.en then 1 else 0
  (w1.updSock fun s => { s with
    st := st, mods := 0, off := 0, rate := 0, tlb := [], stale := [], ctl := [], helloBy := none, spdmBy := none }).tryTrain

/-- Steps 2 to 6 of a fence (R56), and what follows them (R40, R51). -/
def endFence (w : Work) : Work :=
  match w.dev.sock.fence with
  | none => w
  | some f =>
    let w1 := w.dropDirectory
    let w2 := w1.dev.sock.taken.foldl (fun a e => a.endCommandWord f.part (packedBytes e 8 8) f.cause 0) w1
    let w3 := w2.endElements f.part f.cause
    let w4 := w3.dev.sock.cbs.foldl (fun a cb => a.fenceQueue cb f.cause) w3
    let w5 := w4.updSock fun x => { x with fence := none, ctl := [], taken := [] }
    match f.after with
    | 0 => w5
    | 1 => w5.goAbsent
    | _ => w5.finishReset

/-- An action that follows another at once, where it has no line to wait for; where it has, it comes later by itself. -/
def Work.atOnce (w : Work) (act : Work → Work) : Work :=
  let r := act w
  if r.dev.coh.waits = w.dev.coh.waits then r else w

/-- The guest is fenced (R40, R56): the duty's code is recorded, where one is given, and `cause` reported; the port refuses
everything from then on, and the other steps are taken as soon as no line they write has to be waited for. What the guest
holds of translations it can no longer use, so nothing waits for them. -/
def Work.fenceGuest (w : Work) (duty : Option Nat) (cause after : Nat) : Work :=
  let s := w.dev.sock
  if s.st ≠ 3 ∧ s.st ≠ 4 then w
  else
    let part := if s.st = 4 then s.part else 16
    let w1 := match duty with
      | none => w
      | some k => w.updSock fun x => { x with duty := k, dv := true }
    ((w1.logError cause part guestAgent (duty.getD 0)).updSock fun x => { x with
      st := 5, fence := some { cause := cause, part := part, was := s.st, after := after }
      ctl := (x.ctl.map fun c => { c with lines := [], due := none }) ++
        [{ kind := 0x21, seq := 0, frames := x.stale.map fun e => (e.frame, e.size) }]
      tlb := [], stale := [], snoops := [], claims := []
      spdmBy := none, suspended := false, leaving := false }).atOnce endFence

/-- A duty is missed (R56). -/
def Work.missDuty (w : Work) (code : Nat) : Work := w.fenceGuest (some code) 58 0

-- Link and states (R40 to R42, R51)

/-- The PF's registers outside the recovery interface answer (R80). -/
def registersAnswer (d : Dev) : Bool := decide (d.mode = .running)

/-- `gs.ctl` EN is written (Table 2.1). -/
def enableSocket (on : Bool) (w : Work) : Work :=
  if registersAnswer w.dev = false then w.reply .unsupported else
  let w1 := w.updSock fun s => { s with en := on }
  if on then w1.tryTrain
  else if w.dev.sock.st = 1 ∨ w.dev.sock.st = 2 then w1.goAbsent
  else w1.missDuty 0

/-- A socket link reset (R42, R51). -/
def resetLink (w : Work) : Work :=
  if registersAnswer w.dev = false then w.reply .unsupported else
  if w.dev.sock.st = 3 ∨ w.dev.sock.st = 4 then w.fenceGuest (some 0) 58 2
  else match w.dev.sock.fence with
    | some f => w.updSock fun s => { s with fence := some { f with after := 2 } }
    | none => w.finishReset

/-- DV is cleared by writing 1 to it (Table 2.2). -/
def clearDv (wr : Nat) (w : Work) : Work :=
  if registersAnswer w.dev = false then w.reply .unsupported
  else w.updSock fun s => if bit wr 17 then { s with dv := false } else s

/-- A module detects a partner, or none does any longer (R42). -/
def detectPartner (present : Bool) (w : Work) : Work := (w.updSock fun s => { s with partner := present }).tryTrain

/-- Training is complete with some modules at a common rate (R40, R42). -/
def endTraining (mods rate : Nat) (w : Work) : Work :=
  let s := w.dev.sock
  let m := mods % 16 &&& (15 ^^^ s.off)
  if s.st ≠ 1 ∨ m = 0 ∨ rate = 0 ∨ 5 < rate then w
  else (w.updSock fun x => { x with mods := m, rate := rate }).enterMeasuring

/-- Modules fail to train (R40): with none left the socket is Absent. -/
def failTraining (mods : Nat) (w : Work) : Work :=
  let w1 := w.updSock fun s => { s with off := s.off ||| mods % 16 }
  if w.dev.sock.st = 1 ∧ w1.dev.sock.off = 15 then w1.goAbsent else w1

/-- Modules pass 32 replays within 1 ms and are disabled (R40). A Fenced or Refused socket that loses its last module keeps
RATE beside MODS = 0: the spec says nothing of it (DESIGN CHOICE, notes/assumptions/106.md). -/
def dropModules (mods : Nat) (w : Work) : Work :=
  let s := w.dev.sock
  let left := s.mods &&& (15 ^^^ mods % 16)
  let w1 := w.updSock fun x => { x with mods := left, off := x.off ||| (x.mods &&& mods % 16) }
  if s.mods = 0 ∨ left ≠ 0 ∨ 4 < s.st then w1
  else if s.st = 3 ∨ s.st = 4 then w1.fenceGuest none 47 1
  else w1.goAbsent

/-- SPDM with the guest ends (R43, R55). -/
def endSpdm (ok : Bool) (meas : List Nat) (w : Work) : Work :=
  match w.dev.sock.st with
  | 2 =>
    if ok then w.updSock fun s => { s with measured := true, measLog := s.measLog ++ meas }
    else w.updSock fun s => { s with st := 6 }
  | 3 => w.updSock fun s => { s with spdmBy := none, measLog := s.measLog ++ meas }
  | 4 => w.updSock fun s => { s with spdmBy := none, measLog := s.measLog ++ meas }
  | _ => w

/-- The root of trust measures an admitted guest again (R55). -/
def askSpdm (w : Work) : Work :=
  w.updSock fun s => if (s.st = 3 ∨ s.st = 4) ∧ s.spdmBy.isNone then { s with spdmBy := some (w.dev.now + 60000000) } else s

-- Packets of gfq (R46 to R48)

/-- The partition that the guest acts for at the queues' homes: the bound one from BIND to UNBIND, while the OWNER of the queues
is that partition's (R45). -/
def guestPart (d : Dev) : Nat :=
  let s := d.sock
  if s.st = 4 ∧ s.leaving = false ∧ (d.partOf s.part).granules.contains (granuleOf (s.cbs.headD 0), 1) then s.part else 16

/-- The common fields of a guest packet are as R47 and R48 ask. -/
def guestPacketOk (s : Sock) (p : Nat) : Bool :=
  pkV p && pkCheck p && decide (packedBytes p 1 1 % 128 = 0) && decide (packedBytes p 3 1 = 0) &&
    decide (packedBytes p 2 1 = if s.st = 4 then s.part else 0)

/-- A HELLO declares what a guest may (R43). -/
def helloOk (s : Sock) (p : Nat) : Bool :=
  let f (off n : Nat) : Nat := packedBytes p off n
  guestPacketOk s p && decide (1 ≤ f 8 1) && decide (f 8 1 ≤ 50) && decide (1 ≤ f 9 1) && decide (f 9 1 ≤ 8) &&
    decide (1 ≤ f 12 4) && decide (f 12 4 ≤ 16384) && decide (f 10 1 < 2) && decide (f 11 1 = 0) && decide (f 24 38 = 0)

/-- The guest is admitted (R43, R45); the queues it does not use are poisoned, whole as they are, and their records go
where `poisonAs` sends them (notes/assumptions/96.md). -/
def Work.admitGuest (w : Work) (p : Nat) : Work :=
  let n := packedBytes p 9 1
  let w1 := w.updSock fun s => { s with
    st := 3, bound := packedBytes p 8 1, queues := n, saveKib := packedBytes p 12 4, caches := bit (packedBytes p 10 1) 0
    helloBy := none, seq := 0, ctl := [] }
  ((List.range 8).filter fun k => decide (n ≤ k)).foldl (fun a k => a.poisonWhole (guestCb a k)) w1

/-- The rest of an acknowledged UNBIND, once the directory has recalled every line (R55): the socket is Admitted. -/
def Work.settleUnbind (w : Work) : Work :=
  if w.dev.sock.leaving ∧ w.dev.sock.dir.isEmpty then w.updSock fun s => { s with
    st := 3, part := 0, leaving := false, suspended := false, snoops := [], tlb := [], stale := [], taken := [] }
  else w

/-- An acknowledged UNBIND (R45, R55): cause 21 for what is left, OWNER 16, and the directory recalls the guest's lines by
snoop. -/
def Work.unbindGuest (w : Work) : Work :=
  let w1 := w.endElements w.dev.sock.part 21
  let w2 := ((List.range 8).foldl (fun a k => a.endWaiters (guestCb a k) 11) w1).ownQueues 16
  ((w2.dev.sock.dir.foldl (fun a x => a.askFor x.line) w2).updSock fun s => { s with leaving := true }).settleUnbind

/-- The control packet that an ACK names, if there is one. -/
def ackOf (s : Sock) (p : Nat) : Option CtlPkt :=
  s.ctl.find? fun c => decide (c.kind = packedBytes p 8 1) && decide (c.seq = packedBytes p 12 4)

/-- The rest of an ACK is in order (R48, R54). -/
def ackOk (c : CtlPkt) (p : Nat) : Bool :=
  let kib := packedBytes p 16 4
  decide (packedBytes p 9 3 = 0) && decide (packedBytes p 20 42 = 0) &&
    (if c.kind = 0x22 then decide (kib ≤ c.kib) else decide (kib = 0))

/-- The duty that a control packet of a kind carries. -/
def dutyOf (kind : Nat) : Nat := if kind = 0x22 then 3 else if kind = 0x24 ∨ kind = 0x25 then 5 else 1

/-- The deadline of a control packet has passed. -/
def CtlPkt.late (c : CtlPkt) (now : Nat) : Bool :=
  match c.due with
  | none => false
  | some t => decide (t ≤ now)

/-- An ACK that stood in a slot claimed at a time is taken (R45, R48, R53 to R55). -/
def Work.judgeAck (w : Work) (p since : Nat) : Work :=
  match ackOf w.dev.sock p with
  | none => w.missDuty 7
  | some c =>
    if ackOk c p = false then w.missDuty 7
    else if c.late since then w.missDuty (dutyOf c.kind)
    else
      let w1 := w.updSock fun x => { x with ctl := x.ctl.filter fun y => decide (y ≠ c) }
      match c.kind with
      | 0x22 => w1.updSock fun x => { x with suspended := true }
      | 0x23 => w1.updSock fun x => { x with suspended := false }
      | 0x24 => (w1.ownQueues c.part).updSock fun x => { x with st := 4, part := c.part }
      | 0x25 => w1.unbindGuest
      | _ => w1

/-- A FAULT is taken (R46, R48, R49): error code 57 for the one command it names. -/
def Work.judgeFault (w : Work) (p : Nat) : Work :=
  if packedBytes p 20 4 ≠ 0 then w.missDuty 7
  else
    let word := packedBytes p 8 8
    let tag := packedBytes p 16 2
    (w.endTaken fun e => decide (packedBytes e 8 8 = word) && decide (packedBytes e 16 2 = tag)).endCommandWord
      (if w.dev.sock.st = 4 then w.dev.sock.part else 16) word 57 (packedBytes p 18 2)

/-- A packet of gfq whose check is right is taken (R43, R48, R49): in Measuring it is judged as a HELLO; after admission a
further HELLO changes nothing, and is malformed only as R48 says. -/
def Work.judgeGfq (w : Work) (p since : Nat) : Work :=
  let s := w.dev.sock
  if s.st = 2 then (if pkKind p = 0x42 ∧ helloOk s p then w.admitGuest p else w.updSock fun x => { x with st := 6 })
  else if s.st ≠ 3 ∧ s.st ≠ 4 then w
  else if guestPacketOk s p = false then w.missDuty 7
  else match pkKind p with
    | 0x40 => w.judgeFault p
    | 0x41 => w.judgeAck p since
    | 0x42 =>
      if packedBytes p 10 1 < 2 ∧ packedBytes p 11 1 = 0 ∧ packedBytes p 24 38 = 0 then w else w.missDuty 7
    | _ => w.missDuty 7

/-- A packet of gfq is malformed (R43, R48). -/
def Work.badGfq (w : Work) : Work :=
  if w.dev.sock.st = 2 then w.updSock fun x => { x with st := 6 } else w.missDuty 7

/-- The front end has a claimed slot of gfq to read. A HELLO that the guest places before its SPDM measurement has ended stands
in gfq until then (DESIGN CHOICE, notes/assumptions/115.md). -/
def gfqDue (s : Sock) (now : Nat) : Bool :=
  (decide (s.st ≠ 2) || s.measured) && s.claims.head?.any fun c => decide (c.at_ ≤ now)

/-- The front end reads the oldest claimed slot of gfq (R47, R85): a slot with V = 0 is looked at again until 10 ms after the
first such read, one whose check fails is read up to 4 more times, 64 cc apart, and what is then no good is malformed. A packet
leaves the queue when it is taken, its byte 1 written to 0; where the home refuses to free the slot, nothing is taken from what
is no longer a queue. -/
def readGfq (w : Work) : Work :=
  let s := w.dev.sock
  match s.claims with
  | [] => w
  | c :: rest =>
    let now := w.dev.now
    if gfqDue s now = false then w
    else
      let cb := guestCb w 9
      let b := w.block cb
      let slot := b.ring + c.pos % b.cap * 64
      let r := Work.agentRead (feAgent 1) 2 slot 64 w
      let p := r.1
      let keep (x : GfqClaim) : Work := r.2.updSock fun y => { y with claims := x :: rest }
      let stall := c.stall.getD (now + 6000000)
      let taken (act : Work → Work) : Work :=
        let q := r.2.atHome cb (queueSlice w cb) cb (r.2.dev.agentTime (feAgent 1)) .device (.dequeue false)
        match q.1 with
        | .done _ _ _ =>
          act ((Work.agentWrite (feAgent 1) 1 (slot + 1) 1 0 q.2).updSock fun x => { x with claims := rest })
        | .refused _ => q.2.updSock fun x => { x with claims := [] }
        | .full => q.2
        | .empty => q.2.updSock fun x => { x with claims := [] }
        | .waiting => q.2
        | .held => q.2
      if pkV p = false then
        (if stall ≤ now then taken Work.badGfq else keep { c with at_ := now + 64, stall := some stall })
      else if pkCheck p = false then
        (if 4 ≤ c.tries then taken Work.badGfq else keep { c with tries := c.tries + 1, at_ := now + 64 })
      else taken fun x => x.judgeGfq p c.since

/-- The guest claims a slot of gfq for a packet (R44 to R47, R108): with the packet, as one enqueue transaction, or the slot
alone, whose count it is told and which it writes after. The home's checks of the block come before the state of the socket
(R125). -/
def Work.claimGfq (w : Work) (p : Nat) (whole : Bool) : Work :=
  let s := w.dev.sock
  let cb := guestCb w 9
  let who : Requester := .guest (guestPart w.dev)
  let full := (decide (s.st = 2) && decide (pkKind p ≠ 0x42)) ||
    ((decide (s.st = 3) || decide (s.st = 4)) && decide (pkKind p = 0x40) && decide ((w.block cb).free ≤ 64))
  if s.st ≠ 2 ∧ s.st ≠ 3 ∧ s.st ≠ 4 then w.reply .none
  else if full ∧ homeCheck w cb (queueSlice w cb) who = none then w.reply .queueFull
  else
    let r := w.atHome cb (queueSlice w cb) cb (w.dev.agentTime guestAgent) who (if whole then .enqueue p false else .claim)
    match r.1 with
    | .done k _ _ =>
      let c : GfqClaim := { pos := k, at_ := w.dev.now, since := w.dev.now, open_ := !whole }
      ((r.2.reply (if whole then .done else .value k)).updSock fun x => { x with claims := x.claims ++ [c] }).atOnce readGfq
    | .full => r.2.reply .queueFull
    | .empty => r.2.reply .queueFull
    | .waiting => w
    | .held => w
    | .refused c => if c = 12 then r.2.missDuty 2 else r.2.reply .guestError

/-- The guest writes the packet of the oldest slot that it has claimed and not written (R108). -/
def Work.writeGfq (w : Work) (c : GfqClaim) (p : Nat) : Work :=
  let b := w.block (guestCb w 9)
  let w1 := Work.agentWrite guestAgent 2 (b.ring + c.pos % b.cap * 64) 64 p w
  ((w1.reply .done).updSock fun x => { x with claims := x.claims.map fun y =>
    if y = c then { c with open_ := false, at_ := w.dev.now } else y }).atOnce readGfq

/-- The guest's use of gfq by its queue channel: a packet without V claims a slot for one of its KIND, and a packet with V fills
the oldest slot so claimed, or else is placed with its own claim. How a claim says what it is for, the spec leaves open (DESIGN
CHOICE, notes/assumptions/116.md). -/
def guestSlot (p : Nat) (w : Work) : Work :=
  if pkV p = false then w.claimGfq p false
  else match w.dev.sock.claims.find? fun c => c.open_ with
    | some c => w.writeGfq c p
    | none => w.claimGfq p true

/-- HELLO (R43, R45). -/
def takeHello (p : Nat) (w : Work) : Work := w.claimGfq p true

/-- ACK (R45, R48, R53 to R55). -/
def takeAck (p : Nat) (w : Work) : Work := w.claimGfq p true

/-- FAULT (R46, R48, R49). -/
def takeFault (p : Nat) (w : Work) : Work := w.claimGfq p true

/-- The guest takes an element of an engine queue or of gcq, or places one in gfq (R45 to R48). What it is told where the queue is
empty the spec does not say: the same as where gfq is full (DESIGN CHOICE, notes/assumptions/117.md). -/
def guestClaim (q elem : Nat) (w : Work) : Work :=
  let s := w.dev.sock
  if q = 9 then guestSlot elem w
  else if s.st = 2 then w.reply .queueFull
  else if (s.st ≠ 3 ∧ s.st ≠ 4) ∨ 9 < q then w.reply .none
  else
    let cb := guestCb w q
    let r := w.atHome cb (queueSlice w cb) cb (w.dev.agentTime guestAgent) (.guest (guestPart w.dev)) (.dequeue false)
    match r.1 with
    | .done _ e _ => (if q < 8 then r.2.updSock fun x => { x with taken := x.taken ++ [e] } else r.2).reply (.value e)
    | .full => r.2.reply .queueFull
    | .empty => r.2.reply .queueFull
    | .waiting => w
    | .held => w
    | .refused c => if c = 12 then r.2.missDuty 2 else r.2.reply .guestError

-- Control packets (R46, R53 to R55)

/-- A control packet is placed in gcq, where fewer than 64 wait for their ACK (R46), and what goes with it is done. -/
def Work.placeCtl (w : Work) (c : CtlPkt) (part body : Nat) (and_ : Sock → Sock) : Work :=
  let s := w.dev.sock
  if 64 ≤ s.ctl.length then w
  else
    let p := c.kind + 2 ^ 15 + 2 ^ 16 * part + 2 ^ 32 * (s.seq % 2 ^ 32) + 2 ^ 64 * (body % 2 ^ 432)
    let cb := guestCb w 8
    let r := w.atHome cb (queueSlice w cb) cb (w.dev.agentTime (feAgent 1)) .device
      (.enqueue (p + 2 ^ 496 * crc16 (clearV p) 62) false)
    match r.1 with
    | .done _ _ _ => r.2.updSock fun x => and_ { x with
        seq := (x.seq + 1) % 2 ^ 32, ctl := x.ctl ++ [{ c with seq := s.seq % 2 ^ 32 }] }
    | .refused _ => r.2
    | .full => w
    | .empty => w
    | .waiting => w
    | .held => w

/-- Control packets of some kind wait for their ACK. -/
def ctlWaits (s : Sock) (kinds : List Nat) : Bool := s.ctl.any fun c => kinds.contains c.kind

/-- PREEMPT (R54); where the save area lies is the firmware's choice. Beside the BIND and UNBIND of which R55 speaks, it is
withheld while a RESUME waits for its ACK and while the guest is suspended already, which the spec leaves open (DESIGN CHOICE,
notes/assumptions/104.md). -/
def sendPreempt (w : Work) : Work :=
  let s := w.dev.sock
  if s.st ≠ 4 ∨ s.leaving ∨ s.suspended ∨ ctlWaits s [0x22, 0x23, 0x24, 0x25] then w
  else
    let f := w.free
    let base := f.1 % 2 ^ 56
    f.2.placeCtl { kind := 0x22, seq := 0, due := some (w.dev.now + 600 * s.bound), kib := s.saveKib } s.part
      (base + 2 ^ 64 * s.saveKib + 2 ^ 96 * s.bound) fun y => { y with saveBase := base }

/-- RESUME (R54), which names the PREEMPT's save area (Table 2.5). -/
def sendResume (w : Work) : Work :=
  let s := w.dev.sock
  if s.st ≠ 4 ∨ s.leaving ∨ s.suspended = false ∨ ctlWaits s [0x22, 0x23, 0x25] then w
  else w.placeCtl { kind := 0x23, seq := 0 } s.part (s.saveBase + 2 ^ 64 * s.saveKib) id

/-- BIND (R45, R55). It is sent only for a partition that is Running; the spec does not say for which it may be sent (DESIGN
CHOICE, notes/assumptions/105.md). -/
def sendBind (part : Nat) (w : Work) : Work :=
  let s := w.dev.sock
  if s.st ≠ 3 ∨ ctlWaits s [0x22, 0x24, 0x25] ∨ (w.dev.partOf part).st ≠ 3 then w
  else w.placeCtl { kind := 0x24, seq := 0, due := some (w.dev.now + 60000), part := part } part 0 id

/-- UNBIND (R45, R55). -/
def sendUnbind (w : Work) : Work :=
  let s := w.dev.sock
  if s.st ≠ 4 ∨ s.leaving ∨ ctlWaits s [0x22, 0x25] then w
  else w.placeCtl { kind := 0x25, seq := 0, due := some (w.dev.now + 60000) } s.part 0 id

/-- log2 of a page size. -/
def pageLog (size : Nat) : Nat := ([12, 16, 21, 30, 34].find? fun n => decide (size = 2 ^ n)).getD 12

/-- The translations that the guest may hold and that have changed are invalidated (R53): one page, or all where several
have. Their frames are withheld, and the writes of their table lines wait, until the ACK. -/
def sendInval (w : Work) : Work :=
  let s := w.dev.sock
  match s.stale with
  | [] => w
  | e :: rest =>
    if s.st ≠ 4 ∨ 64 ≤ s.ctl.length then w
    else
      let f := w.free
      let due := some (w.dev.now + 1200)
      if rest.isEmpty ∨ f.1 % 2 = 0 then
        f.2.placeCtl { kind := 0x20, seq := 0, due := due, frames := [(e.frame, e.size)], lines := e.lines } s.part
          (e.base + 2 ^ 64 * pageLog e.size + 2 ^ 96) fun y => { y with stale := rest }
      else
        f.2.placeCtl { kind := 0x21, seq := 0, due := due, frames := s.stale.map fun x => (x.frame, x.size)
                       lines := s.stale.flatMap fun x => x.lines } s.part 0 fun y => { y with stale := [] }

/-- A control packet's deadline has passed, and no slot of gfq claimed in time may still hold its ACK (R53 to R55). -/
def CtlPkt.missed (c : CtlPkt) (s : Sock) (now : Nat) : Bool :=
  c.late now && s.claims.all fun x => c.late x.since

/-- A control packet of some kinds has missed its deadline (R53 to R55). -/
def missDeadline (kinds : List Nat) (seq : Nat) (w : Work) : Work :=
  match w.dev.sock.ctl.find? fun c => kinds.contains c.kind && decide (c.seq = seq) with
  | none => w
  | some c => if c.missed w.dev.sock w.dev.now then w.missDuty (dutyOf c.kind) else w

/-- No HELLO has come within 100 ms (R42). -/
def limitHello (w : Work) : Work :=
  match w.dev.sock.helloBy with
  | none => w
  | some t => if w.dev.sock.st = 2 ∧ t ≤ w.dev.now then w.updSock fun s => { s with st := 6, helloBy := none } else w

/-- A snoop has not been answered within 2 us (R50). -/
def limitSnoop (line : Nat) (w : Work) : Work :=
  if w.dev.sock.snoops.any fun s => decide (s.1 = line) && decide (s.2 ≤ w.dev.now) then w.missDuty 4 else w

/-- An SPDM request after admission has not been answered within 100 ms (R55). -/
def limitSpdm (w : Work) : Work :=
  match w.dev.sock.spdmBy with
  | none => w
  | some t => if t ≤ w.dev.now then w.missDuty 6 else w

-- The coherent port (R44, R50, R51)

/-- A frame that the bound guest has not been granted (R51). -/
def notGranted (d : Dev) (pa n : Nat) : Bool :=
  decide (n = 0) || (linesOf pa n).any fun l =>
    decide (regionOf (64 * l) ≠ .stacked) || !granuleOwned d d.sock.part (granuleOf (64 * l)) ||
      (inRanges d.secGran (granuleOf (64 * l)) && !d.sock.sec)

/-- The directory grants a line, the newest first (R50). -/
def Work.grantLine (w : Work) (l : Nat) (owned : Bool) : Work :=
  let h := w.dev.coh.line l
  let t0 := w.dev.agentTime guestAgent
  let t := if owned then max t0 (h.rts + 1) else max t0 h.wts
  let times : LineTime := if owned then { wts := t, rts := t } else { wts := h.wts, rts := max h.rts (t0 + agentLease) }
  ((w.updCoh fun c => { c with lines := c.lines.set l times }).raiseAgent guestAgent t).updSock fun s => { s with
    dir := { line := l, owned := owned, rts := times.rts } :: s.dir.filter fun x => decide (x.line ≠ l) }

/-- The line that has to leave a full directory of 131,072 lines before a line may enter it: the least recently granted
(R50). -/
def crowdedOut (s : Sock) (l : Nat) : Option Nat :=
  if (s.dir.all fun x => decide (x.line ≠ l)) ∧ 131072 ≤ s.dir.length then s.dir.getLast?.map (·.line) else none

/-- A completion barrier word that the guest's write of some bytes changed ends the one command it belongs to (R49): `w0` is
the state before the write. -/
def Work.commandsWritten (w w0 : Work) (pa n : Nat) : Work :=
  let words := (w0.dev.sock.taken.map fun e => packedBytes e 8 8).eraseDups
  words.foldl (fun a va =>
    match translate w0 (deviceAsker w0.dev w0.dev.sock.part 1) [] va with
    | .error e => a.awaits e
    | .ok x =>
      if pa ≤ x.pa ∧ x.pa < pa + n ∧ w0.pread x.pa 8 ≠ w.pread x.pa 8 then a.endTaken fun e => decide (packedBytes e 8 8 = va)
      else a) w

/-- A line leaves the directory, with the snoop of it. -/
def Work.giveBack (w : Work) (l : Nat) : Work :=
  w.updSock fun s => { s with
    dir := s.dir.filter fun x => decide (x.line ≠ l), snoops := s.snoops.filter fun x => decide (x.1 ≠ l) }

/-- What the guest's own access to some bytes waits for: busy homes, the host, and for a write or ownership what depends on the
lines; not its own copies (R50, R76, R78, R163). -/
def guestWaits (d : Dev) (pa n : Nat) (write : Bool) : Bool :=
  outsideWaits { d with sock := { d.sock with dir := [] } } pa n write

/-- The guest writes some bytes, and a command may be over. -/
def Work.guestWrite (w : Work) (pa n data : Nat) : Work :=
  (Work.agentWrite guestAgent (n / 64 + 2) pa n data w).commandsWritten w pa n

/-- A CXL.cache request of the guest (R44, R50, R51). -/
def guestRequest (req : MemReq) (w : Work) : Work :=
  let d := w.dev
  let l := req.addr / 64
  let held := d.sock.dir.find? fun x => decide (x.line = l)
  let bad := rangeFault d 1 req.addr req.len false
  if d.sock.st ≠ 4 then w.reply .guestError
  else if notGranted d req.addr req.len then (w.reply .guestError).missDuty 2
  else if bad ≠ 0 ∨ anyPrivate d req.addr req.len then w.reply .guestError
  else match req.kind with
    | 3 =>
      if held.any fun x => x.owned then
        (((w.giveBack l).guestWrite (64 * l) 64 req.data).settleUnbind).reply .done
      else w.reply .guestError
    | 4 => ((if held.any fun x => x.owned then w else w.giveBack l).settleUnbind).reply .done
    | k =>
      if 2 < k ∨ d.sock.leaving then w.reply .guestError
      else if k = 1 then
        if outsideWaits d req.addr req.len true then (w.snoopLines req.addr req.len).askAgain 1 0 req
        else (w.guestWrite req.addr req.len req.data).reply .done
      else if guestWaits d req.addr req.len (decide (k = 2)) then w.askAgain 1 0 req
      else match crowdedOut d.sock l with
        | some x => (w.askFor x).askAgain 1 0 req
        | none =>
          let poison := w.poisonAt (64 * l) 64
          (w.grantLine l (decide (k = 2))).reply (if poison ≠ 0 then .poisoned else .value (w.pread (64 * l) 64))

/-- The guest answers a snoop (R50): data of an owned line are written, and the line leaves the directory. -/
def answerSnoop (line data : Nat) (w : Work) : Work :=
  if (w.dev.sock.st ≠ 3 ∧ w.dev.sock.st ≠ 4) ∨ (w.dev.sock.snoops.all fun s => decide (s.1 ≠ line)) then w
  else
    let w1 := w.giveBack line
    (if guestOwns w.dev line then w1.guestWrite (64 * line) 64 data else w1).settleUnbind

/-- The guest asks for a translation (R44, R52): `acc` is 0 for a read, 1 for a write, 2 for an atomic. -/
def guestTranslate (va acc : Nat) (w : Work) : Work :=
  let s := w.dev.sock
  if s.st ≠ 4 ∨ s.leaving then w.reply .guestError
  else match (if 2 ^ 56 ≤ va then .error (.refused 8) else
      translate w { part := s.part, sec := s.sec, die := 1 } [if acc = 0 then .read else if acc = 1 then .write else .atomic] va) with
    | .error e => (w.awaits e).reply .noTranslation
    | .ok x =>
      let e : TlbEntry := { part := s.part, base := va - va % x.size, size := x.size, frame := x.frame,
                            perms := x.perms, cls := x.cls, handle := x.handle, lines := x.lines }
      (w.updSock fun y => { y with tlb := e :: y.tlb.filter fun z => decide (z ≠ e) }).reply
        (.translation x.frame x.size x.perms (inRanges w.dev.secGran (granuleOf x.pa)))

/-- A write of `gs.ctl` EN (R41, R42, R56). -/
def execGsCtlEn (on : Bool) (σ : State) : Host.Outcome State Fault Refusal :=
  .next (enableSocket on (Work.begin σ)).commit

/-- A socket link reset (R42, R51). -/
def execSocketLinkReset (σ : State) : Host.Outcome State Fault Refusal :=
  .next (resetLink (Work.begin σ)).commit

/-- A write of 1 to `gs.stat` DV (R41). -/
def execGsStatDvClear (wr : Nat) (σ : State) : Host.Outcome State Fault Refusal :=
  .next (clearDv wr (Work.begin σ)).commit

/-- A module detects a partner (R42). -/
def execPartnerDetect (present : Bool) (σ : State) : Host.Outcome State Fault Refusal :=
  .next (detectPartner present (Work.begin σ)).commit

/-- Training completes (R40, R42, R45). -/
def execModuleTrained (mods : Nat) (rate : Nat) (σ : State) : Host.Outcome State Fault Refusal :=
  .next (endTraining mods rate (Work.begin σ)).commit

/-- Modules fail to train (R40, R42). -/
def execModuleTrainingFail (mods : Nat) (σ : State) : Host.Outcome State Fault Refusal :=
  .next (failTraining mods (Work.begin σ)).commit

/-- Modules pass the replay limit (R40, R42, R56). -/
def execModuleReplayLimit (mods : Nat) (σ : State) : Host.Outcome State Fault Refusal :=
  .next (dropModules mods (Work.begin σ)).commit

/-- SPDM with the guest ends (R42, R43, R55). -/
def execGuestSpdmComplete (ok : Bool) (meas : List Nat) (σ : State) : Host.Outcome State Fault Refusal :=
  .next (endSpdm ok meas (Work.begin σ)).commit

/-- HELLO (R43, R45). -/
def execHello (pkt : Nat) (σ : State) : Host.Outcome State Fault Refusal :=
  .next (takeHello pkt (Work.begin σ)).commit

/-- No HELLO within 100 ms of the entry to Measuring (R42). -/
def execHelloTimeout (σ : State) : Host.Outcome State Fault Refusal :=
  .next (limitHello (Work.begin σ)).commit

/-- ACK (R45, R48, R53 to R55). -/
def execAck (pkt : Nat) (σ : State) : Host.Outcome State Fault Refusal :=
  .next (takeAck pkt (Work.begin σ)).commit

/-- FAULT (R46, R48, R49). -/
def execFault (pkt : Nat) (σ : State) : Host.Outcome State Fault Refusal :=
  .next (takeFault pkt (Work.begin σ)).commit

/-- PREEMPT (R54). -/
def execPreempt (σ : State) : Host.Outcome State Fault Refusal :=
  .next (sendPreempt (Work.begin σ)).commit

/-- RESUME (R54). -/
def execResume (σ : State) : Host.Outcome State Fault Refusal :=
  .next (sendResume (Work.begin σ)).commit

/-- BIND (R45, R55). -/
def execBind (part : Nat) (σ : State) : Host.Outcome State Fault Refusal :=
  .next (sendBind part (Work.begin σ)).commit

/-- UNBIND (R45, R55). -/
def execUnbind (σ : State) : Host.Outcome State Fault Refusal :=
  .next (sendUnbind (Work.begin σ)).commit

/-- An INVAL has not been acknowledged within 2 us (R53, R56). -/
def execInvalAckTimeout (seq : Nat) (σ : State) : Host.Outcome State Fault Refusal :=
  .next (missDeadline [0x20, 0x21] seq (Work.begin σ)).commit

/-- A PREEMPT has not been acknowledged within the declared bound (R54, R56). -/
def execPreemptDeadline (seq : Nat) (σ : State) : Host.Outcome State Fault Refusal :=
  .next (missDeadline [0x22] seq (Work.begin σ)).commit

/-- A snoop has not been answered within 2 us (R50, R56). -/
def execSnoopTimeout (line : Nat) (σ : State) : Host.Outcome State Fault Refusal :=
  .next (limitSnoop line (Work.begin σ)).commit

/-- A BIND or UNBIND has not been acknowledged within 100 us (R55, R56). -/
def execBindAckTimeout (seq : Nat) (σ : State) : Host.Outcome State Fault Refusal :=
  .next (missDeadline [0x24, 0x25] seq (Work.begin σ)).commit

/-- An SPDM request after admission has not been answered within 100 ms (R55, R56). -/
def execSpdmResponseTimeout (σ : State) : Host.Outcome State Fault Refusal :=
  .next (limitSpdm (Work.begin σ)).commit

/-- A CXL.cache request of the guest (R44, R50, R51). -/
def execGuestCxlCacheRequest (req : MemReq) (σ : State) : Host.Outcome State Fault Refusal :=
  .next (guestRequest req (Work.begin σ)).commit

/-- The guest answers a snoop (R50). -/
def execGuestSnoopResponse (line : Nat) (data : Nat) (σ : State) : Host.Outcome State Fault Refusal :=
  .next (answerSnoop line data (Work.begin σ)).commit

/-- The guest asks for a translation (R44, R52). -/
def execGuestTranslationRequest (va : Nat) (acc : Nat) (σ : State) : Host.Outcome State Fault Refusal :=
  .next (guestTranslate va acc (Work.begin σ)).commit

/-- The guest claims or releases a slot of a guest queue (R44 to R46). -/
def execGuestQueueClaim (q : Nat) (elem : Nat) (σ : State) : Host.Outcome State Fault Refusal :=
  .next (guestClaim q elem (Work.begin σ)).commit

end Sys2Proof.Machine
end

