-- ==== Sys2Proof/Machine/Branch.lean ====
section
/-! DEFINITION. The branch forms and the loops (R220 to R222, R311 to R314). -/

namespace Sys2Proof.Machine

/-- The bundle lies in an open loop body (R221). -/
def inBody (w : Work) : Bool := w.me.loop.isOpen || w.dev.issue.inBody

/-- The encoding checks of a branch form, made whether or not its guard is true (R221, R312). -/
def branchChecks (w : Work) : Except Stop Unit := do
  check (!inBody w) 7
  check (w.me.br.isNone) 1

/-- The distance operand B of a branch form and the port's load. A follower of a quire does not consult its own registers
(R312). -/
def branchB (w : Work) (om : BitVec 2) (os : BitVec 7) : Except Stop (Word × Work) :=
  match readPort w 4 om os with
  | .ok b => .ok (b, w.setPort 4 b)
  | .error e => if w.dev.issue.follows then .ok (0, w) else .error e

/-- The operand A of a branch form; a follower's is not consulted (R312). -/
def branchA (w : Work) (ts : BitVec 7) : Except Stop Word :=
  match readSel w ts.toNat with
  | .ok a => .ok a
  | .error e => if w.dev.issue.follows then .ok 0 else .error e

/-- Here + 32 x B, modulo 2^64 (R311). -/
def hereTarget (w : Work) (b : Word) : Nat := (BitVec.ofNat 64 w.dev.issue.pc + 32 * b).toNat

/-- The branch becomes pending: its target issues after the two delay bundles (R222, R312). The lead's outcome holds for
every member of a quire (R139). -/
def Work.branchTo (w : Work) (target : Nat) (taken : Bool) : Work :=
  let own : Branch := { target := target, left := 3, taken := taken, pc := w.dev.issue.pc }
  let b : Branch := if w.dev.issue.follows then w.dev.issue.leadBr.getD own else own
  w.updMe fun c => { c with br := some b }

/-- The return address of a call form, landing at t + 1 (R311). -/
def Work.link (w : Work) (wd : BitVec 6) (we : BitVec 1) : Work :=
  w.launchAt 1 (.scalar 4 (BitVec.ofNat 64 (w.dev.issue.pc + 96)) (dest we wd.toNat) 0)

/-- The plan of `j` (R311). -/
def jPlan (om : BitVec 2) (os : BitVec 7) (w : Work) : Plan := do
  branchChecks w
  if guardTrue w = false then .ok w
  else do
    let (b, w1) ← branchB w om os
    .ok (w1.branchTo (hereTarget w b) true)

/-- The plan of `jr` and `ret` (R311). -/
def jrPlan (ts : BitVec 7) (w : Work) : Plan := do
  branchChecks w
  if guardTrue w = false then .ok w
  else do
    let a ← branchA w ts
    .ok (w.branchTo a.toNat true)

/-- The plan of `call` (R311). -/
def callPlan (om : BitVec 2) (os : BitVec 7) (wd : BitVec 6) (we : BitVec 1) (w : Work) : Plan := do
  branchChecks w
  if guardTrue w = false then .ok w
  else do
    let (b, w1) ← branchB w om os
    .ok ((w1.branchTo (hereTarget w b) true).link wd we)

/-- The plan of `callr` (R311). -/
def callrPlan (ts : BitVec 7) (wd : BitVec 6) (we : BitVec 1) (w : Work) : Plan := do
  branchChecks w
  if guardTrue w = false then .ok w
  else do
    let a ← branchA w ts
    .ok ((w.branchTo a.toNat true).link wd we)

/-- The plan of `br` (R311). -/
def brPlan (om : BitVec 2) (os ts : BitVec 7) (q : BitVec 2) (w : Work) : Plan := do
  branchChecks w
  if guardTrue w = false then .ok w
  else do
    let a ← branchA w ts
    let (b, w1) ← branchB w om os
    .ok (w1.branchTo (hereTarget w b) (branchTaken q a))

/-- A nest register as it will stand when every write in flight has landed (R313). -/
def Ctx.nestSoon (c : Ctx) (k : Nat) : NestImage :=
  (sortFlights c.flights).foldl (fun i f => match f.eff with
    | .nestSet j img => if j = k then img else i
    | .nestField j off n v => if j = k then nestPut i off n v else i
    | .scalar _ _ _ _ => i
    | .pred _ _ => i
    | .vector _ _ _ _ _ _ => i
    | .mask _ _ _ _ _ => i
    | .control _ _ => i
    | .loopBind _ => i
    | .accWrite _ _ _ _ _ _ _ => i
    | .unitsZero _ => i
    | .bankSwap _ => i
    | .boundSet _ _ _ => i
    | .timeSeen _ => i) (c.nest.get k 0)

/-- The plan of `loop` (R313): K loads the branch port, and the counters are bound at t + 2. -/
def loopPlan (k : BitVec 4) (w : Work) : Plan :=
  if guardTrue w = false then .ok w
  else do
    check (nestValid (w.me.nestSoon k.toNat)) 37
    check (!inBody w) 7
    .ok ((w.setPort 4 (k.setWidth 64)).launchAt 2 (.loopBind k.toNat))

/-- The plan of `lexit` (R314): the loop is left after the bundle. -/
def lexitPlan (w : Work) : Plan :=
  if guardTrue w = false then .ok w
  else do
    check (inBody w) 7
    .ok (w.updMe fun c => { c with loop := { c.loop with leaving := true } })

/-- `j` (R311, R312). -/
def execJ (om : BitVec 2) (os : BitVec 7) (σ : State) : Host.Outcome State Fault Refusal :=
  .next (slotRun (jPlan om os) σ)

/-- `jr` (R311, R312). -/
def execJr (ts : BitVec 7) (σ : State) : Host.Outcome State Fault Refusal :=
  .next (slotRun (jrPlan ts) σ)

/-- `call`, the return address at t + 1 (R311, R312). -/
def execCall (om : BitVec 2) (os : BitVec 7) (wd : BitVec 6) (we : BitVec 1)
    (σ : State) : Host.Outcome State Fault Refusal :=
  .next (slotRun (callPlan om os wd we) σ)

/-- `callr`, the return address at t + 1 (R311, R312). -/
def execCallr (ts : BitVec 7) (wd : BitVec 6) (we : BitVec 1) (σ : State) : Host.Outcome State Fault Refusal :=
  .next (slotRun (callrPlan ts wd we) σ)

/-- `ret`, which behaves as `jr` (R311). -/
def execRet (ts : BitVec 7) (σ : State) : Host.Outcome State Fault Refusal :=
  .next (slotRun (jrPlan ts) σ)

/-- `br` (R311, R312). -/
def execBr (om : BitVec 2) (os : BitVec 7) (ts : BitVec 7) (q : BitVec 2)
    (σ : State) : Host.Outcome State Fault Refusal :=
  .next (slotRun (brPlan om os ts q) σ)

/-- `loop`, in effect from t + 2 (R313). -/
def execLoop (k : BitVec 4) (σ : State) : Host.Outcome State Fault Refusal :=
  .next (slotRun (loopPlan k) σ)

/-- `lexit` (R314). -/
def execLexit (σ : State) : Host.Outcome State Fault Refusal :=
  .next (slotRun (lexitPlan) σ)

end Sys2Proof.Machine
end

