-- ==== Sys2Proof/Machine/Task.lean ====
section
/-! DEFINITION. Task, tide and bank control (R144, R148, R315 to R317). These forms act after the other slots of their
bundle, when the PC stands at the next bundle. -/

namespace Sys2Proof.Machine

/-- A queue operation that is an enqueue holds the posted operations up (R115, R196). -/
def enqueues (c : Ctx) : List QueueOp := c.qops.filter QueueOp.isEnqueue

/-- A command of a context is on a copy engine. -/
def copiesLeft (w : Work) : Bool := w.myCore.cmds.any fun x => decide (x.ctx = w.dev.issue.bank)

/-- A command of a context is on the weight-load stream; `cal` counts calibrations. -/
def streamLeft (w : Work) (cal : Bool) : Bool :=
  w.myCore.strm.any fun x => decide (x.ctx = w.dev.issue.bank) && (cal || decide (x.form ≠ 2))

/-- A pass of a context is in flight or waiting. -/
def passesLeft (w : Work) : Bool := w.myCore.passes.any fun p => decide (p.ctx = w.dev.issue.bank)

/-- The posted operations of the context have been performed (R196). -/
def postedDone (w : Work) : Bool := w.me.accs.isEmpty && (enqueues w.me).isEmpty

/-- The hold of an ending form, and the faults it reports (R121, R304, R315, R316). -/
def endHold (w : Work) (done : Bool) : Except Stop Unit :=
  if w.dev.issue.sure then .ok ()
  else if !done then .error (.hold .limited)
  else if w.me.late ≠ [] then .error (.report 0 none)
  else if w.me.qlate ≠ [] then .error (.report 2 none)
  else .ok ()

/-- The hold of `task.done` and `task.next` (R315). -/
def taskHold (w : Work) : Except Stop Unit :=
  endHold w (postedDone w && !copiesLeft w && !streamLeft w true && !passesLeft w)

/-- The plan of `task.done` (R315). -/
def taskDonePlan (w : Work) : Plan :=
  if guardTrue w = false then .ok w
  else do
    check (!w.me.ebb) 1
    taskHold w
    .ok (w.retireMember w.dev.issue.core w.dev.issue.bank w.dev.issue.follows)

/-- A member goes on to another task of its launch, its first bundle 4 cycles later (R131, R315); a follower's delayed
bundles stay in line. -/
def Work.memberNext (w : Work) (ix t lead rank : Nat) (ext : List Extent) : Work :=
  let i := w.dev.issue
  let line := w.me.hist
  let w1 := (w.landFlights i.core i.bank).leaveQueues i.core i.bank
  let w2 := (w1.updCtx i.core i.bank Ctx.release).startMember ix t i.bank lead rank i.core ext
  (w2.updCtx i.core i.bank fun c => { c with hist := line }).updCore i.core fun k => { k with goAt := k.raw + 4 }

/-- The task that R136 would give the quire's launch for this quire once its members are idle (R315). -/
def nextHere (w : Work) (core bank : Nat) : Option Nat :=
  let c := w.ctx core bank
  let q := quireOf w.dev core bank
  let die := coreDie core
  let freed := w.releaseQuire q bank
  let l := freed.dev.launch c.ix
  if mayDispatch w.dev die ∧ pickLaunch freed.dev die = some c.ix ∧ l.resumable.isEmpty ∧
      pickQuire freed.dev c.ix die = some (q, bank) then nextTask l die
  else none

/-- `task.next` at the lead: the task retires, and the next task, whose extents translate, starts if there is one for the quire:
one of the dispatches of its die (R136, R315). -/
def Work.leadNext (w : Work) : Work :=
  let i := w.dev.issue
  let c := w.me
  match nextHere w i.core i.bank with
  | none => w.retireMember i.core i.bank false
  | some t =>
    let cl := coreCluster i.core
    let die := coreDie i.core
    match launchExtents w c.ix die t with
    | (.missing _, w1) => w1.retireMember i.core i.bank false
    | (.fails _, w1) => w1.retireMember i.core i.bank false
    | (.ok es, w1) =>
      let w2 := ((w1.countRetired c.ix c.task.toNat i.core i.bank).memberNext c.ix t i.core 0 es).dispatched die
      (w2.updLaunch c.ix fun l => ((l.take die t).charge die)).updLaunch c.ix fun l => { l with
        disp := l.disp.set cl (l.disp.get cl 0 + 1) }

/-- The plan of `task.next` (R315). A follower goes on to the task that its lead went on to, with its lead's extents. -/
def taskNextPlan (w : Work) : Plan :=
  if guardTrue w = false then .ok w
  else do
    check (!w.me.ebb) 1
    taskHold w
    let i := w.dev.issue
    if i.follows then
      match i.leadNext with
      | none => .ok (w.retireMember i.core i.bank true)
      | some t =>
        let lead := w.ctx w.me.lead i.bank
        let ext := if lead.task = BitVec.ofNat 64 t then lead.ext.map (·.2)
          else match (launchExtents w w.me.ix (coreDie i.core) t).1 with
            | .ok es => es
            | .missing _ => []
            | .fails _ => []
        .ok (w.memberNext w.me.ix t w.me.lead w.me.rank ext)
    else .ok w.leadNext

/-- The plan of `tide` (R316): the core reports and issues nothing more; a launch that has failed in its ebb ends with its last
core (R135, R146). -/
def tidePlan (w : Work) : Plan :=
  if guardTrue w = false then .ok w
  else do
    check w.me.ebb 1
    endHold w (postedDone w && !copiesLeft w)
    let i := w.dev.issue
    .ok ((((w.landFlights i.core i.bank).leaveQueues i.core i.bank).updMe fun c =>
      { c.release with st := .reported, ebb := true }).settleLaunch w.me.ix)

/-- The other bank of every member holds a runnable context of the same launch (R317). -/
def otherRunnable (w : Work) (q : List Nat) (bank ix : Nat) : Bool :=
  q.all fun k => (w.ctx k (1 - bank)).runnable && decide ((w.ctx k (1 - bank)).ix = ix)

/-- The plan of `yield` (R317): a bank switch for the whole quire, which its lead's issue makes (R139). -/
def yieldPlan (w : Work) : Plan :=
  if guardTrue w = false then .ok w
  else
    let i := w.dev.issue
    let q := quireOf w.dev i.core i.bank
    if i.follows = false ∧ (w.dev.launch w.me.ix).alt ∧ otherRunnable w q i.bank w.me.ix ∧
        (q.all fun k => !windowOpen w k i.bank) then
      .ok (w.handOver q i.bank)
    else .ok w

/-- `task.done` (R315). -/
def execTaskDone (σ : State) : Host.Outcome State Fault Refusal :=
  .next (slotRun (taskDonePlan) σ)

/-- `task.next` (R315). -/
def execTaskNext (σ : State) : Host.Outcome State Fault Refusal :=
  .next (slotRun (taskNextPlan) σ)

/-- `tide` (R316). -/
def execTide (σ : State) : Host.Outcome State Fault Refusal :=
  .next (slotRun (tidePlan) σ)

/-- `yield` (R317). -/
def execYield (σ : State) : Host.Outcome State Fault Refusal :=
  .next (slotRun (yieldPlan) σ)

end Sys2Proof.Machine
end

