-- ==== Sys2Proof/Machine/System.lean ====
section
/-! DEFINITION. The system unit: traps and return, fences, control words, nest registers and parking on a line (R194,
R195, R318, R319, R322, R326, R329). -/

namespace Sys2Proof.Machine

-- Traps and return

/-- The plan of `trap` (R318): the other slots of its bundle commit, and RESUME is the next bundle. -/
def trapPlan (om : BitVec 2) (os : BitVec 7) (w : Work) : Plan :=
  if guardTrue w = false then .ok w
  else do
    let b ← readPort w 5 om os
    let i := w.dev.issue
    let e : Entry := { cause := 56, tval := b.toNat, epc := i.pc, resume := w.me.pc, extra := slotBits 1 false,
                       begun := w.myCore.raw }
    .ok ((w.setPort 5 b).raise i.core i.bank e)

/-- The plan of `eret` (R230): at level 0 it raises cause 5. -/
def eretPlan (w : Work) : Plan :=
  if guardTrue w = false then .ok w
  else do
    check (decide (w.me.lvl ≠ 0)) 5
    .ok (w.returnFromTrap w.dev.issue.core w.dev.issue.bank)

/-- The plan of `halt` (R318): the task ends with the code in cw.cause[5:0], or 56. -/
def haltPlan (w : Work) : Plan :=
  if guardTrue w = false then .ok w
  else do
    check (decide (w.me.lvl = 2)) 5
    let code := w.me.cause % 64
    .ok (w.endTask w.dev.issue.core w.dev.issue.bank (if code = 0 then 56 else code))

-- Fences

/-- A publish of the context not yet performed. -/
def AccessKind.isPublish : AccessKind → Bool
  | .publish _ _ _ => true
  | .load _ _ _ => false
  | .store _ _ => false
  | .atomic _ _ _ _ _ _ => false
  | .prefetch _ => false
  | .range _ _ => false

/-- A posted store, atomic or range operation not yet performed. -/
def AccessKind.isPosted : AccessKind → Bool
  | .publish _ _ _ => false
  | .load _ _ _ => false
  | .store _ _ => true
  | .atomic _ _ _ _ _ _ => true
  | .prefetch _ => false
  | .range _ _ => true

/-- An access to the host window, to a host-biased granule or to the peer window (Table 8.3). -/
def towardHost (d : Dev) (a : Access) : Bool :=
  !(a.kind matches .range _ _) && !a.kind.isPublish &&
    (match regionOf a.pa with
      | .host => true
      | .peer => true
      | .stacked => !d.coh.devBias.contains (a.pa / 4096)
      | .unmapped => false)

/-- What a fence of each kind still waits for (Table 8.3). On-package memory has one point of order, so scopes 0 to 4 wait
for the same; scope 5 alone waits for what the host and peers acknowledge (R194). -/
def fenceWaits (w : Work) (kind scope : Nat) : Bool :=
  let engine := copiesLeft w || streamLeft w false || w.me.accs.any fun a => a.kind.isPublish
  let queue := !(enqueues w.me).isEmpty
  let host := decide (scope = 5) && w.me.accs.any (towardHost w.dev)
  match kind with
  | 0 => engine
  | 1 => queue
  | 2 => host
  | _ => engine || queue || host || w.me.accs.any fun a => a.kind.isPosted &&
      (decide (scope = 5) || !towardHost w.dev a)

/-- The faults a fence of each kind reports (R121, R169, R304). -/
def fenceReport (c : Ctx) (kind : Nat) : Except Stop Unit :=
  if kind = 3 ∧ c.late ≠ [] then .error (.report 0 none)
  else if (kind = 0 ∨ kind = 3) ∧ c.plate ≠ [] then .error (.report 1 none)
  else if (kind = 1 ∨ kind = 3) ∧ c.qlate ≠ [] then .error (.report 2 none)
  else .ok ()

/-- The plan of `fence` (R194, R319). -/
def fencePlan (kind scope : Nat) (w : Work) : Plan := do
  check (decide (kind ≤ 3) && decide (scope ≤ 5)) 2
  if guardTrue w = false then .ok w
  else if fenceWaits w kind scope then
    .error (.hold (if kind = 1 ∨ kind = 3 then queueHold (enqueues w.me) else .limited))
  else do
    fenceReport w.me kind
    let t := max (if kind = 0 ∨ kind = 3 then w.me.engLts else 0) (if kind = 1 ∨ kind = 3 then w.me.enqLts else 0)
    .ok (w.updMe fun c => { c with lts := max c.lts t + 1 })

/-- The plan of `fence.e` (R195). -/
def fenceEPlan (w : Work) : Plan :=
  if guardTrue w = false then .ok w
  else if w.me.accs.any fun a => a.kind.isPosted || a.kind.isPublish then .error (.hold .limited)
  else if w.me.late ≠ [] then .error (.report 0 none)
  else .ok w

-- Control words

/-- The control word map (Table 11.8). -/
def cwAssigned (n : Nat) : Bool :=
  decide (n ≤ 0x006) || (decide (0x010 ≤ n) && decide (n ≤ 0x016)) || (decide (0x020 ≤ n) && decide (n ≤ 0x023)) ||
    (decide (0x030 ≤ n) && decide (n ≤ 0x032)) || (decide (0x040 ≤ n) && decide (n ≤ 0x045)) ||
    (decide (0x050 ≤ n) && decide (n ≤ 0x057)) || (decide (0x100 ≤ n) && decide (n ≤ 0x10F)) ||
    (decide (0x140 ≤ n) && decide (n ≤ 0x143)) || (decide (0x180 ≤ n) && decide (n ≤ 0x188))

/-- The OPEN bit of a debug word (Table 11.10); none for the other words. -/
def cwOpenBit (n : Nat) : Option Nat :=
  if n < 0x100 then none else if n < 0x140 then some 0 else if n < 0x180 then some 1 else some 2

/-- A word that only reads (Tables 11.8 and 11.10). -/
def cwReadOnly (n : Nat) : Bool :=
  decide (n ≤ 0x013) || decide (n = 0x023) || decide (n = 0x041) ||
    (decide (0x043 ≤ n) && decide (n ≤ 0x045)) || decide (0x142 ≤ n)

/-- cw.colst of the own column (Table 7.6). -/
def colstWord (d : Dev) (core : Nat) : Nat :=
  let c := d.column core
  let dref := packBits ((List.range 8).map fun n => d.dref.get (8 * coreCluster core + n) false)
  c.bus % 4 + 4 * (c.layers - 1) + 32 * dref + 2 ^ 13 * (c.rbad % 4) + (if c.rfail then 2 ^ 15 else 0)

/-- cw.slow0 and cw.slow1 (Table 7.7): the 64 banks from the given one. -/
def slowWord (d : Dev) (core from_ : Nat) : Nat :=
  let c := d.column core
  packBits ((List.range 64).map fun i =>
    decide (c.bus = 2) || d.dref.get (8 * coreCluster core + (from_ + i) / 16) false)

/-- The value that a control word holds (R280, R281); the sensor words read 0 until the first sample after reset. -/
def cwValue (w : Work) (core bank n : Nat) : Word :=
  let c := w.ctx core bank
  let nat (x : Nat) : Word := BitVec.ofNat 64 x
  match n with
  | 0x000 => nat c.rank
  | 0x001 => nat c.quire
  | 0x002 => c.wid
  | 0x003 => c.task
  | 0x004 => nat c.tide
  | 0x005 => nat (w.dev.therm.get (coreCluster core) 255)
  | 0x006 => nat c.audk
  | 0x010 => nat (c.statusWord bank (windowOpen w core bank))
  | 0x011 => nat c.cause
  | 0x012 => c.tval
  | 0x013 => nat c.epc
  | 0x014 => nat c.tvec
  | 0x015 => c.tdel
  | 0x016 => nat c.tframe
  | 0x020 => c.frz
  | 0x021 => nat c.frzlim
  | 0x022 => nat c.qwait
  | 0x023 => nat c.dist
  | 0x030 => nat c.split
  | 0x031 => nat c.bndlim
  | 0x032 => nat c.mmode
  | 0x040 => nat c.l2div
  | 0x041 => nat c.lts
  | 0x042 => nat c.lease
  | 0x043 => nat (colstWord w.dev core)
  | 0x044 => nat (slowWord w.dev core 0)
  | 0x045 => nat (slowWord w.dev core 64)
  | 0x140 => nat (if c.trc then 1 else 0)
  | 0x141 => nat c.trix
  | 0x142 => c.trdat.get c.trix 0
  | 0x143 => nat (min c.trcnt (2 ^ 32 - 1))
  | 0x180 => nat (wrap 16 (w.dev.junc.get (coreCluster core) 0))
  | _ =>
    if 0x050 ≤ n ∧ n ≤ 0x057 then (c.barmask.get (n - 0x050) 0).setWidth 64
    else if 0x100 ≤ n ∧ n ≤ 0x107 then c.cnt.get (n - 0x100) 0
    else if 0x108 ≤ n ∧ n ≤ 0x10F then nat (c.evs.get (n - 0x108) 0)
    else if 0x181 ≤ n ∧ n ≤ 0x188 then nat (wrap 16 (w.dev.layer.get (8 * coreCluster core + (n - 0x181)) 0))
    else 0

/-- The checks that `rdcw` and `wrcw` share (R270, R280, R281). -/
def cwChecks (w : Work) (b : Word) : Except Stop Unit := do
  check (decide (b.toNat < 2 ^ 12)) 2
  check (cwAssigned b.toNat) 2
  match cwOpenBit b.toNat with
  | none => .ok ()
  | some k => check (bit (w.dev.launch w.me.ix).opens k) 60

/-- The plan of `rdcw` (R322). -/
def rdcwPlan (om : BitVec 2) (os : BitVec 7) (wd : BitVec 6) (we : BitVec 1) (w : Work) : Plan :=
  if guardTrue w = false then .ok w
  else do
    let b ← readPort w 5 om os
    cwChecks w b
    let v := cwValue w w.dev.issue.core w.dev.issue.bank b.toNat
    .ok ((w.setPort 5 b).launchAt 2 (.scalar 5 v (dest we wd.toNat) 0))

/-- The ways of its cluster's slices that a nest image of KIND 5 reaches (R174). -/
def stagingWays (i : NestImage) : List Nat :=
  if nestKind i ≠ 5 then []
  else match nestSpan i (baseOffset 5 (nestBase i)) with
    | none => []
    | some (lo, hi) => (List.range 16).filter fun k =>
        decide (lo ≤ 16384 * (k : Int) + 16383) && decide (16384 * (k : Int) ≤ hi)

/-- A copy command reaches a staging way of its cluster. -/
def CopyCmd.onWay (c : CopyCmd) (way : Nat) : Bool :=
  (stagingWays c.n1).contains way || (stagingWays c.n2).contains way || (stagingWays c.n3).contains way

/-- A write of cw.l2div takes staging away from a way that a copy command of the cluster still targets (R173). -/
def l2divBusy (w : Work) (v : Nat) : Bool :=
  let i := w.dev.issue
  let cl := coreCluster i.core
  let w' := w.updMe fun c => { c with l2div := l2divWrite v }
  let losing := (List.range 16).filter fun k => isStaging w.dev cl k && !isStaging w'.dev cl k
  (List.range 16).any fun k => (w.core (16 * cl + k)).cmds.any fun c => losing.any fun y => c.onWay y

/-- The plan of `wrcw` (R322). -/
def wrcwPlan (om : BitVec 2) (os ts : BitVec 7) (w : Work) : Plan :=
  if guardTrue w = false then .ok w
  else do
    let a ← readSel w ts.toNat
    let b ← readPort w 5 om os
    cwChecks w b
    let n := b.toNat
    check (!cwReadOnly n) 5
    check (decide (n ≠ 0x014) || decide (w.me.lvl = 2)) 5
    check (decide (n ≠ 0x016) || w.me.declares (bits a.toNat 19 5 * 32) 32768) 10
    if n = 0x040 ∧ l2divBusy w a.toNat then .error (.hold .limited)
    else .ok ((w.setPort 5 b).launchAt 2 (.control n a))

-- Nest registers

/-- The plan of `nest.set` (R326). -/
def nestSetPlan (om : BitVec 2) (os ts : BitVec 7) (k : BitVec 4) (w : Work) : Plan :=
  if guardTrue w = false then .ok w
  else do
    let (a, b, w1) ← readAB w 5 om os ts
    let x := (a + b).toNat
    check (decide (x % 32 = 0)) 13
    check (w.me.declares x 128) 10
    let img := BitVec.ofNat 1024 (w.lsRead w.dev.issue.core (w.me.relocate x) 128)
    .ok (w1.launchAt 2 (.nestSet k.toNat img))

/-- The plan of `nest.dim` (R326). -/
def nestDimPlan (om : BitVec 2) (os ts : BitVec 7) (k : BitVec 4) (w : Work) : Plan :=
  if guardTrue w = false then .ok w
  else do
    let (a, b, w1) ← readAB w 5 om os ts
    let d := b.toNat % 8
    check (decide (b.toNat < 16) && decide (d ≤ 5)) 37
    let e : Effect := if bit b.toNat 3 then .nestField k.toNat (36 + 16 * d) 5 (a.toNat % 2 ^ 40)
      else .nestField k.toNat (32 + 16 * d) 4 (a.toNat % 2 ^ 32)
    .ok (w1.launchAt 2 e)

/-- The plan of `nest.blk` (R326). -/
def nestBlkPlan (om : BitVec 2) (os ts : BitVec 7) (k : BitVec 4) (w : Work) : Plan :=
  if guardTrue w = false then .ok w
  else do
    let (a, b, w1) ← readAB w 5 om os ts
    check (decide (b.toNat ≤ 3)) 37
    .ok (w1.launchAt 2 (.nestField k.toNat (8 * b.toNat) 8 a.toNat))

-- Parking on a line

/-- The checks of `ctx.park` on its address (R329): the line watched. -/
def parkLine (w : Work) (a : Word) : Except Stop Nat := do
  let c := w.me
  checkVal (vaOk a) 8 a.toNat
  match translate w { part := c.part, sec := c.sec, die := coreDie w.dev.issue.core } [] a.toNat with
  | .error (.absent _) => .error (.trap 8 (some a.toNat))
  | .error .malformed => .error (.malformed 8 a.toNat)
  | .error (.busy l) => .error (.hold (.walk l))
  | .error (.refused _) => .ok ()
  | .ok _ => .ok ()
  check (decide (a.toNat % 8 = 0)) 13
  let t ← xlate w [.read] a.toNat 8 false
  .ok (t.pa / 64)

/-- The context takes the steps of trap entry and parks on a line (R224, R329), the watch standing from the issue on; the bank of
the quire changes once every member has parked. -/
def Work.parkOn (w : Work) (core bank line : Nat) (deadline : Option Nat) : Work :=
  let pc := (w.ctx core bank).pc
  let e : Entry := { cause := 0, tval := 0, epc := pc, resume := pc, extra := 1024 + 64, begun := (w.core core).raw,
                     watch := some (line, deadline, false) }
  let w1 := (w.updCtx core bank fun c => { c with st := .entering e }).settleContext core bank
  let w2 := match (w1.ctx core bank).st with
    | .entering x => w1.enter core bank x
    | .idle => w1
    | .ready => w1
    | .parked _ => w1
    | .reported => w1
  w2.leaveBank (quireOf w.dev core bank) bank

/-- The plan of `ctx.park` (R329): the check of D is an encoding check. -/
def ctxParkPlan (om : BitVec 2) (os ts : BitVec 7) (w : Work) : Plan := do
  check w.dev.issue.d 2
  if guardTrue w = false then .ok w
  else do
    let (a, b, w1) ← readAB w 5 om os ts
    let line ← parkLine w a
    let limit := b.toNat % 2 ^ 32
    .ok (w1.parkOn w.dev.issue.core w.dev.issue.bank line
      (if limit = 0 then none else some (w.dev.now + limit)))

/-- `trap` (R318). -/
def execTrap (om : BitVec 2) (os : BitVec 7) (σ : State) : Host.Outcome State Fault Refusal :=
  .next (slotRun (trapPlan om os) σ)

/-- `eret` (R230, R318). -/
def execEret (σ : State) : Host.Outcome State Fault Refusal :=
  .next (slotRun (eretPlan) σ)

/-- `halt` (R318). -/
def execHalt (σ : State) : Host.Outcome State Fault Refusal :=
  .next (slotRun (haltPlan) σ)

/-- `fence`: kind k and scope c (R194, R319). -/
def execFenceInstruction (k : BitVec 3) (c : BitVec 3) (σ : State) : Host.Outcome State Fault Refusal :=
  .next (slotRun (fencePlan k.toNat c.toNat) σ)

/-- `fence.e` (R195). -/
def execFenceE (σ : State) : Host.Outcome State Fault Refusal :=
  .next (slotRun (fenceEPlan) σ)

/-- `rdcw`, at t + 2 (R322). -/
def execRdcw (om : BitVec 2) (os : BitVec 7) (wd : BitVec 6) (we : BitVec 1)
    (σ : State) : Host.Outcome State Fault Refusal :=
  .next (slotRun (rdcwPlan om os wd we) σ)

/-- `wrcw`, in effect from t + 2 (R322). -/
def execWrcw (om : BitVec 2) (os : BitVec 7) (ts : BitVec 7) (σ : State) : Host.Outcome State Fault Refusal :=
  .next (slotRun (wrcwPlan om os ts) σ)

/-- `nest.set`, in effect from t + 2 (R326). -/
def execNestSet (om : BitVec 2) (os : BitVec 7) (ts : BitVec 7) (k : BitVec 4)
    (σ : State) : Host.Outcome State Fault Refusal :=
  .next (slotRun (nestSetPlan om os ts k) σ)

/-- `nest.dim`, in effect from t + 2 (R326). -/
def execNestDim (om : BitVec 2) (os : BitVec 7) (ts : BitVec 7) (k : BitVec 4)
    (σ : State) : Host.Outcome State Fault Refusal :=
  .next (slotRun (nestDimPlan om os ts k) σ)

/-- `nest.blk`, in effect from t + 2 (R326). -/
def execNestBlk (om : BitVec 2) (os : BitVec 7) (ts : BitVec 7) (k : BitVec 4)
    (σ : State) : Host.Outcome State Fault Refusal :=
  .next (slotRun (nestBlkPlan om os ts k) σ)

/-- `ctx.park` (R329). -/
def execCtxPark (om : BitVec 2) (os : BitVec 7) (ts : BitVec 7) (σ : State) : Host.Outcome State Fault Refusal :=
  .next (slotRun (ctxParkPlan om os ts) σ)

end Sys2Proof.Machine
end

