-- ==== Sys2Proof/Machine/HostEvents.lean ====
section
/-! DEFINITION. The host interface: partitions and their states, TDISP, SPDM, debug policies and windows, host memory
requests, the BAR maps and the queue-binding windows (R59 to R75, R109). Function 0 is the PF and 1 to 63 are VFs. -/

namespace Sys2Proof.Machine

-- Functions and partitions (R60 to R63)

/-- The partition that a function acts for: 16, the unowned resources, for the PF; none for a VF that no partition owns. -/
def functionPart (d : Dev) (fn : Nat) : Option Nat :=
  if fn = 0 then some 16 else (List.range 16).find? fun k => (d.partOf k).vfs.contains fn

/-- Change a partition entry. -/
def Work.updPart (w : Work) (k : Nat) (f : Part → Part) : Work :=
  w.mapDev fun d => { d with parts := d.parts.set k (f (d.partOf k)) }

/-- A partition is reached through its own VFs (R62, R65): not in Error, and with CONF only in RUN over a selective IDE
stream. -/
def vfReaches (d : Dev) (fn : Nat) : Bool :=
  match functionPart d fn with
  | none => false
  | some k =>
    let p := d.partOf k
    decide (p.st ≠ 4) && (!p.conf || (decide (p.st = 3) && d.host.ide.contains fn))

/-- A function's requests are answered: the device runs, and a VF reaches its partition (R62, R65, R80). -/
def answers (d : Dev) (fn : Nat) : Bool := decide (d.mode = .running) && (decide (fn = 0) || vfReaches d fn)

/-- A refusal that the summary record counts in its error ring: code 0x200 plus a number (R62, R74, R109). -/
def Work.countRefusal (w : Work) (code part fn : Nat) : Work := w.logError (0x200 + code) part fn 0

-- Error and Scrubbing (R63, R65, R66)

/-- The contexts that run a launch are asked to stop at their next drain point, and it is not resumed (R65, R135). -/
def Work.suspendLaunch (w : Work) (ix : Nat) : Work :=
  (w.updLaunch ix fun l => { l with st := 3 }).mapDev fun d => { d with ctxs := d.ctxs.map fun p =>
    (p.1, if p.2.busy ∧ p.2.ix = ix ∧ p.2.ppend = 0 then { p.2 with ppend := 51 } else p.2) }

/-- The adopted queues of a partition. -/
def queuesOf (d : Dev) (part : Nat) : List Nat := (d.homes.filter fun h => decide (h.2.part = part)).map (·.1)

/-- A partition in Locked or Running enters Error (R65). -/
def Work.partError (w : Work) (part : Nat) : Work :=
  let p := w.dev.partOf part
  if p.st ≠ 2 ∧ p.st ≠ 3 then w
  else
    let w1 := w.updPart part fun x => { x with st := 4 }
    let w2 := ((List.range 64).filter fun ix =>
      decide ((w1.dev.launch ix).st = 2) && decide ((w1.dev.launch ix).part = part)).foldl Work.suspendLaunch w1
    (queuesOf w2.dev part).foldl (fun a cb =>
      let h := (a.dev.homeOf cb).handle
      ((a.quarantineQueue cb).updStream cb fun s => { s with st := 2 }).qnotice part h 0 0 0 2 none) w2

/-- A launch is ended with LAUNCH_ABORTED, its contexts stopped where they stand (R66 step 1, R135). -/
def Work.abortLaunch (w : Work) (ix : Nat) : Work :=
  ((running w.dev ix).foldl (fun a p => a.releaseOne (quireOf w.dev p.1 p.2) p.2 p.1) w).endLaunch ix 0x103

/-- The sites of a partition's clusters. -/
def partCores (d : Dev) (part : Nat) : List Nat :=
  ((List.range 32).filter fun k => bit (d.partOf part).clusters k).flatMap fun k =>
    (List.range 16).map fun j => 16 * k + j

/-- A partition enters Scrubbing: its cores, engines and queues stop, and its policy is lost (R63, R66 step 1, R73). Of its event
records those stay that end a launch, whose table entries are freed with them (R135, R146). -/
def Work.beginScrub (w : Work) (part : Nat) : Work :=
  let s := (w.dev.partOf part).st
  if s = 0 ∨ s = 5 then w
  else
    let w1 := ((List.range 64).filter fun ix => (w.dev.launches.get? ix).isSome &&
      decide ((w.dev.launch ix).part = part)).foldl Work.abortLaunch w
    let w2 := (partCores w.dev part).foldl (fun a k => a.updCore k fun c =>
      { c with strm := [], passes := [], ce := [] }) w1
    let w3 := (queuesOf w2.dev part).foldl (fun a cb => a.updStream cb fun _ => { st := 2 }) w2
    let fe (e : FrontEnd) : FrontEnd := { e with
      jobs := e.jobs.map fun x => (x.1, x.2.filter fun j => decide (j.part ≠ part))
      graphs := e.graphs.filter fun g => decide (g.2.tk.part ≠ part)
      calibs := e.calibs.filter fun c => decide (c.tk.part ≠ part)
      flips := e.flips.filter fun f => decide (f.tk.part ≠ part) }
    (((w3.updFe fe).mapDev fun d => { d with
        nodeEnds := d.nodeEnds.filter fun n => (d.fe.graphs.get? n.1).isSome
        events := d.events.filter fun e => decide (e.part ≠ part) || e.frees.isSome
        host := { d.host with policies := d.host.policies.del part } })).updPart part fun x =>
      { x with st := 5, locked := [], started := [] }

/-- A core's stores, banks and registers are zeroed (R66 step 3). -/
def Work.zeroCore (w : Work) (k : Nat) : Work :=
  (((w.zeroKeys (Key.ls k 0) 0x100000).updCore k fun c => { c with
      acc := [], bnd := [], dig := [], adds := [], accLay := [], wb := [], tlb := [], lsBad := [] }).updCtx k 0
    fun c => { lts := c.lts }).updCtx k 1 fun c => { lts := c.lts }

/-- The blocks that a partition of the secure world brings into it: its cores, its clusters' slices and columns, the columns of its
granules, and its functions. -/
def Part.blocks (p : Part) : List WorldBlock :=
  let sites := ((List.range 32).filter fun k => bit p.clusters k).flatMap fun k => (List.range 16).map fun j => 16 * k + j
  let cols := (List.range 512).filter fun k => p.granules.any fun r =>
    decide (r.1 < 256 * (k + 1)) && decide (256 * k < r.1 + r.2)
  sites.map .core ++ sites.map .slice ++ (sites ++ cols.filter fun k => !sites.contains k).map .column ++ p.vfs.map .function

/-- The granules and blocks in the secure world: those of the partitions assigned to it, and the copy services that are (R69). -/
def Work.assignWorlds (w : Work) : Work :=
  w.mapDev fun d =>
    let ps := ((List.range 16).map d.partOf).filter fun p => p.world
    { d with
      secGran := ps.flatMap fun p => p.granules
      secBlocks := (d.secBlocks.filter fun b => (List.range 4).any fun die => decide (b = .copyService die)) ++
        ps.flatMap Part.blocks }

/-- The granules that a partition's scrub writes zeros to (R66 step 2). -/
def scrubGranules (d : Dev) (part : Nat) : List Nat := granuleList (d.partOf part).granules

/-- The granule in which the firmware keeps the guest's queues goes with the partition that is scrubbed. -/
def scrubsQueues (d : Dev) (part : Nat) : Bool :=
  !d.sock.cbs.isEmpty && (scrubGranules d part).contains (granuleOf (d.sock.cbs.headD 0))

/-- The memory of a partition is zeroed and passes to the key of what no partition owns (R66 steps 2 and 5, R67). -/
def Work.scrubMemory (w : Work) (part : Nat) : Work :=
  (scrubGranules w.dev part).foldl (fun a g => ((a.awaitGranule g).zeroGranule g).rekey g part 16) w

/-- The scrub of R66 completes and the entry is free. -/
def endScrub (part : Nat) (w : Work) : Work :=
  let p := w.dev.partOf part
  if p.st ≠ 5 then w
  else
    let w0 := w.scrubMemory part
    let w1 := if scrubsQueues w.dev part then w0.renewQueues w else w0
    let w2 := (partCores w.dev part).foldl Work.zeroCore w1
    let cls := (List.range 32).filter fun k => bit p.clusters k
    let w3 := cls.foldl (fun a k => (List.range 16).foldl (fun b y => zeroWay b k y) a) w2
    let w4 := w3.updCoh fun c => { c with copies := c.copies.filter fun x => !cls.contains x.cluster }
    (w4.mapDev fun d => { d with
      parts := d.parts.del part
      homes := d.homes.filter fun h => decide (h.2.part ≠ part)
      streams := d.streams.filter fun s => decide ((d.homeOf s.1).part ≠ part) || (d.homes.get? s.1).isNone
      quarantined := d.quarantined.filter fun q => decide (q.1 ≠ part)
      cores := d.cores.map fun c => (c.1, { c.2 with tlb := c.2.tlb.filter fun e => decide (e.part ≠ part) })
      sock := { d.sock with
        stale := d.sock.stale ++ d.sock.tlb.filter fun e => decide (e.part = part)
        tlb := d.sock.tlb.filter fun e => decide (e.part ≠ part) }
      host := { d.host with
        alog := d.host.alog.del part
        ide := d.host.ide.filter fun f => !p.vfs.contains f } }).assignWorlds

-- The partition table (R61 to R65)

/-- A range of granules meets another. -/
def granulesMeet (a b : Nat × Nat) : Bool := decide (a.1 < b.1 + b.2) && decide (b.1 < a.1 + a.2)

/-- A range of granules lies in stacked memory or in the host window, which alone hold granules (R61, Table 7.2). -/
def granulesExist (r : Nat × Nat) : Bool :=
  let a := regionOf (r.1 * 2 ^ 21)
  decide (1 ≤ r.2) && (decide (a = .stacked) || decide (a = .host)) && decide (regionOf ((r.1 + r.2 - 1) * 2 ^ 21) = a)

/-- Resources of an entry exist and belong to no other, and no frame among them is withheld until the guest has given its
translation up: for an INVAL that waits for its ACK, or has still to be sent (R53, R61). -/
def entryOk (d : Dev) (part : Nat) (p : Part) : Bool :=
  let held : List (Nat × Nat) := (d.sock.ctl.flatMap fun c => c.frames) ++ d.sock.stale.map fun e => (e.frame, e.size)
  ((List.range 16).all fun k => decide (k = part) ||
    (decide (p.clusters &&& (d.partOf k).clusters = 0) &&
      (p.vfs.all fun v => !(d.partOf k).vfs.contains v) &&
      p.granules.all fun r => (d.partOf k).granules.all fun s => !granulesMeet r s)) &&
    (p.granules.all fun r => granulesExist r && ((d.partOf part).granules.contains r || held.all fun f =>
      !granulesMeet r (granuleOf f.1, granuleOf (f.1 + f.2 - 1) + 1 - granuleOf f.1))) &&
    decide (p.clusters < 2 ^ 32) && p.vfs.all fun v => decide (1 ≤ v) && decide (v ≤ 63)

/-- The virtual functions of a mask. -/
def maskBits (m n : Nat) : List Nat := (List.range n).filter fun k => bit m k

/-- An entry with a field written (notes/assumptions/35.md gives the fields their numbers). -/
def Part.put (p : Part) (field val : Nat) : Part :=
  match field with
  | 0 => { p with clusters := val }
  | 1 => { p with granules := p.granules ++ [(val % 2 ^ 32, val / 2 ^ 32)] }
  | 2 => { p with granules := p.granules.filter fun r => decide (r ≠ (val % 2 ^ 32, val / 2 ^ 32)) }
  | 3 => { p with vfs := maskBits val 64 }
  | 4 => { p with conf := decide (val % 2 = 1) }
  | 5 => { p with world := decide (val % 2 = 1) }
  | 6 => { p with root := val }
  | 7 => { p with htab := val }
  | 8 => { p with hcount := val }
  | 9 => { p with svec := val }
  | 10 => { p with savePool := val }
  | 11 => { p with saveSize := val }
  | 12 => { p with evq := val }
  | _ => p

/-- An entry has been rewritten: a granule that changes its world is scrubbed, and one that changes its owner is read with another
key from then on (R66, R67, R69). -/
def Work.newGranules (w : Work) (part : Nat) (old new : Part) : Work :=
  let gs := (granuleList old.granules) ++ (granuleList new.granules).filter fun g => !inRanges old.granules g
  gs.foldl (fun a g =>
    let moves := decide (inRanges w.dev.secGran g ≠ (new.world && inRanges new.granules g))
    let was := inRanges old.granules g
    let is := inRanges new.granules g
    let a1 := if moves ∨ was ≠ is then a.awaitGranule g else a
    let a2 := if moves then a1.zeroGranule g else a1
    if was ≠ is then a2.rekey g (if was then part else 16) (if is then part else 16) else a2) w

/-- Private granules of a site and bank (R165): a column, its granule and the tag. What a home holds of the granule beside its array
is settled, as from then on only the array is read and written (R166). -/
def Work.setPrivate (w : Work) (part val : Nat) : Work :=
  let col := val % 512
  let g := val / 512 % 256
  let tag := val / 2 ^ 17 % 4
  if 3 ≤ tag ∨ granuleOwned w.dev part (256 * col + g) = false ∨ bit (w.dev.partOf part).clusters (col / 16) = false then
    w.reply .unsupported
  else
    let base := (256 * col + g) * 2 ^ 21
    (((w.awaitGranule (256 * col + g)).sweepLines base (2 ^ 21)).updColumn col fun c => { c with
      tags := if tag = 0 then c.tags.del g else c.tags.set g tag }).reply .done

/-- The items of an entry are frozen: from the first LOCK_INTERFACE of one of its VFs (R64). -/
def Part.frozen (p : Part) : Bool := p.conf && (decide (p.st = 2) || decide (p.st = 3) || (decide (p.st = 1) && !p.locked.isEmpty))

/-- A write changes a frozen item: clusters, granules, VFs, the world, CONF, which a locked VF presupposes (R63), and the binding
of the queues. -/
def Part.changesFrozen (p q : Part) (field : Nat) : Bool :=
  decide (p.clusters ≠ q.clusters) || decide (p.granules ≠ q.granules) || decide (p.vfs ≠ q.vfs) ||
    decide (p.conf ≠ q.conf) || decide (p.world ≠ q.world) || decide (p.evq ≠ q.evq) || decide (field = 13)

/-- A write in a virtual function's configuration space, its BARs or its MSI-X table (R64): item 0, 1 or 2, an offset and a
value. -/
def FnConfig.put (c : FnConfig) (item off val : Nat) : FnConfig :=
  match item with
  | 0 => { c with space := c.space.set off val }
  | 1 => { c with bars := c.bars.set off val }
  | 2 => { c with msix := c.msix.set off val }
  | _ => c

/-- The configuration of a function. -/
def Dev.fnConfig (d : Dev) (fn : Nat) : FnConfig := d.host.fnCfg.get fn {}

/-- The host writes what a virtual function of an entry is configured with: the function in bits 5..0, the item in 7..6, the offset in
19..8, and the value above. From the function's LOCK_INTERFACE on it is frozen (R64, R65). -/
def Work.configure (w : Work) (part val : Nat) : Work :=
  let fn := val % 64
  let p := w.dev.partOf part
  let c := (w.dev.fnConfig fn).put (val / 64 % 4) (val / 256 % 4096) (val / 2 ^ 20)
  if p.vfs.contains fn = false then w.reply .unsupported
  else if p.conf ∧ p.locked.contains fn ∧ c ≠ w.dev.fnConfig fn then (w.partError part).reply .unsupported
  else (w.mapDev fun d => { d with host := { d.host with fnCfg := d.host.fnCfg.set fn c } }).reply .done

/-- The world of a block that belongs to no partition, which changes only while the block is stopped (R69): block 0 is the guest
socket, and blocks 1 to 4 are the copy services of the dies. -/
def Work.setWorld (w : Work) (block : Nat) (sec : Bool) : Work :=
  if block = 0 then
    if w.dev.sock.st = 0 then (w.updSock fun s => { s with sec := sec }).reply .done else w.reply .unsupported
  else if block ≤ 4 ∧ (w.dev.copies (block - 1)).isEmpty then
    (w.mapDev fun d =>
      let rest := d.secBlocks.filter fun b => decide (b ≠ .copyService (block - 1))
      { d with secBlocks := if sec then .copyService (block - 1) :: rest else rest }).reply .done
  else w.reply .unsupported

/-- The host driver writes a partition entry (R61, R63 to R65, R67, R69). Field 13 sets a private tag, field 14 the configuration of
a virtual function, and field 15, of any entry, the world of a block that belongs to none. A new entry draws a key. -/
def writeEntry (part field val : Nat) (w : Work) : Work :=
  let p := w.dev.partOf part
  if registersAnswer w.dev = false then w.reply .unsupported
  else if field = 15 then w.setWorld (val / 2) (decide (val % 2 = 1))
  else if field = 14 then w.configure part val
  else if p.st = 4 ∨ p.st = 5 then w.reply .unsupported
  else
    let q := { p.put field val with st := if p.st = 0 then 1 else p.st }
    if p.frozen ∧ p.changesFrozen q field then (w.partError part).reply .unsupported
    else if p.st = 3 ∧ p.conf = false ∧ (field ≤ 5 ∨ field = 13) then w.reply .unsupported
    else if entryOk w.dev part q = false then w.reply .unsupported
    else
      let w1 := w.updPart part fun _ => q
      let w2 := if p.st = 0 then w1.mapDev fun d => { d with keyGen := d.keyGen.set part (d.keyGen.get part 0 + 1) } else w1
      if field = 13 then w2.setPrivate part val
      else ((w2.newGranules part p q).assignWorlds).reply .done

/-- The PF enables an entry with CONF = 0 (R63). -/
def enablePart (part : Nat) (w : Work) : Work :=
  if registersAnswer w.dev = false then w.reply .unsupported else
  let p := w.dev.partOf part
  if p.st = 1 ∧ p.conf = false ∧ p.clusters ≠ 0 then (w.updPart part fun x => { x with st := 3 }).reply .done
  else w.reply .unsupported

/-- The PF deletes an entry (R63). -/
def deletePart (part : Nat) (w : Work) : Work :=
  if registersAnswer w.dev = false then w.reply .unsupported else
  if (w.dev.partOf part).st = 0 ∨ (w.dev.partOf part).st = 5 then w.reply .unsupported
  else (w.beginScrub part).reply .done

/-- The partition that owns a VF. -/
def vfOwner (d : Dev) (fn : Nat) : Option Nat := if fn = 0 then none else functionPart d fn

/-- The windows of some functions that are bound, with their handles (R64, R109). -/
def windowHandles (d : Dev) (fns : List Nat) : List (Nat × Nat) :=
  (d.host.wins.filter fun x => fns.contains (x.1 / 16) && decide (x.2.handle ≠ 0)).map fun x => (x.1, x.2.handle)

/-- LOCK_INTERFACE (R63, R64): with the last VF the partition is Locked. -/
def lockFunction (fn : Nat) (w : Work) : Work :=
  if registersAnswer w.dev = false then w.reply .unsupported else
  match vfOwner w.dev fn with
  | none => w.reply .unsupported
  | some k =>
    let p := w.dev.partOf k
    if p.st ≠ 1 ∨ p.conf = false ∨ p.clusters = 0 then w.reply .unsupported
    else
      let l := if p.locked.contains fn then p.locked else fn :: p.locked
      (w.updPart k fun x => { x with locked := l, st := if x.vfs.all l.contains then 2 else 1 }).reply
        (.report p.clusters p.granules p.vfs p.world p.keys (w.dev.fnConfig fn) (windowHandles w.dev p.vfs) p.evq)

/-- START_INTERFACE (R63). The function's selective IDE stream is established with it where an SPDM secure session on its mailbox
has carried the stream's keys (R59, Table 3.1). -/
def startFunction (fn : Nat) (w : Work) : Work :=
  if registersAnswer w.dev = false then w.reply .unsupported else
  match vfOwner w.dev fn with
  | none => w.reply .unsupported
  | some k =>
    let p := w.dev.partOf k
    if p.st ≠ 2 then w.reply .unsupported
    else
      let l := if p.started.contains fn then p.started else fn :: p.started
      ((w.updPart k fun x => { x with started := l, st := if x.vfs.all l.contains then 3 else 2 }).mapDev fun d =>
        let rest := d.host.ide.filter fun f => decide (f ≠ fn)
        let ide := if (d.host.spdm.get fn {}).session = 2 then fn :: rest else d.host.ide
        { d with host := { d.host with ide := ide } }).reply .done

/-- STOP_INTERFACE (R63). -/
def stopFunction (fn : Nat) (w : Work) : Work :=
  if registersAnswer w.dev = false then w.reply .unsupported else
  match vfOwner w.dev fn with
  | none => w.reply .unsupported
  | some k => (w.beginScrub k).reply .done

/-- The partitions that an event on a function concerns: all of them for the PF and the link (R65). -/
def partsOfFunction (d : Dev) (fn : Nat) : List Nat :=
  if fn = 0 then List.range 16 else (functionPart d fn).toList

/-- A Function Level Reset (R65): the function's windows are unbound, and its debug selection and configuration are lost. That its
SPDM state and session end with it is the model's choice: R65 gives the reset only its effect on the partition (DESIGN CHOICE,
notes/assumptions/125.md). -/
def resetFunction (fn : Nat) (w : Work) : Work :=
  let w1 := (partsOfFunction w.dev fn).foldl Work.partError w
  w1.mapDev fun d => { d with host := { d.host with
    wins := d.host.wins.filter fun x => decide (x.1 / 16 ≠ fn)
    dbg := d.host.dbg.del fn
    fnCfg := d.host.fnCfg.del fn
    spdm := d.host.spdm.del fn } }

/-- A selective IDE stream fails, or for function 0 the link stream is lost (R65). -/
def failIde (fn : Nat) (w : Work) : Work :=
  let w1 := (partsOfFunction w.dev fn).foldl Work.partError w
  w1.mapDev fun d => { d with host := { d.host with
    linkIde := d.host.linkIde && decide (fn ≠ 0), ide := d.host.ide.filter fun f => decide (f ≠ fn) } }

-- SPDM (R70 to R72)

/-- Change a function's SPDM state. -/
def Work.updSpdm (w : Work) (fn : Nat) (f : Spdm → Spdm) : Work :=
  w.mapDev fun d => { d with host := { d.host with spdm := d.host.spdm.set fn (f (d.host.spdm.get fn {})) } }

/-- The state of SPDM on a function's mailbox. -/
def Dev.spdmOf (d : Dev) (fn : Nat) : Spdm := d.host.spdm.get fn {}

/-- The DOE mailbox of a function answers: in the recovery state the PF's alone (R71, R80). -/
def mailboxAnswers (d : Dev) (fn : Nat) : Bool := decide (d.mode = .running) || (decide (d.mode = .recovery) && decide (fn = 0))

/-- The algorithms that a response settles or uses (R71): NEGOTIATE_ALGORITHMS all of them; a signature Ed25519, a digest SHA-384,
and what belongs to a secure session AES-256-GCM. -/
def spdmAlgs (code : Nat) : List SpdmAlg :=
  match code with
  | 0xE3 => [.ed25519, .sha384, .aes256gcm]
  | 0x81 => [.sha384]
  | 0x82 => [.ed25519, .sha384]
  | 0x83 => [.ed25519, .sha384]
  | 0xE4 => [.ed25519, .sha384, .aes256gcm]
  | 0xE5 => [.sha384, .aes256gcm]
  | 0xEC => [.aes256gcm]
  | _ => []

/-- An SPDM request that its responder takes only in a state (DSP0274's order): a response of SPDM 1.3 with the algorithms of R71,
whose body is free otherwise; the request enters the transcript. -/
def spdmRequest (fn code : Nat) (ok : Spdm → Bool) (f : Spdm → Spdm) (w : Work) : Work :=
  if mailboxAnswers w.dev fn = false then w.reply .unsupported
  else if ok (w.dev.spdmOf fn) then
    let x := w.free
    (x.2.updSpdm fn fun s => { f s with transcript := Config.spdmBody (0x100 + code) (f s).transcript }).reply
      (.spdm code 13 (spdmAlgs code) (Config.spdmBody code x.1))
  else w.reply .spdmError

/-- Tenant keys: the digest of one Ed25519 and one ML-DSA-65 public key, 1,984 bytes (block 5). -/
def keyDigest (p : Part) : Nat := match p.keys with
  | [] => 0
  | k :: _ => sha384 k 1984

/-- What block 4 lists (R72): the layout of a partition, in a form of this model's. -/
def layoutOf (p : Part) : Nat :=
  p.granules.foldl (fun x r => x * 2 ^ 64 + r.1 * 2 ^ 32 + r.2)
    ((p.vfs.foldl (fun x v => x + 2 ^ v) 0) * 2 ^ 64 + p.clusters * 4 + (if p.world then 2 else 0) +
      (if p.conf then 1 else 0))

/-- The range with the least start. -/
def lowestOf (rs : List (Nat × Nat)) : Option (Nat × Nat) :=
  rs.foldl (fun (m : Option (Nat × Nat)) r => (match m with
    | none => some r
    | some x => if r.1 < x.1 then some r else some x)) none

/-- The ranges of granules between two that no range of a list covers. -/
def granuleGaps (hi : Nat) (rs : List (Nat × Nat)) : Nat → Nat → List (Nat × Nat)
  | 0, lo => if lo < hi then [(lo, hi - lo)] else []
  | n + 1, lo =>
    match lowestOf (rs.filter fun r => decide (lo ≤ r.1) && decide (r.1 < hi)) with
    | none => if lo < hi then [(lo, hi - lo)] else []
    | some r => (if lo < r.1 then [(lo, r.1 - lo)] else []) ++ granuleGaps hi rs n (r.1 + r.2)

/-- The resources that no partition owns, which are the PF's (R72): clusters, granules of stacked memory and of the host window,
and VFs. -/
def unownedPart (d : Dev) : Part :=
  let rs := d.parts.flatMap fun p => p.2.granules
  { clusters := clustersOf d 16
    granules := granuleGaps 0x20000 rs rs.length 0 ++ granuleGaps 0x60000000 rs rs.length 0x40000000
    vfs := ((List.range 63).map fun k => k + 1).filter fun v => d.parts.all fun p => !p.2.vfs.contains v }

/-- The digest of the object in force of a kind; the factory's contents are not given. -/
def objectDigest (kind : Nat) (x : Option FlashCopy) : Nat :=
  match x with
  | none => 0
  | some c => c.digest.getD (Config.spdmBody (2 + 256 * kind) c.version % 2 ^ 384)

/-- A measurement block as a function sees it (Table 3.4, R72, R80): outside the running state what has verified is reported in
blocks 1 to 3, and zeros for the rest. What blocks 4 to 6 describe through a VF that no partition owns the spec does not say: the
model gives such a VF the PF's (DESIGN CHOICE, notes/assumptions/124.md). -/
def measurement (d : Dev) (fn block : Nat) : Nat :=
  let part := (functionPart d fn).getD 16
  let unowned := decide (part = 16)
  if d.mode ≠ .running ∧ 3 < block then 0
  else match block with
  | 2 => if d.failed = 1 ∨ d.failed = 2 then 0 else objectDigest 0 (usedCopy d 0 none)
  | 3 => if d.failed = 1 then 0 else (List.range 4).foldl (fun x k =>
      x * 2 ^ 384 + objectDigest (k + 1) (recordInForce d (k + 1))) 0
  | 4 => layoutOf (if unowned then unownedPart d else d.partOf part)
  | 5 => if unowned then 0 else keyDigest (d.partOf part)
  | 6 => if unowned then 0 else match d.host.policies.get? part with
    | none => 0
    | some x => x.digest
  | 7 => if d.sock.measLog.isEmpty then 0
    else Config.spdmBody 7 (d.sock.measLog.foldl (fun x m => x * 2 ^ 384 + m) d.sock.st)
  | 8 => Config.spdmBody 8 (d.spdmOf fn).transcript
  | k => Config.spdmBody k 0

/-- GET_MEASUREMENTS (R71, R72). -/
def measure (fn block : Nat) (w : Work) : Work :=
  if mailboxAnswers w.dev fn = false then w.reply .unsupported
  else if (w.dev.spdmOf fn).algs = false ∨ block = 0 ∨ 8 < block then w.reply .spdmError
  else
    let w1 := w.updSpdm fn fun s => { s with transcript := Config.spdmBody (0x200 + block) s.transcript }
    w1.reply (.spdm 0xE0 13 [.ed25519, .sha384] (measurement w1.dev fn block))

/-- The tenant delivers its keys over a secure session through its VF while the partition is Configuring and none of its VFs is
locked (R64, R70). -/
def deliverKey (fn key : Nat) (w : Work) : Work :=
  match vfOwner w.dev fn with
  | none => w.reply .unsupported
  | some part =>
    let p := w.dev.partOf part
    if registersAnswer w.dev ∧ p.st = 1 ∧ p.frozen = false ∧ (w.dev.spdmOf fn).session = 2 then
      (w.updPart part fun x => { x with keys := [key] }).reply .done
    else w.reply .unsupported

-- Debug policies (R73)

/-- A debug policy of a partition is accepted: its first 128 bytes are the body (R70, R73, Table 3.5). -/
def policyOk (d : Dev) (part rec : Nat) : Bool :=
  let f (off n : Nat) : Nat := packedBytes rec off n
  let p := d.partOf part
  Config.signatureOk (part + 1) rec && !p.keys.isEmpty && decide (p.st ≠ 0) && decide (p.st ≠ 5) &&
    decide (f 0 4 = 0x43474450) && decide (f 4 1 = part) && decide (f 5 1 = 0) && decide (f 6 2 < 32) &&
    decide (f 16 8 = d.serialNo) && decide (f 72 56 = 0) && decide (f 24 48 = keyDigest p) &&
    (match d.host.policies.get? part with
      | none => true
      | some x => decide (x.version < f 8 8))

/-- A debug policy is delivered through the DOE mailbox of a VF (R73): PART has to name the VF's partition. Block 6 is the digest
of the policy with its two signatures. -/
def takePolicy (fn rec : Nat) (w : Work) : Work :=
  match vfOwner w.dev fn with
  | none => w.reply .unsupported
  | some part =>
    if registersAnswer w.dev ∧ policyOk w.dev part rec then
      let x : Policy := { open_ := packedBytes rec 6 2, version := packedBytes rec 8 8
                          digest := sha384 rec (128 + 64 + 3309) }
      (w.mapDev fun d => { d with host := { d.host with policies := d.host.policies.set part x } }).reply .done
    else w.reply .unsupported

-- The debug window (R74, R75, Table 3.9)

/-- The debug selection of a function. -/
def Dev.dbgOf (d : Dev) (fn : Nat) : DbgWin := d.host.dbg.get fn {}

/-- The partition that a debug window reaches. -/
def debugPart (d : Dev) (fn : Nat) : Nat := if fn = 0 then (d.dbgOf 0).partsel else (functionPart d fn).getD 16

/-- The window's facilities may be used at all: not the PF's for a CONF = 1 partition (R74, R75). -/
def debugReach (d : Dev) (fn : Nat) : Bool := decide (fn ≠ 0) || !(d.partOf (debugPart d fn)).conf

/-- OWN (Table 3.9). -/
def debugOwn (d : Dev) (fn : Nat) : Bool :=
  let x := d.dbgOf fn
  debugReach d fn && !d.coresOff.contains x.core && decide (debugPart d fn < 16) &&
    bit (d.partOf (debugPart d fn)).clusters (coreCluster x.core)

/-- OPEN (Table 3.9). -/
def debugOpen (d : Dev) (fn : Nat) : Nat :=
  if debugReach d fn then (d.host.policies.get (debugPart d fn) {}).open_ else 0

/-- The quire of a window's context is to be held, or runs on (R75). -/
def Work.setHalt (w : Work) (fn : Nat) (on : Bool) : Work :=
  let x := w.dev.dbgOf fn
  let c := w.ctx x.core x.bank
  let ks := if c.busy ∧ c.ebb = false then quireOf w.dev x.core x.bank else [x.core]
  ks.foldl (fun a k => a.updCtx k x.bank fun y => { y with halt := if on then max 1 y.halt else 0 }) w

/-- HALT is written (R74, R75). -/
def haltWrite (fn : Nat) (on : Bool) (w : Work) : Work :=
  if answers w.dev fn = false then w.reply .unsupported
  else if debugOwn w.dev fn = false then w.reply .done
  else if bit (debugOpen w.dev fn) 3 = false then
    (w.countRefusal 60 (debugPart w.dev fn) fn).reply .unsupported
  else (w.setHalt fn on).reply .done

/-- A debug control word is written through the window (Table 3.9, Table 11.10). -/
def debugCwWrite (fn n val : Nat) (w : Work) : Work :=
  let x := w.dev.dbgOf fn
  if cwAssigned n = false ∨ debugOwn w.dev fn = false then w.reply .done
  else match cwOpenBit n with
    | none => w.reply .done
    | some k =>
      if bit (debugOpen w.dev fn) k = false then (w.countRefusal 60 (debugPart w.dev fn) fn).reply .unsupported
      else if cwReadOnly n then w.reply .done
      else (controlWrite w x.core x.bank n (BitVec.ofNat 64 val)).reply .done

/-- The OPEN bit of the facility that an offset of a debug window belongs to (Table 3.9, Table 11.10). -/
def debugFacility (off : Nat) : Option Nat :=
  if off = 0x10 ∨ (0x1000 ≤ off ∧ off < 0x9000) then some 3
  else if off = 0x9000 ∨ (0xA000 ≤ off ∧ off < 0xB000) then some 4
  else if 0x800 ≤ off ∧ off < 0xC48 ∧ cwAssigned (0x100 + (off - 0x800) / 8) then cwOpenBit (0x100 + (off - 0x800) / 8)
  else none

/-- An access in a debug window is refused: it reaches a facility whose OPEN bit is 0 (R74, R75). -/
def debugRefused (d : Dev) (fn off : Nat) : Bool :=
  debugOwn d fn && (debugFacility off).any fun k => !bit (debugOpen d fn) k

/-- A refused use of a facility is answered with Unsupported Request and counted (R74). -/
def Work.refuseDebug (w : Work) (fn : Nat) : Work := (w.countRefusal 60 (debugPart w.dev fn) fn).reply .unsupported

/-- A write in a debug window. -/
def debugWrite (fn off val : Nat) (w : Work) : Work :=
  if off = 0 then
    let x : DbgWin := { core := val % 512, bank := val / 512 % 2, partsel := if fn = 0 then val / 1024 % 16 else 0 }
    (w.mapDev fun d => { d with host := { d.host with dbg := d.host.dbg.set fn x } }).reply .done
  else if off = 0x10 then haltWrite fn (decide (val % 2 = 1)) w
  else if 0x800 ≤ off ∧ off < 0xC48 ∧ off % 8 = 0 then debugCwWrite fn (0x100 + (off - 0x800) / 8) val w
  else if debugRefused w.dev fn off then w.refuseDebug fn
  else w.reply .done

/-- The held context's state as a save area's first 32 KiB lay it out (R75, Table 9.4). -/
def heldImage (w : Work) (core bank : Nat) : List (Nat × Nat × Nat) :=
  let c := w.ctx core bank
  let k := w.core core
  saveFields c (w.dev.launch c.ix) ++ commandFields (unfinished k bank) ++
    (unitFields k c.unitMask).filter fun f => decide (f.1 < 0x8000)

/-- Eight bytes of a debug window, or the refusal (Table 3.9). -/
def debugRead (w : Work) (fn off : Nat) : Reply :=
  let d := w.dev
  let x := d.dbgOf fn
  let c := w.ctx x.core x.bank
  let own := debugOwn d fn
  let opens := debugOpen d fn
  if off = 0 then .value (x.core + 512 * x.bank + 1024 * x.partsel)
  else if off = 8 then
    .value ((if own then 1 else 0) + (if own ∧ c.halt = 2 then 2 else 0) + 256 * (opens % 32))
  else if own = false then .value 0
  else if off = 0x10 then
    if bit opens 3 then .value (if c.halt = 0 then 0 else 1) else .unsupported
  else if 0x800 ≤ off ∧ off < 0xC48 then
    let n := 0x100 + (off - 0x800) / 8
    if cwAssigned n = false then .value 0
    else match cwOpenBit n with
      | none => .value 0
      | some k => if bit opens k then .value (cwValue w x.core x.bank n).toNat else .unsupported
  else if 0x1000 ≤ off ∧ off < 0x9000 then
    if bit opens 3 = false then .unsupported
    else if c.halt = 2 then .value (packedBytes (packFields (heldImage w x.core x.bank)) (off - 0x1000) 8)
    else .value 0
  else if off = 0x9000 then
    if bit opens 4 then .value (d.host.alog.get (debugPart d fn) []).length else .unsupported
  else if 0xA000 ≤ off ∧ off < 0xB000 then
    if bit opens 4 then
      .value (packedBytes ((d.host.alog.get (debugPart d fn) []).getD ((off - 0xA000) / 64) 0) (off % 64) 8)
    else .unsupported
  else .value 0

-- Host memory requests (R62, R69, R76, R78)

/-- A function may reach the granules of some bytes (R62, R69). -/
def hostMay (d : Dev) (fn pa n : Nat) : Bool :=
  (granulesOf pa n).all fun g =>
    (if fn = 0 then
        (List.range 16).all fun k => !inRanges (d.partOf k).granules g || !(d.partOf k).conf
      else match functionPart d fn with
        | none => false
        | some k => granuleOwned d k g) &&
      (!inRanges d.secGran g || d.secBlocks.contains (.function fn))

/-- The request of the PF addresses memory of a CONF = 1 partition. -/
def confRefused (d : Dev) (fn pa n : Nat) : Bool :=
  decide (fn = 0) && (granulesOf pa n).any fun g =>
    (List.range 16).any fun k => inRanges (d.partOf k).granules g && (d.partOf k).conf

/-- Some bytes are the host's to cache: lines of host-biased granules and of the host window (R76, R205). -/
def hostCaches (d : Dev) (pa n : Nat) : Bool :=
  (linesOf pa n).all fun l => decide (regionOf (64 * l) = .host) || !d.coh.devBias.contains (l / 64)

/-- The host's caches take a line, as its own or shared; it takes its place in the order now (R185, R205). -/
def Work.grantHost (w : Work) (l : Nat) (owned : Bool) : Work :=
  let h := w.dev.coh.line l
  let t0 := w.dev.agentTime hostAgent
  let t := if owned then max t0 (h.rts + 1) else max t0 h.wts
  let times : LineTime := if owned then { wts := t, rts := t } else { wts := h.wts, rts := max h.rts (t0 + agentLease) }
  ((w.updCoh fun c => { c with lines := c.lines.set l times }).raiseAgent hostAgent t).mapDev fun d =>
    let dir := { line := l, owned := owned, rts := times.rts } :: d.host.dir.filter fun x => decide (x.line ≠ l)
    { d with host := { d.host with dir := dir } }

/-- The host's caches give up their copies of some bytes' lines. -/
def Work.dropHost (w : Work) (pa n : Nat) : Work :=
  w.mapDev fun d => { d with host := { d.host with dir := d.host.dir.filter fun x => !(linesOf pa n).contains x.line } }

/-- What the host gives back does not wait for the flip that asks for it (R77). -/
def Work.throughFlip (w : Work) (f : Work → Work) : Work :=
  let old := w.dev.coh.flipping
  (f (w.updCoh fun c => { c with flipping := [] })).updCoh fun c => { c with flipping := old }

/-- The bits that the host port's encryption changes in n bytes from an address: those of the key of the partition that owns a granule
of the host window, whose lines cross the port encrypted; none elsewhere (R67, notes/assumptions/132.md). -/
def portPad (d : Dev) (pa : Nat) : Nat → Nat
  | 0 => 0
  | n + 1 =>
    let b := match (List.range 16).find? fun k => inRanges (d.partOf k).granules (granuleOf pa) with
      | none => 0
      | some k => if regionOf pa = .host then (Config.keyPad (d.keyNumber k) pa).toNat else 0
    b + 256 * portPad d (pa + 1) n

/-- The answer to the host as it has crossed its port (R67). -/
def Work.crossPort (w : Work) (pa n : Nat) : Work :=
  match w.dev.host.reply with
  | .value v => w.reply (.value (v ^^^ portPad w.dev pa n))
  | _ => w

/-- Device-biased lines that the host loads or stores are served at the device once their dirty copies have been written back and their
leased copies invalidated (Table 3.6). -/
def Work.serveHost (w : Work) (pa n : Nat) : Work :=
  (linesOf pa n).foldl (fun a l => if hostCaches a.dev (64 * l) 64 then a else a.sweepLines (64 * l) 64) w

/-- A request of the host that is let through, by its kind (R76 to R78, R185, R205): a load or store by CXL.mem, and what its
caches ask for and give back by CXL.cache. What the host's caches hold as their own, the host reads and writes there. An ownership
request to a device-biased line, which the host does not cache (Table 3.6), is answered with Unsupported Request; the spec gives it no
outcome (DESIGN CHOICE, notes/assumptions/128.md). -/
def hostPerforms (fn : Nat) (req0 : MemReq) (w : Work) : Work :=
  let l := req0.addr / 64
  let req : MemReq := { req0 with
    data := req0.data ^^^ portPad w.dev (if req0.kind = 3 then 64 * l else req0.addr) (if req0.kind = 3 then 64 else req0.len) }
  let held := w.dev.host.dir.find? fun x => decide (x.line = l)
  match req.kind with
  | 3 =>
    if held.any fun x => x.owned then
      (w.dropHost (64 * l) 64).throughFlip fun x => (Work.agentWrite hostAgent 2 (64 * l) 64 req.data x).reply .done
    else w.reply .unsupported
  | 4 => (if held.any fun x => x.owned then w else w.dropHost (64 * l) 64).reply .done
  | k =>
    let write := decide (k = 1) || decide (k = 2)
    let bad := rangeFault w.dev 0 req.addr req.len true
    if k ≠ 0 ∧ k ≠ 1 ∧ k ≠ 2 ∧ k ≠ 5 then w.reply .unsupported
    else if bad ≠ 0 then w.reply .unsupported
    else if (linesOf req.addr req.len).any (hostOwns w.dev) then w.reply .none
    else if hostWaits w.dev req.addr req.len write then (w.snoopLines req.addr req.len).askAgain 0 fn req0
    else if k = 0 ∨ (k = 5 ∧ hostCaches w.dev req.addr req.len = false) then
      ((w.serveHost req.addr req.len).outsideAccess hostAgent { req with kind := 0 } .unsupported).crossPort req.addr req.len
    else if k = 1 then
      (((w.dropHost req.addr req.len).serveHost req.addr req.len).outsideAccess hostAgent req .unsupported)
    else if hostCaches w.dev req.addr req.len then
      ((w.grantHost l (decide (k = 2))).reply
        (if w.poisonAt (64 * l) 64 ≠ 0 then .poisoned else .value (w.pread (64 * l) 64))).crossPort (64 * l) 64
    else w.reply .unsupported

/-- A request of a host function by CXL.mem or CXL.cache (R62, R69, R76 to R78, R185, R205). The host's accesses to its own
memory are no function's, and no partition shuts them out. -/
def hostRequest (req : MemReq) (w : Work) : Work :=
  let fn := req.agent
  let own := decide (0 < req.len) && (linesOf req.addr req.len).all fun l => decide (regionOf (64 * l) = .host)
  if own ∧ w.dev.mode = .running then hostPerforms fn req w
  else if answers w.dev fn = false then w.reply .unsupported
  else if confRefused w.dev fn req.addr req.len then (w.countRefusal 11 16 fn).reply .unsupported
  else if rangeFault w.dev 0 req.addr req.len false ≠ 0 ∨ anyPrivate w.dev req.addr req.len ∨
      hostMay w.dev fn req.addr req.len = false then w.reply .unsupported
  else hostPerforms fn req w

-- Queue-binding windows (R109)

/-- A function's window. -/
def Dev.window (d : Dev) (fn win : Nat) : Window := d.host.wins.get (16 * fn + win) {}

/-- The function has the window. -/
def hasWindow (fn win : Nat) : Bool := if fn = 0 then decide (win < 16) else decide (win < 8)

/-- The host's operations act on D0, and reach a home where a route joins the dies (R120): the block's bytes, and its slice. -/
def windowReaches (w : Work) (cb : Nat) : Bool :=
  decide (reachFault w.dev 0 cb = 0) && reachable w.dev 0 (queueSlice w cb)

/-- The binding of a partition's queues is frozen from the first LOCK_INTERFACE of one of its functions (R64). -/
def bindingFrozen (d : Dev) (fn : Nat) : Bool := (vfOwner d fn).any fun k => (d.partOf k).frozen

/-- A window's BIND is written (R109): it binds where the queue is the function's partition's and the block is whole. Where the
binding is frozen the write is answered with Unsupported Request; R65 names only the PF's writes, so no event follows
(DEDUCED, notes/assumptions/133.md). -/
def bindWindow (fn win handle : Nat) (w : Work) : Work :=
  if answers w.dev fn = false ∨ hasWindow fn win = false then w.reply .unsupported
  else if bindingFrozen w.dev fn ∧ (w.dev.window fn win).handle ≠ handle then w.reply .unsupported
  else
    let part := (functionPart w.dev fn).getD 16
    let put (a : Work) (x : Window) : Work :=
      (a.mapDev fun d => { d with host := { d.host with wins := d.host.wins.set (16 * fn + win) x } }).reply .done
    if 2 ^ 56 ≤ handle ∨ handle % 64 ≠ 0 then put w {}
    else match translate w (deviceAsker w.dev part 0) [] handle with
      | .error e => put (w.awaits e) {}
      | .ok x =>
        let b := w.block x.pa
        if reachFault w.dev 0 x.pa = 0 ∧ b.owner = part ∧ wholeQueue w x.pa ∧ reachable w.dev 0 (queueSlice w x.pa) then
          put (w.adopt x.pa handle part (queueSlice w x.pa)) { handle := handle, cb := x.pa }
        else put w {}

/-- An operation of a host function at its window's queue: a CXL.io request, ordered among those of the function alone
(R206). -/
def Work.windowOp (w : Work) (fn win : Nat) (op : HomeOp) : HomeAns × Work :=
  let x := w.dev.window fn win
  let r := w.atHome x.cb (queueSlice w x.cb) x.handle (w.dev.agentTime (ioAgent fn))
    (.host ((functionPart w.dev fn).getD 16)) op
  (r.1, r.2.raiseAgent (ioAgent fn) (r.2.dev.homeOf x.cb).lts)

/-- A host's operation that a core would see as a queue cause: Unsupported Request, counted (R122). -/
def Work.refuseWindow (w : Work) (cause fn : Nat) : Work :=
  (w.countRefusal cause ((functionPart w.dev fn).getD 16) fn).reply .unsupported

/-- What the home's checks of the window's block find before the function's role and length are looked at, 22 where the home is not
reached (R120, R125). -/
def windowCheck (w : Work) (fn win : Nat) : Option (Nat × Work) :=
  let x := w.dev.window fn win
  if x.handle = 0 then some (21, w)
  else if windowReaches w x.cb = false then some (22, w)
  else match homeCheck w x.cb (queueSlice w x.cb) (.host ((functionPart w.dev fn).getD 16)) with
    | some 18 => some (18, w.poisonQueue x.cb)
    | some c => some (c, w)
    | none => none

/-- A write to a window's aperture (R108, R109, R122): into a command queue the host produces by slot claims only; a write that
does not cover one element is discarded and counted. -/
def windowEnqueue (fn win elem len : Nat) (w : Work) : Work :=
  if answers w.dev fn = false ∨ hasWindow fn win = false then w.reply .unsupported
  else match windowCheck w fn win with
    | some c => c.2.refuseWindow c.1 fn
    | none =>
      let b := w.block (w.dev.window fn win).cb
      let part := (functionPart w.dev fn).getD 16
      if b.role = 1 ∨ mayProduce b.role (.host part) = false then w.refuseWindow 21 fn
      else if len ≠ 2 ^ b.elog then (w.countRefusal 19 part fn).reply .done
      else
        let r := w.windowOp fn win (.enqueue (elem % 2 ^ (8 * len)) false)
        match r.1 with
        | .done _ _ _ => r.2.reply .done
        | .full => r.2.refuseWindow 16 fn
        | .empty => r.2.reply .done
        | .waiting => r.2.reply .done
        | .held => r.2.reply .done
        | .refused c => r.2.refuseWindow c fn

/-- A read of a window's CLAIM (Table 5.3, R122): all ones where the window is unbound, the role is not 1 or the queue is full,
and refused where the home's checks fail. -/
def windowClaim (fn win : Nat) (w : Work) : Work :=
  if answers w.dev fn = false ∨ hasWindow fn win = false then w.reply .unsupported
  else
    let no : Reply := .value (2 ^ 64 - 1)
    if (w.dev.window fn win).handle = 0 then w.reply no
    else match windowCheck w fn win with
      | some c => c.2.refuseWindow c.1 fn
      | none =>
        if (w.block (w.dev.window fn win).cb).role ≠ 1 then w.reply no
        else
          let r := w.windowOp fn win .claim
          match r.1 with
          | .done t _ _ => r.2.reply (.value t)
          | .full => r.2.reply no
          | .empty => r.2.reply no
          | .waiting => r.2.reply no
          | .held => r.2.reply no
          | .refused c => r.2.refuseWindow c fn

/-- A write of a window's RELEASE (Table 5.3, R122): role 2 only. -/
def windowRelease (fn win n : Nat) (w : Work) : Work :=
  if answers w.dev fn = false ∨ hasWindow fn win = false then w.reply .unsupported
  else match windowCheck w fn win with
    | some c => c.2.refuseWindow c.1 fn
    | none =>
      if (w.block (w.dev.window fn win).cb).role ≠ 2 then w.refuseWindow 21 fn
      else if n % 2 ^ 21 = 0 then w.reply .done
      else
        let r := w.windowOp fn win (.release (n % 2 ^ 21))
        match r.1 with
        | .done _ _ _ => r.2.reply .done
        | .full => r.2.reply .done
        | .empty => r.2.reply .done
        | .waiting => r.2.reply .done
        | .held => r.2.reply .done
        | .refused c => r.2.refuseWindow c fn

/-- A peer's enqueue at a queue's home (R108, R109): a refusal is an error completion on its link. The home checks the block
before its role (R125). A peer names no virtual address: a block that its operation is the first to adopt, or finds corrupt, goes into
the QNOTICE and the summary record under handle 0 (DESIGN CHOICE, notes/assumptions/126.md). -/
def peerClaim (port cb elem : Nat) (w : Work) : Work :=
  if (w.dev.ports.get port {}).up = false ∨ w.dev.mode ≠ .running ∨ cb % 64 ≠ 0 ∨
      rangeFault w.dev (portDie port) cb 64 false ≠ 0 then w.reply .linkError
  else if reachable w.dev (portDie port) (queueSlice w cb) = false then w.reply .linkError
  else if homeCheck w cb (queueSlice w cb) .peer = none ∧ mayProduce (w.block cb).role .peer = false then w.reply .linkError
  else
    let r := w.atHome cb (queueSlice w cb) 0 (w.dev.agentTime (portAgent port)) .peer (.enqueue elem false)
    match r.1 with
    | .done _ _ _ => r.2.reply .done
    | .full => r.2.reply .linkError
    | .empty => r.2.reply .linkError
    | .waiting => r.2.reply .linkError
    | .held => r.2.reply .linkError
    | .refused _ => r.2.reply .linkError

-- The BAR maps (R60, R80, R81, Tables 3.2 and 5.3)

/-- Recovery CMD 1 (Table 3.8): the summary record fills the first bytes of the window. -/
def readSummary (w : Work) : Work :=
  let w1 := w.mapDev fun d => { d with host := { d.host with sumCount := d.host.sumCount + 1 } }
  (w1.writeN (Key.recWin 0) 4096 (summaryRecord w1.dev 16)).endCommand 0

/-- A write in the recovery registers and window (Table 3.8). -/
def recoveryWrite (off val : Nat) (w : Work) : Work :=
  if 0x10000 ≤ off ∧ off < 0x20000 then
    (if w.dev.recovery.st = 1 then w else w.writeN (Key.recWin (off - 0x10000)) (min 8 (0x20000 - off)) val).reply .done
  else match off with
    | 0x000 =>
      let act : Work → Work := match val % 16 with
        | 1 => readSummary
        | 2 => beginStore 2
        | 3 => beginStore 3
        | 4 => resetDevice
        | 5 => appendWindow
        | 6 => fun x => x.emptyStaging.endCommand 0
        | _ => fun x => x
      (w.command act).reply .done
    | 0x008 => (w.updRecovery fun r => { r with len := val % 2 ^ 24 }).reply .done
    | 0x00C => (w.updRecovery fun r => { r with off := val % 2 ^ 20 }).reply .done
    | _ => w.reply .done

/-- A write in a queue-binding window: an 8-byte write at offset 0 is one to the aperture (Table 5.3). -/
def windowWrite (fn win off val : Nat) (w : Work) : Work :=
  if off = 0x1FF8 then bindWindow fn win val w
  else if off = 0x1008 then windowRelease fn win val w
  else if off = 0 then windowEnqueue fn win val 8 w
  else if off < 0x1000 then (w.countRefusal 21 ((functionPart w.dev fn).getD 16) fn).reply .done
  else w.reply .done

/-- A register write by a host function (R11, R60, R80). The region of the PF's BAR0 from 0x9_0000, which Table 3.2 gives as
reserved, answers as an offset outside every region does: the spec says nothing of an access to it (DESIGN CHOICE,
notes/assumptions/108.md). -/
def hostWrite (fn off val : Nat) (w : Work) : Work :=
  if fn = 0 ∧ 0x50000 ≤ off ∧ off < 0x70000 then recoveryWrite (off - 0x50000) val w
  else if answers w.dev fn = false then w.reply .unsupported
  else if fn = 0 then
    if off < 0x20000 then windowWrite 0 (off / 0x2000) (off % 0x2000) val w
    else if off < 0x40000 then
      (w.mapDev fun d => { d with host := { d.host with vectors := d.host.vectors.set off val } }).reply .done
    else if off = 0x40000 then
      let w1 := enableSocket (decide (val % 2 = 1)) w
      (if val / 2 % 2 = 1 then resetLink w1 else w1).reply .done
    else if off = 0x40004 then (clearDv val w).reply .done
    else if off < 0x50000 then w.reply .done
    else if off < 0x80000 then writeEntry ((off - 0x70000) / 0x1000) (off % 0x1000 / 8) val w
    else if off < 0x90000 then debugWrite 0 (off - 0x80000) val w
    else w.reply .unsupported
  else if off < 0x10000 then windowWrite fn (off / 0x2000) (off % 0x2000) val w
  else if off < 0x20000 then debugWrite fn (off - 0x10000) val w
  else w.reply .unsupported

/-- What a register read returns, for the registers whose reading changes nothing (Tables 2.1, 2.2, 3.8, 3.9, 5.3); the
one that claims is `windowClaim`. The spec gives the partition table registers no layout for reading: they read 0 (DESIGN
CHOICE, notes/assumptions/109.md). -/
def hostRead (w : Work) (fn off : Nat) : Reply :=
  let d := w.dev
  let windowRead (o : Nat) : Reply :=
    let x := d.window fn (off / 0x2000)
    if o = 0x1FF8 then .value x.handle
    else if x.handle = 0 then .value 0
    else if o = 0x1010 then .value (w.block x.cb).head
    else if o = 0x1018 then .value (w.block x.cb).tail
    else .value 0
  let recovery (o : Nat) : Reply :=
    let r := d.recovery
    if 0x10000 ≤ o then .value (w.readN (Key.recWin (o - 0x10000)) 8)
    else if o = 4 then .value (r.st + 4 * r.why)
    else if o = 8 then .value r.len
    else if o = 0xC then .value r.off
    else if o = 0x10 then .value r.slen
    else .value 0
  if fn = 0 ∧ 0x50000 ≤ off ∧ off < 0x70000 then recovery (off - 0x50000)
  else if answers d fn = false then .unsupported
  else if fn = 0 then
    if off < 0x20000 then windowRead (off % 0x2000)
    else if off < 0x40000 then .value (d.host.vectors.get off 0)
    else if off = 0x40000 then .value (if d.sock.en then 1 else 0)
    else if off = 0x40004 then .value d.sock.stat
    else if off < 0x80000 then .value 0
    else if off < 0x90000 then debugRead w 0 (off - 0x80000)
    else .unsupported
  else if off < 0x10000 then windowRead (off % 0x2000)
  else if off < 0x20000 then debugRead w fn (off - 0x10000)
  else .unsupported

/-- The offset in a debug window that a function's register access reaches, if it reaches one. -/
def debugOffset (fn off : Nat) : Option Nat :=
  if fn = 0 then (if 0x80000 ≤ off ∧ off < 0x90000 then some (off - 0x80000) else none)
  else if 0x10000 ≤ off ∧ off < 0x20000 then some (off - 0x10000) else none

/-- A host function reads a register: the answer, and the count of a refused use of a debug facility (R74, R75). -/
def registerRead (fn off : Nat) (w : Work) : Work :=
  match debugOffset fn off with
  | none => w.reply (hostRead w fn off)
  | some o => if answers w.dev fn ∧ debugRefused w.dev fn o then w.refuseDebug fn else w.reply (hostRead w fn off)

/-- The host driver writes a partition entry (R61, R63 to R65, R67, R165). -/
def execPartitionEntryWrite (part : Nat) (field : Nat) (val : Nat) (σ : State) : Host.Outcome State Fault Refusal :=
  .next (writeEntry part field val (Work.begin σ)).commit

/-- The PF enables an entry with CONF = 0 (R63). -/
def execPartitionEnable (part : Nat) (σ : State) : Host.Outcome State Fault Refusal :=
  .next (enablePart part (Work.begin σ)).commit

/-- The PF deletes an entry (R63). -/
def execPartitionDelete (part : Nat) (σ : State) : Host.Outcome State Fault Refusal :=
  .next (deletePart part (Work.begin σ)).commit

/-- LOCK_INTERFACE (R63, R64, R165). -/
def execLockInterface (fn : Nat) (σ : State) : Host.Outcome State Fault Refusal :=
  .next (lockFunction fn (Work.begin σ)).commit

/-- START_INTERFACE (R63). -/
def execStartInterface (fn : Nat) (σ : State) : Host.Outcome State Fault Refusal :=
  .next (startFunction fn (Work.begin σ)).commit

/-- STOP_INTERFACE (R63). -/
def execStopInterface (fn : Nat) (σ : State) : Host.Outcome State Fault Refusal :=
  .next (stopFunction fn (Work.begin σ)).commit

/-- A Function Level Reset (R65). -/
def execFunctionLevelReset (fn : Nat) (σ : State) : Host.Outcome State Fault Refusal :=
  .next (resetFunction fn (Work.begin σ)).commit

/-- An IDE stream fails (R65). -/
def execIdeStreamFailure (fn : Nat) (σ : State) : Host.Outcome State Fault Refusal :=
  .next (failIde fn (Work.begin σ)).commit

/-- A key slot is lost (R65). -/
def execKeyTableUncorrectable (slot : Nat) (σ : State) : Host.Outcome State Fault Refusal :=
  .next ((fun (w : Work) => w.partError slot) (Work.begin σ)).commit

/-- The scrub of R66 completes. -/
def execScrubComplete (part : Nat) (σ : State) : Host.Outcome State Fault Refusal :=
  .next (endScrub part (Work.begin σ)).commit

/-- The tenant delivers its keys (R70). -/
def execTenantKeyDelivery (fn : Nat) (key : Nat) (σ : State) : Host.Outcome State Fault Refusal :=
  .next (deliverKey fn key (Work.begin σ)).commit

/-- GET_VERSION begins SPDM on a mailbox afresh (R71). -/
def execGetVersion (fn : Nat) (σ : State) : Host.Outcome State Fault Refusal :=
  .next (spdmRequest fn 0x84 (fun _ => true) (fun _ => { version := true }) (Work.begin σ)).commit

/-- GET_CAPABILITIES (R71). -/
def execGetCapabilities (fn : Nat) (σ : State) : Host.Outcome State Fault Refusal :=
  .next (spdmRequest fn 0xE1 (fun s => s.version) (fun s => { s with caps := true }) (Work.begin σ)).commit

/-- NEGOTIATE_ALGORITHMS (R71). -/
def execNegotiateAlgorithms (fn : Nat) (σ : State) : Host.Outcome State Fault Refusal :=
  .next (spdmRequest fn 0xE3 (fun s => s.caps) (fun s => { s with algs := true }) (Work.begin σ)).commit

/-- GET_DIGESTS (R71). -/
def execGetDigests (fn : Nat) (σ : State) : Host.Outcome State Fault Refusal :=
  .next (spdmRequest fn 0x81 (fun s => s.algs) (fun s => s) (Work.begin σ)).commit

/-- GET_CERTIFICATE (R71). -/
def execGetCertificate (fn : Nat) (σ : State) : Host.Outcome State Fault Refusal :=
  .next (spdmRequest fn 0x82 (fun s => s.algs) (fun s => s) (Work.begin σ)).commit

/-- CHALLENGE (R71). -/
def execChallenge (fn : Nat) (σ : State) : Host.Outcome State Fault Refusal :=
  .next (spdmRequest fn 0x83 (fun s => s.algs) (fun s => s) (Work.begin σ)).commit

/-- GET_MEASUREMENTS (R71, R72). -/
def execGetMeasurements (fn : Nat) (block : Nat) (σ : State) : Host.Outcome State Fault Refusal :=
  .next (measure fn block (Work.begin σ)).commit

/-- KEY_EXCHANGE (R71). -/
def execKeyExchange (fn : Nat) (σ : State) : Host.Outcome State Fault Refusal :=
  .next (spdmRequest fn 0xE4 (fun s => s.algs) (fun s => { s with session := 1 }) (Work.begin σ)).commit

/-- FINISH ends the handshake of a session (R71). -/
def execFinish (fn : Nat) (ok : Bool) (σ : State) : Host.Outcome State Fault Refusal :=
  .next (spdmRequest fn 0xE5 (fun s => decide (s.session = 1)) (fun s => { s with session := if ok then 2 else 0 }) (Work.begin σ)).commit

/-- END_SESSION (R71). -/
def execEndSession (fn : Nat) (σ : State) : Host.Outcome State Fault Refusal :=
  .next (spdmRequest fn 0xEC (fun s => decide (s.session = 2)) (fun s => { s with session := 0 }) (Work.begin σ)).commit

/-- A tenant's debug policy (R70, R73). -/
def execDebugPolicy (fn : Nat) (rec : Nat) (σ : State) : Host.Outcome State Fault Refusal :=
  .next (takePolicy fn rec (Work.begin σ)).commit

/-- HALT is written with 1 (R74, R75). -/
def execHaltRequest (fn : Nat) (σ : State) : Host.Outcome State Fault Refusal :=
  .next (haltWrite fn true (Work.begin σ)).commit

/-- HALT is written with 0 (R75). -/
def execHaltRelease (fn : Nat) (σ : State) : Host.Outcome State Fault Refusal :=
  .next (haltWrite fn false (Work.begin σ)).commit

/-- A request of the host by CXL.mem or CXL.cache (R62, R69, R76 to R78, R185, R205). -/
def execHostCxlMemRequest (req : MemReq) (σ : State) : Host.Outcome State Fault Refusal :=
  .next (hostRequest req (Work.begin σ)).commit

/-- A write to a register with no row of its own (R11, R60, R80). -/
def execRegisterWrite (fn : Nat) (off : Nat) (val : Nat) (σ : State) : Host.Outcome State Fault Refusal :=
  .next (hostWrite fn off val (Work.begin σ)).commit

/-- Recovery CMD 1 (R80, Table 3.8). -/
def execReadSummaryIntoWindow (σ : State) : Host.Outcome State Fault Refusal :=
  .next ((fun (w : Work) => w.command readSummary) (Work.begin σ)).commit

/-- A write to a queue window's aperture (R109). -/
def execEnqAperture (fn : Nat) (win : Nat) (elem : Nat) (len : Nat) (σ : State) : Host.Outcome State Fault Refusal :=
  .next (windowEnqueue fn win elem len (Work.begin σ)).commit

/-- A read of a queue window's CLAIM (R109). -/
def execClaim (fn : Nat) (win : Nat) (σ : State) : Host.Outcome State Fault Refusal :=
  .next (windowClaim fn win (Work.begin σ)).commit

/-- A write of a queue window's RELEASE (R109). -/
def execRelease (fn : Nat) (win : Nat) (n : Nat) (σ : State) : Host.Outcome State Fault Refusal :=
  .next (windowRelease fn win n (Work.begin σ)).commit

/-- A write of a queue window's BIND (R109). -/
def execQueueWindowBind (fn : Nat) (win : Nat) (handle : Nat) (σ : State) : Host.Outcome State Fault Refusal :=
  .next (bindWindow fn win handle (Work.begin σ)).commit

/-- A peer's enqueue at a queue's home (R108). -/
def execPeerQueueClaim (port : Nat) (cb : Nat) (elem : Nat) (σ : State) : Host.Outcome State Fault Refusal :=
  .next (peerClaim port cb elem (Work.begin σ)).commit

end Sys2Proof.Machine
end

