-- ==== Sys2Proof/Machine/Func.lean ====
section
/-! DEFINITION. The function forms of R344, computed on integers with 320 fraction bits and rounded once (R240;
notes/assumptions/7.md). -/

namespace Sys2Proof.Machine

/-- Fraction bits of the working precision. -/
def wp : Nat := 320

/-- The integer square root, bit by bit from bit n. -/
def isqrtFrom (x : Nat) : Nat → Nat → Nat
  | 0, r => if (r + 1) * (r + 1) ≤ x then r + 1 else r
  | n + 1, r =>
    let c := r + 2 ^ (n + 1)
    isqrtFrom x n (if c * c ≤ x then c else r)

/-- The integer square root. -/
def isqrt (x : Nat) : Nat := isqrtFrom x (bitLen x / 2 + 1) 0

/-- Terms of the series of atanh(p / q) in fixed point: term k is (p/q)^(2k+1) / (2k+1). -/
def atanhSeries (p2 q2 : Nat) : Nat → Nat → Nat → Nat
  | 0, _, _ => 0
  | n + 1, term, k => term / (2 * k + 1) + atanhSeries p2 q2 n (term * p2 / q2) (k + 1)

/-- ln(a / b) for 1 ≤ a / b ≤ 2, in fixed point: twice atanh((a - b) / (a + b)). -/
def lnRatio (a b : Nat) : Nat :=
  let p := a - b
  let q := a + b
  2 * atanhSeries (p * p) (q * q) 220 (p * 2 ^ wp / q) 0

/-- ln 2 in fixed point. -/
def ln2 : Nat := lnRatio 2 1

/-- Terms of the series of e^x, x in fixed point. -/
def expSeries (x : Nat) : Nat → Nat → Nat → Nat
  | 0, _, _ => 0
  | n + 1, term, k => term + expSeries x n (term * x / 2 ^ wp / (k + 1)) (k + 1)

/-- 2^f for 0 ≤ f < 1, f and the result in fixed point. -/
def exp2Frac (f : Nat) : Nat := expSeries (f * ln2 / 2 ^ wp) 90 (2 ^ wp) 0

/-- |x| as fixed point, for |x| of moderate size. -/
def toFixed (m : Nat) (e : Int) : Nat :=
  let k := (wp : Int) + e
  if 0 ≤ k then m * 2 ^ k.toNat else m / 2 ^ (-k).toNat

/-- 2^a as a value: the exponent is the floor of a, the fraction by `exp2Frac`; an integral a is exact (R344). -/
def exp2Fixed (neg : Bool) (x : Nat) : Real :=
  let ip := x / 2 ^ wp
  let fp := x % 2 ^ wp
  if neg then
    (if fp = 0 then .fin false 1 (-(ip : Int)) else .fin false (exp2Frac (2 ^ wp - fp)) (-(ip : Int) - 1 - wp))
  else if fp = 0 then .fin false 1 ip
  else .fin false (exp2Frac fp) ((ip : Int) - wp)

/-- The rounding of an approximated value that is not exact: the approximation carries more than 280 good bits, and a
set sticky bit keeps it off the ties. -/
def roundApprox (f : Fmt) (x : Real) : Nat :=
  match x with
  | .nan => f.nan
  | .inf n => overflowCode f n .infinity
  | .fin n m e => roundFin f .infinity n m e true

/-- The magnitude is at least 2^k. -/
def bigAs (m : Nat) (e : Int) (k : Int) : Bool := decide (k < (bitLen m : Int) + e)

/-- `vexp2` (Table 13.4). -/
def fnExp2 (f : Fmt) (x : Real) : Nat :=
  match x with
  | .nan => f.nan
  | .inf neg => if neg then 0 else overflowCode f false .infinity
  | .fin neg m e =>
    if m = 0 then rne f (.fin false 1 0)
    else if bigAs m e 10 then (if neg then 0 else overflowCode f false .infinity)
    else
      let y := toFixed m e
      if y % 2 ^ wp = 0 ∧ (0 ≤ e ∨ m % 2 ^ (-e).toNat = 0) then rne f (exp2Fixed neg y)
      else roundApprox f (exp2Fixed neg y)

/-- `vlog2` (Table 13.4). -/
def fnLog2 (f : Fmt) (x : Real) : Nat :=
  match x with
  | .nan => f.nan
  | .inf neg => if neg then f.nan else overflowCode f false .infinity
  | .fin neg m e =>
    if m = 0 then overflowCode f true .infinity
    else if neg then f.nan
    else
      let l := bitLen m - 1
      let k : Int := (l : Int) + e
      if m = 2 ^ l then rne f (.ofInt k)
      else
        let fr := lnRatio m (2 ^ l) * 2 ^ wp / ln2
        let t : Int := k * ((2 ^ wp : Nat) : Int) + fr
        roundApprox f (.fin (decide (t < 0)) t.natAbs (-(wp : Int)))

/-- `vrcp` (Table 13.4). -/
def fnRcp (f : Fmt) (x : Real) : Nat :=
  match x with
  | .nan => f.nan
  | .inf neg => if neg then 2 ^ (f.bits - 1) else 0
  | .fin neg m e =>
    if m = 0 then overflowCode f neg .infinity
    else
      let q := 2 ^ wp / m
      roundFin f .infinity neg q (-(wp : Int) - e) (decide (2 ^ wp % m ≠ 0))

/-- `vrsqrt` (Table 13.4). -/
def fnRsqrt (f : Fmt) (x : Real) : Nat :=
  match x with
  | .nan => f.nan
  | .inf neg => if neg then f.nan else 0
  | .fin neg m e =>
    if m = 0 then overflowCode f neg .infinity
    else if neg then f.nan
    else
      -- 1 / sqrt(m 2^e): with e even, sqrt(2^(2 wp) / m) 2^(-wp - e/2)
      let m' := if e % 2 = 0 then m else 2 * m
      let e' := if e % 2 = 0 then e else e - 1
      let y := 2 ^ (2 * wp) / m'
      let r := isqrt y
      roundFin f .infinity false r (-(wp : Int) - e' / 2) (decide (r * r * m' ≠ 2 ^ (2 * wp)))

/-- 2^(|x| log2 e) in fixed point, for |x| below 2^8. -/
def expFixed (m : Nat) (e : Int) : Nat :=
  let y := toFixed m e * 2 ^ wp / ln2
  exp2Frac (y % 2 ^ wp) * 2 ^ (y / 2 ^ wp)

/-- `vsigm` (Table 13.4). -/
def fnSigm (f : Fmt) (x : Real) : Nat :=
  match x with
  | .nan => f.nan
  | .inf neg => if neg then 0 else rne f (.fin false 1 0)
  | .fin neg m e =>
    if m = 0 then rne f (.fin false 1 (-1))
    else if bigAs m e 8 then (if neg then 0 else rne f (.fin false 1 0))
    else
      let t := expFixed m e
      let one := 2 ^ wp
      let num := if neg then one else t
      roundApprox f (.fin false (num * 2 ^ wp / (one + t)) (-(wp : Int)))

/-- `vtanh` (Table 13.4). -/
def fnTanh (f : Fmt) (x : Real) : Nat :=
  match x with
  | .nan => f.nan
  | .inf neg => rne f (.fin neg 1 0)
  | .fin neg m e =>
    if m = 0 then (if neg then 2 ^ (f.bits - 1) else 0)
    else if bigAs m e 7 then rne f (.fin neg 1 0)
    else if bigAs m e (-100) then
      let t := expFixed m (e + 1)
      let one := 2 ^ wp
      roundApprox f (.fin neg ((t - one) * 2 ^ wp / (t + one)) (-(wp : Int)))
    else rne f (.fin neg m e)

end Sys2Proof.Machine
end

