-- ==== Sys2Proof/Machine/Vector.lean ====
section
/-! DEFINITION. The V-slot forms (R330 to R352). -/

namespace Sys2Proof.Machine

-- Formats and results

/-- The float format of Q (Table 11.1). -/
def vFmt (q : BitVec 2) : Fmt :=
  match q.toNat with
  | 0 => .fp32
  | 1 => .bf16
  | _ => .fp16

/-- The integer format of Q (Table 11.1). -/
def vInt (q : BitVec 2) : Fmt :=
  match q.toNat with
  | 0 => .int8
  | 1 => .int16
  | _ => .int32

/-- The element width of the movement forms (Table 11.1). -/
def moveBits (q : BitVec 2) : Nat := 8 * 2 ^ q.toNat

/-- The latch of the issuing V slot: `va0.r` or `va1.r`. -/
def Work.vLatch (w : Work) : Nat := if w.isV1 then 1 else 0

/-- A result under a byte mask: into its latch, with 0 in the other bytes, and into the mask's bytes of vWD (R332). -/
def Work.landMasked (w : Work) (lat latch : Nat) (val : Vec) (act : Mask) (dst : Option Nat) (mark : Nat) : Work :=
  w.launchAt lat (.vector latch (val &&& spreadMask act) val act dst mark)

/-- A result of n-bit elements under the slot's mask (R332). -/
def Work.landElems (w : Work) (lat n : Nat) (res : List Nat) (dst : Option Nat) : Work :=
  w.landMasked lat w.vLatch (packVec n res) (laneMask w) dst 0

/-- A result that is not lane-masked (R333). -/
def Work.landWhole (w : Work) (lat latch : Nat) (val : Vec) (dst : Option Nat) : Work :=
  w.landMasked lat latch val (BitVec.allOnes 256) dst 0

/-- A and B in a view each, the VA port having received B (R209, R331). -/
def readVAB (w : Work) (va vb : View) (om : BitVec 2) (os ts : BitVec 7) : Except Stop (Vec × Vec × Work) := do
  let a ← readVSel w va ts.toNat
  let b ← readVPort w vb om os
  .ok (a, b, w.setVPort b)

/-- W: register vWD as a form reads it (R331). -/
def readW (w : Work) (wd : BitVec 5) : Except Stop Vec := w.me.good (96 + wd.toNat) (w.me.vreg wd.toNat)

/-- Three lists combined element by element. -/
def map3 (f : Nat → Nat → Nat → Nat) : List Nat → List Nat → List Nat → List Nat
  | a :: as, b :: bs, c :: cs => f a b c :: map3 f as bs cs
  | [], _, _ => []
  | _ :: _, [], _ => []
  | _ :: _, _ :: _, [] => []

/-- The plan of a form with one source. -/
def vUnary (lat : Nat) (f : Fmt) (op : Nat → Nat) (ts : BitVec 7) (wd : BitVec 5) (we : BitVec 1) (w : Work) : Plan := do
  let a ← readVSel w (.fmt f) ts.toNat
  .ok (w.landElems lat f.bits ((elements f.bits a).map op) (dest we wd.toNat))

/-- The plan of a form with two sources. -/
def vBinary (lat : Nat) (f : Fmt) (op : Nat → Nat → Nat) (om : BitVec 2) (os ts : BitVec 7) (wd : BitVec 5) (we : BitVec 1)
    (w : Work) : Plan := do
  let (a, b, w1) ← readVAB w (.fmt f) (.fmt f) om os ts
  .ok (w1.landElems lat f.bits (List.zipWith op (elements f.bits a) (elements f.bits b)) (dest we wd.toNat))

/-- The plan of a fused form: the third source is vWD (R336). -/
def vFused (f : Fmt) (op : Real → Real → Real → Real) (om : BitVec 2) (os ts : BitVec 7) (wd : BitVec 5) (we : BitVec 1)
    (w : Work) : Plan := do
  let (a, b, w1) ← readVAB w (.fmt f) (.fmt f) om os ts
  let c ← readW w wd
  let go (x y z : Nat) : Nat := rne f (op (floatValue f x) (floatValue f y) (floatValue f z))
  .ok (w1.landElems 4 f.bits (map3 go (elements f.bits a) (elements f.bits b) (elements f.bits c)) (dest we wd.toNat))

-- Floating arithmetic (R336 to R339)

/-- An operation on values, rounded once (R336). -/
def vRound (f : Fmt) (op : Real → Real → Real) (x y : Nat) : Nat := rne f (op (floatValue f x) (floatValue f y))

/-- |a| and -a on the bit pattern; a NaN gives the canonical NaN (R336). -/
def vAbsElem (f : Fmt) (x : Nat) : Nat :=
  if (floatValue f x).isNan then f.nan else x % 2 ^ (f.bits - 1)

def vNegElem (f : Fmt) (x : Nat) : Nat :=
  if (floatValue f x).isNan then f.nan else x ^^^ 2 ^ (f.bits - 1)

/-- The bits of a comparison's result (R337): n/8 mask bits for each element. -/
def cmpMask (n : Nat) (rs : List Bool) : Mask :=
  BitVec.ofNat 256 (packN (n / 8) (rs.map fun r => if r then 2 ^ (n / 8) - 1 else 0))

/-- The plan of `vcmp` (R337). -/
def vCompare (k : VCond) (f : Fmt) (om : BitVec 2) (os ts : BitVec 7) (wd : BitVec 3) (we : BitVec 1) (w : Work) : Plan := do
  let (a, b, w1) ← readVAB w (.fmt f) (.fmt f) om os ts
  let rs := List.zipWith (fun x y => k.holds (floatValue f x) (floatValue f y)) (elements f.bits a) (elements f.bits b)
  let act := elementMask f.bits (laneMask w)
  let m := cmpMask f.bits rs
  .ok (w1.launchAt 4 (.mask w.vLatch (spreadMask (m &&& act)) m act (dest we wd.toNat)))

/-- The plan of `vsel` (R338). -/
def vSelect (f : Fmt) (om : BitVec 2) (os ts : BitVec 7) (wd : BitVec 5) (we : BitVec 1) (w : Work) : Plan := do
  let (a, b, w1) ← readVAB w (.fmt f) (.fmt f) om os ts
  .ok (w1.landWhole 4 w.vLatch (blend (elementMask f.bits (laneMask w)) a b) (dest we wd.toNat))

/-- `vround` of an element by a mode (R339). -/
def vRoundElem (f : Fmt) (x m : Nat) : Nat := rne f ((floatValue f x).roundInt (m % 4))

/-- `vscale` of an element by an exponent (R339); exponents beyond every format's reach are limited, which changes no
result. -/
def vScaleElem (f : Fmt) (x k : Nat) : Nat := rne f ((floatValue f x).scale (clampInt (-1000) 1000 (sx f.bits k)))

/-- The plan of `vround` and `vscale`: B's elements are taken as they are (R339), and a constant as B has the value that its column of
the form's format gives it (R273). -/
def vModed (f : Fmt) (op : Nat → Nat → Nat) (om : BitVec 2) (os ts : BitVec 7) (wd : BitVec 5) (we : BitVec 1) (w : Work) :
    Plan := do
  let (a, b, w1) ← readVAB w (.fmt f) (if om = 1 ∧ 0x60 ≤ os.toNat then .fmt f else .bare f.bits) om os ts
  .ok (w1.landElems 4 f.bits (List.zipWith op (elements f.bits a) (elements f.bits b)) (dest we wd.toNat))

-- Integer and logical forms (R340)

/-- An operation on signed elements, wrapped to the width. -/
def vSigned (n : Nat) (op : Int → Int → Int) (x y : Nat) : Nat := wrap n (op (sx n x) (sx n y))

/-- The plan of the logical forms, on all 2,048 bits. -/
def vLogic (op : Vec → Vec → Vec) (om : BitVec 2) (os ts : BitVec 7) (wd : BitVec 5) (we : BitVec 1) (w : Work) : Plan := do
  let (a, b, w1) ← readVAB w .groups .groups om os ts
  .ok (w1.landMasked 2 w.vLatch (op a b) (laneMask w) (dest we wd.toNat) 0)

-- Conversion (R341 to R343)

/-- The byte mask of n bytes from byte lo. -/
def byteRange (lo n : Nat) : Mask := BitVec.ofNat 256 ((2 ^ n - 1) * 2 ^ lo)

/-- The result of a narrowing or widening conversion: its elements placed from element `first` of width n, under the
slot's mask in the bytes written (R342). -/
def Work.landPart (w : Work) (n first : Nat) (res : List Nat) (dst : Option Nat) : Work :=
  let lo := first * n / 8
  let act := laneMask w &&& byteRange lo (res.length * n / 8)
  w.landMasked 4 w.vLatch (BitVec.ofNat 2048 (packN n res * 2 ^ (first * n))) act dst 0

/-- One converted element (R342). -/
def vcvtElem (src dst : Fmt) (ovf : Bool) (s : Real) (x : Nat) : Nat := convert dst ovf (Real.mul (value src x) s)

/-- The plan of `vcvt` (R341, R342). -/
def vcvtPlan (om : BitVec 2) (os ts : BitVec 7) (wd : BitVec 5) (we : BitVec 1) (w : Work) : Plan := do
  let b ← readVPort w .groups om os
  let d := (lane0 b).toNat
  let part := bits d 12 10
  match Fmt.ofCode (d % 16), Fmt.ofCode (bits d 7 4) with
  | some src, some dst => do
    check (decide (d % 16 ≠ 0) && decide (bits d 7 4 ≠ 0)) 29
    let wide := max src.bits dst.bits
    check (decide (part < wide / min src.bits dst.bits)) 29
    let a ← readVSel w (.fmt src) ts.toNat
    let e := 2048 / wide
    let scl := bits d 63 32
    let s : Real := if scl = 0 then .ofInt 1 else floatValue .fp32 scl
    let from_ := if src.bits ≤ dst.bits then part * e else 0
    let off := if src.bits ≤ dst.bits then 0 else part * e
    let xs := ((elements src.bits a).drop from_).take e
    .ok ((w.setVPort b).landPart dst.bits off (xs.map (vcvtElem src dst (bit d 8) s)) (dest we wd.toNat))
  | some _, none => trapOn 29
  | none, _ => trapOn 29

/-- One requantised element (R343). -/
def vrqElem (src dst : Fmt) (shift : Nat) (zp mult : Int) (x : Nat) : Nat :=
  let v : Int := if src = .fp32 then sx 32 (convert .int32 false (floatValue .fp32 x)) else sx 32 x
  let r := dst.intRange
  wrap dst.bits (clampInt r.1 r.2 (rna (v * mult) shift + zp))

/-- The plan of `vrq` (R343). -/
def vrqPlan (om : BitVec 2) (os ts : BitVec 7) (wd : BitVec 5) (we : BitVec 1) (w : Work) : Plan := do
  let b ← readVPort w .groups om os
  let d := (lane0 b).toNat
  let dc := d % 16
  let sc := bits d 7 4
  let part := bits d 12 10
  check (decide (2 ≤ dc) && decide (dc ≤ 4) && (decide (sc = 5) || decide (sc = 10))) 29
  check (decide (part < (if dc = 4 then 2 else 4))) 29
  let src : Fmt := if sc = 10 then .fp32 else .int32
  let dst : Fmt := if dc = 2 then .int8 else if dc = 3 then .uint8 else .int16
  let a ← readVSel w (.fmt src) ts.toNat
  let go := vrqElem src dst (bits d 21 16) (sx 8 (bits d 31 24)) (sx 32 (bits d 63 32))
  .ok ((w.setVPort b).landPart dst.bits (part * 64) ((elements 32 a).map go) (dest we wd.toNat))

-- Movement and permutation (R345)

/-- The plan of `vmov`. -/
def vmovPlan (n : Nat) (ts : BitVec 7) (wd : BitVec 5) (we : BitVec 1) (w : Work) : Plan := do
  let a ← readVSel w (.bare n) ts.toNat
  .ok (w.landElems 2 n (elements n a) (dest we wd.toNat))

/-- The plan of `vbc`. -/
def vbcPlan (n : Nat) (om : BitVec 2) (os ts : BitVec 7) (wd : BitVec 5) (we : BitVec 1) (w : Work) : Plan := do
  let (a, b, w1) ← readVAB w (.bare n) .groups om os ts
  let e := 2048 / n
  let k := (lane0 b).toNat % 256 % e
  .ok (w1.landElems 2 n (List.replicate e ((elements n a).getD k 0)) (dest we wd.toNat))

/-- The plan of `vperm`. -/
def vpermPlan (n : Nat) (om : BitVec 2) (os ts : BitVec 7) (wd : BitVec 5) (we : BitVec 1) (w : Work) : Plan := do
  let (a, b, w1) ← readVAB w (.bare n) (.bare n) om os ts
  let xs := elements n a
  .ok (w1.landElems 3 n ((elements n b).map fun k => xs.getD (k % (2048 / n)) 0) (dest we wd.toNat))

/-- The element of `vshuf` (Table 13.5): e elements, A and W as lists. -/
def shuffled (code m e : Nat) (a c : List Nat) (i : Nat) : Nat :=
  let both := a ++ c
  match code with
  | 0 => if i % 2 = 0 then a.getD (i / 2) 0 else c.getD ((i - 1) / 2) 0
  | 1 => if i % 2 = 0 then a.getD (e / 2 + i / 2) 0 else c.getD (e / 2 + (i - 1) / 2) 0
  | 2 => both.getD (2 * i) 0
  | 3 => both.getD (2 * i + 1) 0
  | 4 => a.getD (e - 1 - i) 0
  | 5 => a.getD ((i + m) % e) 0
  | _ => a.getD i 0

/-- The plan of `vshuf`. -/
def vshufPlan (n : Nat) (om : BitVec 2) (os ts : BitVec 7) (wd : BitVec 5) (we : BitVec 1) (w : Work) : Plan := do
  let (a, b, w1) ← readVAB w (.bare n) .groups om os ts
  let c ← readW w wd
  let d := (lane0 b).toNat
  let e := 2048 / n
  let res := (List.range e).map (shuffled (d % 256) (bits d 15 8) e (elements n a) (elements n c))
  .ok (w1.landElems 3 n res (dest we wd.toNat))

-- Reductions (R346)

/-- The active elements of a list. -/
def actives : List Nat → List Bool → List Nat
  | x :: xs, b :: bs => if b then x :: actives xs bs else actives xs bs
  | [], _ => []
  | _ :: _, [] => []

/-- The value of `vred.max`: -infinity with no active element. -/
def largest (f : Fmt) : List Nat → Nat
  | [] => overflowCode f true .infinity
  | [x] => if (value f x).isNan then f.nan else x
  | x :: y :: t => pickElem f true x (largest f (y :: t))

/-- The plan of `vred.add` and `vred.max`: the value lands in every element of `vred.r` and vWD, unmasked. -/
def vReduce (f : Fmt) (op : List Nat → Nat) (ts : BitVec 7) (wd : BitVec 5) (we : BitVec 1) (w : Work) : Plan := do
  let a ← readVSel w (.fmt f) ts.toNat
  let v := op (actives (elements f.bits a) (activeList f.bits (laneMask w)))
  .ok (w.landWhole 6 2 (splat f.bits v) (dest we wd.toNat))

-- Local-store access (R347, R348)

/-- The active elements of a vector access: register element and byte address before relocation. -/
def walkElems (i : NestImage) (m : Mask) (a : Nat) : List (Nat × Int) :=
  let n := nestUnit i
  ((activeList (8 * n) m).zip (List.range (256 / n))).filterMap fun x =>
    if x.1 ∧ a + x.2 < nestPositions i then some (x.2, (nestBase i : Int) + nestOffset i (a + x.2)) else none

/-- The checks of `vld` and `vst` (R348), in their order; a false one is its cause. -/
def walkElemChecks (w : Work) (i : NestImage) (es : List (Nat × Int)) : Except Stop Unit := do
  let n := nestUnit i
  check (es.all fun e => decide (e.2 % (n : Int) = 0)) 13
  check (es.all fun e => decide (0 ≤ e.2) && w.me.declares e.2.toNat n) 10

/-- The image of nest register nK for a vector access, valid and of KIND 3 (R348 step 1). -/
def lsNest (w : Work) (k : BitVec 4) : Except Stop NestImage :=
  let i := w.me.nest.get k.toNat 0
  if nestValid i ∧ nestKind i = 3 then .ok i else trapOn 37

/-- The bytes of a register that the elements cover. -/
def elemBytes (n : Nat) (es : List (Nat × Int)) : Mask :=
  es.foldl (fun m e => m ||| byteRange (n * e.1) n) 0

/-- The plan of `vld`. -/
def vldPlan (k : BitVec 4) (ts : BitVec 7) (wd : BitVec 5) (we : BitVec 1) (w : Work) : Plan := do
  let a ← readVSel w .groups ts.toNat
  let i ← lsNest w k
  let n := nestUnit i
  let core := w.dev.issue.core
  let es := walkElems i (laneMask w) (lane0 a).toNat
  walkElemChecks w i es
  let at_ (e : Nat × Int) : Nat := w.me.relocate e.2.toNat
  let val := es.foldl (fun x e => x + w.lsRead core (at_ e) n * 2 ^ (8 * n * e.1)) 0
  let mark := if es.any fun e => lsMark w (at_ e) n ≠ 0 then 41 else 0
  .ok ((w.setVPort (View.groups.imm k.toNat)).landMasked 8 w.vLatch (BitVec.ofNat 2048 val)
    (laneMask w &&& elemBytes n es) (dest we wd.toNat) mark)

/-- A store that writes every byte of a marked sector clears its mark (R348). -/
def Work.clearMarks (w : Work) (core n : Nat) (addrs : List Nat) : Work :=
  let bytes := addrs.flatMap fun a => (List.range n).map fun k => a + k
  let whole (s : Nat) : Bool := (List.range 32).all fun k => bytes.contains (32 * s + k)
  (w.mapDev fun d => { d with issue := { d.issue with wasBad := d.issue.wasBad ++ (d.core core).lsBad.filter whole } }).updCore core
    fun c => { c with lsBad := c.lsBad.filter fun s => !whole s }

/-- The plan of `vst`. -/
def vstPlan (k : BitVec 4) (ts : BitVec 7) (wd : BitVec 5) (w : Work) : Plan := do
  let a ← readVSel w .groups ts.toNat
  let c ← readW w wd
  let i ← lsNest w k
  let n := nestUnit i
  let core := w.dev.issue.core
  let es := walkElems i (laneMask w) (lane0 a).toNat
  walkElemChecks w i es
  let at_ (e : Nat × Int) : Nat := w.me.relocate e.2.toNat
  let w1 := es.foldl (fun x e => x.lsWrite core (at_ e) n (packedBytes c.toNat (n * e.1) n)) w
  .ok ((w1.clearMarks core n (es.map at_)).setVPort (View.groups.imm k.toNat))

-- Accumulator access (R349)

/-- The unit or pair that `vacc.rd` and `vacc.wr` name, with their checks (R349). -/
def accUnits (c : Ctx) (b : Nat) : Except Stop (Nat × Nat) := do
  let u := b % 8
  let af := bits b 4 3
  check (!(decide (af = 3) || (decide (af = 2) && decide (u % 2 = 1)))) 29
  match c.unit u, c.unit (if af = 2 then u + 1 else u) with
  | some x, some y => .ok (x, y)
  | some _, none => trapOn 30
  | none, _ => trapOn 30

/-- The plan of `vacc.rd`, at t + 6. -/
def vaccRdPlan (om : BitVec 2) (os ts : BitVec 7) (wd : BitVec 5) (we : BitVec 1) (w : Work) : Plan := do
  let (av, bv, w1) ← readVAB w .groups .groups om os ts
  let a := (lane0 av).toNat
  let b := (lane0 bv).toNat
  let us ← accUnits w.me b
  let f := accFmt (bits b 4 3)
  let lane (l : Nat) : Nat := rne .fp32 (floatValue f (w.myCore.tile f us.1 us.2 (a % 64) (64 * bits a 7 6 + l)))
  .ok (w1.landMasked 6 3 (packVec 32 ((List.range 64).map lane)) (laneMask w) (dest we wd.toNat) 0)

/-- The plan of `vacc.wr`, reaching its unit at t + 4. -/
def vaccWrPlan (om : BitVec 2) (os ts : BitVec 7) (wd : BitVec 5) (w : Work) : Plan := do
  let (av, bv, w1) ← readVAB w .groups .groups om os ts
  let c ← readW w wd
  let a := (lane0 av).toNat
  let b := (lane0 bv).toNat
  let us ← accUnits w.me b
  .ok (w1.launchAt 4 (.accWrite (bits b 4 3) us.1 us.2 (a % 64) (64 * bits a 7 6) c (laneMask w)))

-- The forwarding latch and the mask forms (R351, R352)

/-- The tag that `vmrow` lands (R351). -/
def mrowTag (c : Ctx) : Nat :=
  c.mrowRow % 64 + (if c.mrowHv then 64 else 0) + (if c.mrowNf then 128 else 0) + 2 ^ 16 * (c.mrowSer % 2 ^ 16)

/-- The plan of `vmrow`. -/
def vmrowPlan (wd : BitVec 5) (we : BitVec 1) (w : Work) : Plan :=
  .ok (w.landMasked 2 w.vLatch (splat 64 (mrowTag w.me)) (laneMask w) (dest we wd.toNat) 0)

/-- The plan of `vmand`, `vmor` and `vmnot`, which require MV = 0 (R333). -/
def maskPlan (op : Mask → Mask → Mask) (a b : BitVec 3) (wd : BitVec 3) (we : BitVec 1) (w : Work) : Plan := do
  check (decide (laneSel w = 0)) 2
  let r := op (w.me.vmreg a.toNat) (w.me.vmreg b.toNat)
  .ok (w.launchAt 2 (.mask w.vLatch (r.setWidth 2048) r (BitVec.allOnes 256) (dest we wd.toNat)))

/-- The plan of `vmcnt`. -/
def vmcntPlan (wd : BitVec 5) (we : BitVec 1) (w : Work) : Plan :=
  .ok (w.landWhole 2 w.vLatch (splat 64 (popFrom 256 (laneMask w).toNat)) (dest we wd.toNat))

/-- `vadd`, at t + 4 (R336). -/
def execVadd (om : BitVec 2) (os : BitVec 7) (ts : BitVec 7) (wd : BitVec 5) (we : BitVec 1) (q : BitVec 2)
    (σ : State) : Host.Outcome State Fault Refusal :=
  .next (slotRun (vBinary 4 (vFmt q) (vRound (vFmt q) Real.add) om os ts wd we) σ)

/-- `vsub`, at t + 4 (R336). -/
def execVsub (om : BitVec 2) (os : BitVec 7) (ts : BitVec 7) (wd : BitVec 5) (we : BitVec 1) (q : BitVec 2)
    (σ : State) : Host.Outcome State Fault Refusal :=
  .next (slotRun (vBinary 4 (vFmt q) (vRound (vFmt q) fun x y => Real.add x y.neg) om os ts wd we) σ)

/-- `vmul`, at t + 4 (R336). -/
def execVmul (om : BitVec 2) (os : BitVec 7) (ts : BitVec 7) (wd : BitVec 5) (we : BitVec 1) (q : BitVec 2)
    (σ : State) : Host.Outcome State Fault Refusal :=
  .next (slotRun (vBinary 4 (vFmt q) (vRound (vFmt q) Real.mul) om os ts wd we) σ)

/-- `vfma`, at t + 4 (R336). -/
def execVfma (om : BitVec 2) (os : BitVec 7) (ts : BitVec 7) (wd : BitVec 5) (we : BitVec 1) (q : BitVec 2)
    (σ : State) : Host.Outcome State Fault Refusal :=
  .next (slotRun (vFused (vFmt q) (fun x y z => Real.add (Real.mul x y) z) om os ts wd we) σ)

/-- `vfms`, at t + 4 (R336). -/
def execVfms (om : BitVec 2) (os : BitVec 7) (ts : BitVec 7) (wd : BitVec 5) (we : BitVec 1) (q : BitVec 2)
    (σ : State) : Host.Outcome State Fault Refusal :=
  .next (slotRun (vFused (vFmt q) (fun x y z => Real.add (Real.mul x y) z.neg) om os ts wd we) σ)

/-- `vfnma`, at t + 4 (R336). -/
def execVfnma (om : BitVec 2) (os : BitVec 7) (ts : BitVec 7) (wd : BitVec 5) (we : BitVec 1) (q : BitVec 2)
    (σ : State) : Host.Outcome State Fault Refusal :=
  .next (slotRun (vFused (vFmt q) (fun x y z => Real.add z (Real.mul x y).neg) om os ts wd we) σ)

/-- `vmin`, at t + 4 (R336). -/
def execVmin (om : BitVec 2) (os : BitVec 7) (ts : BitVec 7) (wd : BitVec 5) (we : BitVec 1) (q : BitVec 2)
    (σ : State) : Host.Outcome State Fault Refusal :=
  .next (slotRun (vBinary 4 (vFmt q) (pickElem (vFmt q) false) om os ts wd we) σ)

/-- `vmax`, at t + 4 (R336). -/
def execVmax (om : BitVec 2) (os : BitVec 7) (ts : BitVec 7) (wd : BitVec 5) (we : BitVec 1) (q : BitVec 2)
    (σ : State) : Host.Outcome State Fault Refusal :=
  .next (slotRun (vBinary 4 (vFmt q) (pickElem (vFmt q) true) om os ts wd we) σ)

/-- `vabs`, at t + 4 (R336). -/
def execVabs (ts : BitVec 7) (wd : BitVec 5) (we : BitVec 1) (q : BitVec 2)
    (σ : State) : Host.Outcome State Fault Refusal :=
  .next (slotRun (vUnary 4 (vFmt q) (vAbsElem (vFmt q)) ts wd we) σ)

/-- `vneg`, at t + 4 (R336). -/
def execVneg (ts : BitVec 7) (wd : BitVec 5) (we : BitVec 1) (q : BitVec 2)
    (σ : State) : Host.Outcome State Fault Refusal :=
  .next (slotRun (vUnary 4 (vFmt q) (vNegElem (vFmt q)) ts wd we) σ)

/-- `vsel`, at t + 4 (R338). -/
def execVsel (om : BitVec 2) (os : BitVec 7) (ts : BitVec 7) (wd : BitVec 5) (we : BitVec 1) (q : BitVec 2)
    (σ : State) : Host.Outcome State Fault Refusal :=
  .next (slotRun (vSelect (vFmt q) om os ts wd we) σ)

/-- `vround`, at t + 4 (R339). -/
def execVround (om : BitVec 2) (os : BitVec 7) (ts : BitVec 7) (wd : BitVec 5) (we : BitVec 1) (q : BitVec 2)
    (σ : State) : Host.Outcome State Fault Refusal :=
  .next (slotRun (vModed (vFmt q) (vRoundElem (vFmt q)) om os ts wd we) σ)

/-- `vscale`, at t + 4 (R339). -/
def execVscale (om : BitVec 2) (os : BitVec 7) (ts : BitVec 7) (wd : BitVec 5) (we : BitVec 1) (q : BitVec 2)
    (σ : State) : Host.Outcome State Fault Refusal :=
  .next (slotRun (vModed (vFmt q) (vScaleElem (vFmt q)) om os ts wd we) σ)

/-- `vcmp.eq`, at t + 4 (R337). -/
def execVcmpEq (om : BitVec 2) (os : BitVec 7) (ts : BitVec 7) (wd : BitVec 3) (we : BitVec 1) (q : BitVec 2)
    (σ : State) : Host.Outcome State Fault Refusal :=
  .next (slotRun (vCompare .eq (vFmt q) om os ts wd we) σ)

/-- `vcmp.ne`, at t + 4 (R337). -/
def execVcmpNe (om : BitVec 2) (os : BitVec 7) (ts : BitVec 7) (wd : BitVec 3) (we : BitVec 1) (q : BitVec 2)
    (σ : State) : Host.Outcome State Fault Refusal :=
  .next (slotRun (vCompare .ne (vFmt q) om os ts wd we) σ)

/-- `vcmp.lt`, at t + 4 (R337). -/
def execVcmpLt (om : BitVec 2) (os : BitVec 7) (ts : BitVec 7) (wd : BitVec 3) (we : BitVec 1) (q : BitVec 2)
    (σ : State) : Host.Outcome State Fault Refusal :=
  .next (slotRun (vCompare .lt (vFmt q) om os ts wd we) σ)

/-- `vcmp.le`, at t + 4 (R337). -/
def execVcmpLe (om : BitVec 2) (os : BitVec 7) (ts : BitVec 7) (wd : BitVec 3) (we : BitVec 1) (q : BitVec 2)
    (σ : State) : Host.Outcome State Fault Refusal :=
  .next (slotRun (vCompare .le (vFmt q) om os ts wd we) σ)

/-- `vadd.i`, at t + 2 (R340). -/
def execVaddI (om : BitVec 2) (os : BitVec 7) (ts : BitVec 7) (wd : BitVec 5) (we : BitVec 1) (q : BitVec 2)
    (σ : State) : Host.Outcome State Fault Refusal :=
  .next (slotRun (vBinary 2 (vInt q) (vSigned (vInt q).bits fun x y => x + y) om os ts wd we) σ)

/-- `vsub.i`, at t + 2 (R340). -/
def execVsubI (om : BitVec 2) (os : BitVec 7) (ts : BitVec 7) (wd : BitVec 5) (we : BitVec 1) (q : BitVec 2)
    (σ : State) : Host.Outcome State Fault Refusal :=
  .next (slotRun (vBinary 2 (vInt q) (vSigned (vInt q).bits fun x y => x - y) om os ts wd we) σ)

/-- `vmul.i`, at t + 2 (R340). -/
def execVmulI (om : BitVec 2) (os : BitVec 7) (ts : BitVec 7) (wd : BitVec 5) (we : BitVec 1) (q : BitVec 2)
    (σ : State) : Host.Outcome State Fault Refusal :=
  .next (slotRun (vBinary 2 (vInt q) (vSigned (vInt q).bits fun x y => x * y) om os ts wd we) σ)

/-- `vmulh.i`, at t + 2 (R340). -/
def execVmulhI (om : BitVec 2) (os : BitVec 7) (ts : BitVec 7) (wd : BitVec 5) (we : BitVec 1) (q : BitVec 2)
    (σ : State) : Host.Outcome State Fault Refusal :=
  .next (slotRun (vBinary 2 (vInt q)
    (vSigned (vInt q).bits fun x y => x * y / 2 ^ (vInt q).bits) om os ts wd we) σ)

/-- `vand`, at t + 2 (R340). -/
def execVand (om : BitVec 2) (os : BitVec 7) (ts : BitVec 7) (wd : BitVec 5) (we : BitVec 1)
    (σ : State) : Host.Outcome State Fault Refusal :=
  .next (slotRun (vLogic (fun x y => x &&& y) om os ts wd we) σ)

/-- `vor`, at t + 2 (R340). -/
def execVor (om : BitVec 2) (os : BitVec 7) (ts : BitVec 7) (wd : BitVec 5) (we : BitVec 1)
    (σ : State) : Host.Outcome State Fault Refusal :=
  .next (slotRun (vLogic (fun x y => x ||| y) om os ts wd we) σ)

/-- `vxor`, at t + 2 (R340). -/
def execVxor (om : BitVec 2) (os : BitVec 7) (ts : BitVec 7) (wd : BitVec 5) (we : BitVec 1)
    (σ : State) : Host.Outcome State Fault Refusal :=
  .next (slotRun (vLogic (fun x y => x ^^^ y) om os ts wd we) σ)

/-- `vshl`, at t + 2 (R340). -/
def execVshl (om : BitVec 2) (os : BitVec 7) (ts : BitVec 7) (wd : BitVec 5) (we : BitVec 1) (q : BitVec 2)
    (σ : State) : Host.Outcome State Fault Refusal :=
  .next (slotRun (vBinary 2 (vInt q)
    (fun x y => x * 2 ^ (y % (vInt q).bits) % 2 ^ (vInt q).bits) om os ts wd we) σ)

/-- `vshr`, at t + 2 (R340). -/
def execVshr (om : BitVec 2) (os : BitVec 7) (ts : BitVec 7) (wd : BitVec 5) (we : BitVec 1) (q : BitVec 2)
    (σ : State) : Host.Outcome State Fault Refusal :=
  .next (slotRun (vBinary 2 (vInt q) (fun x y => x / 2 ^ (y % (vInt q).bits)) om os ts wd we) σ)

/-- `vsra`, at t + 2 (R340). -/
def execVsra (om : BitVec 2) (os : BitVec 7) (ts : BitVec 7) (wd : BitVec 5) (we : BitVec 1) (q : BitVec 2)
    (σ : State) : Host.Outcome State Fault Refusal :=
  .next (slotRun (vBinary 2 (vInt q)
    (fun x y => wrap (vInt q).bits (sx (vInt q).bits x / 2 ^ (y % (vInt q).bits))) om os ts wd we) σ)

/-- `vmin.i`, at t + 2 (R340). -/
def execVminI (om : BitVec 2) (os : BitVec 7) (ts : BitVec 7) (wd : BitVec 5) (we : BitVec 1) (q : BitVec 2)
    (σ : State) : Host.Outcome State Fault Refusal :=
  .next (slotRun (vBinary 2 (vInt q) (vSigned (vInt q).bits min) om os ts wd we) σ)

/-- `vmax.i`, at t + 2 (R340). -/
def execVmaxI (om : BitVec 2) (os : BitVec 7) (ts : BitVec 7) (wd : BitVec 5) (we : BitVec 1) (q : BitVec 2)
    (σ : State) : Host.Outcome State Fault Refusal :=
  .next (slotRun (vBinary 2 (vInt q) (vSigned (vInt q).bits max) om os ts wd we) σ)

/-- `vabs.i`, at t + 2 (R340). -/
def execVabsI (ts : BitVec 7) (wd : BitVec 5) (we : BitVec 1) (q : BitVec 2)
    (σ : State) : Host.Outcome State Fault Refusal :=
  .next (slotRun (vUnary 2 (vInt q)
    (fun x => wrap (vInt q).bits (sx (vInt q).bits x).natAbs) ts wd we) σ)

/-- `vcvt`, at t + 4 (R341, R342). -/
def execVcvt (om : BitVec 2) (os : BitVec 7) (ts : BitVec 7) (wd : BitVec 5) (we : BitVec 1)
    (σ : State) : Host.Outcome State Fault Refusal :=
  .next (slotRun (vcvtPlan om os ts wd we) σ)

/-- `vrq`, at t + 4 (R343). -/
def execVrq (om : BitVec 2) (os : BitVec 7) (ts : BitVec 7) (wd : BitVec 5) (we : BitVec 1)
    (σ : State) : Host.Outcome State Fault Refusal :=
  .next (slotRun (vrqPlan om os ts wd we) σ)

/-- `vexp2`, at t + 8 (R344). -/
def execVexp2 (ts : BitVec 7) (wd : BitVec 5) (we : BitVec 1) (q : BitVec 2)
    (σ : State) : Host.Outcome State Fault Refusal :=
  .next (slotRun (vUnary 8 (vFmt q) (fun x => fnExp2 (vFmt q) (floatValue (vFmt q) x)) ts wd we) σ)

/-- `vlog2`, at t + 8 (R344). -/
def execVlog2 (ts : BitVec 7) (wd : BitVec 5) (we : BitVec 1) (q : BitVec 2)
    (σ : State) : Host.Outcome State Fault Refusal :=
  .next (slotRun (vUnary 8 (vFmt q) (fun x => fnLog2 (vFmt q) (floatValue (vFmt q) x)) ts wd we) σ)

/-- `vrcp`, at t + 8 (R344). -/
def execVrcp (ts : BitVec 7) (wd : BitVec 5) (we : BitVec 1) (q : BitVec 2)
    (σ : State) : Host.Outcome State Fault Refusal :=
  .next (slotRun (vUnary 8 (vFmt q) (fun x => fnRcp (vFmt q) (floatValue (vFmt q) x)) ts wd we) σ)

/-- `vrsqrt`, at t + 8 (R344). -/
def execVrsqrt (ts : BitVec 7) (wd : BitVec 5) (we : BitVec 1) (q : BitVec 2)
    (σ : State) : Host.Outcome State Fault Refusal :=
  .next (slotRun (vUnary 8 (vFmt q) (fun x => fnRsqrt (vFmt q) (floatValue (vFmt q) x)) ts wd we) σ)

/-- `vsigm`, at t + 8 (R344). -/
def execVsigm (ts : BitVec 7) (wd : BitVec 5) (we : BitVec 1) (q : BitVec 2)
    (σ : State) : Host.Outcome State Fault Refusal :=
  .next (slotRun (vUnary 8 (vFmt q) (fun x => fnSigm (vFmt q) (floatValue (vFmt q) x)) ts wd we) σ)

/-- `vtanh`, at t + 8 (R344). -/
def execVtanh (ts : BitVec 7) (wd : BitVec 5) (we : BitVec 1) (q : BitVec 2)
    (σ : State) : Host.Outcome State Fault Refusal :=
  .next (slotRun (vUnary 8 (vFmt q) (fun x => fnTanh (vFmt q) (floatValue (vFmt q) x)) ts wd we) σ)

/-- `vmov`, at t + 2 (R345). -/
def execVmov (ts : BitVec 7) (wd : BitVec 5) (we : BitVec 1) (q : BitVec 2)
    (σ : State) : Host.Outcome State Fault Refusal :=
  .next (slotRun (vmovPlan (moveBits q) ts wd we) σ)

/-- `vbc`, at t + 2 (R345). -/
def execVbc (om : BitVec 2) (os : BitVec 7) (ts : BitVec 7) (wd : BitVec 5) (we : BitVec 1) (q : BitVec 2)
    (σ : State) : Host.Outcome State Fault Refusal :=
  .next (slotRun (vbcPlan (moveBits q) om os ts wd we) σ)

/-- `vperm`, at t + 3 (R345). -/
def execVperm (om : BitVec 2) (os : BitVec 7) (ts : BitVec 7) (wd : BitVec 5) (we : BitVec 1) (q : BitVec 2)
    (σ : State) : Host.Outcome State Fault Refusal :=
  .next (slotRun (vpermPlan (moveBits q) om os ts wd we) σ)

/-- `vshuf`, at t + 3 (R345). -/
def execVshuf (om : BitVec 2) (os : BitVec 7) (ts : BitVec 7) (wd : BitVec 5) (we : BitVec 1) (q : BitVec 2)
    (σ : State) : Host.Outcome State Fault Refusal :=
  .next (slotRun (vshufPlan (moveBits q) om os ts wd we) σ)

/-- `vred.add`, at t + 6 (R346). -/
def execVredAdd (ts : BitVec 7) (wd : BitVec 5) (we : BitVec 1) (q : BitVec 2)
    (σ : State) : Host.Outcome State Fault Refusal :=
  .next (slotRun (vReduce (vFmt q)
    (fun xs => rne (vFmt q) (sumReals (xs.map (floatValue (vFmt q))))) ts wd we) σ)

/-- `vred.max`, at t + 6 (R346). -/
def execVredMax (ts : BitVec 7) (wd : BitVec 5) (we : BitVec 1) (q : BitVec 2)
    (σ : State) : Host.Outcome State Fault Refusal :=
  .next (slotRun (vReduce (vFmt q) (largest (vFmt q)) ts wd we) σ)

/-- `vld`, at t + 8 (R347, R348). -/
def execVld (k : BitVec 4) (ts : BitVec 7) (wd : BitVec 5) (we : BitVec 1)
    (σ : State) : Host.Outcome State Fault Refusal :=
  .next (slotRun (vldPlan k ts wd we) σ)

/-- `vst` (R347, R348). -/
def execVst (k : BitVec 4) (ts : BitVec 7) (wd : BitVec 5) (σ : State) : Host.Outcome State Fault Refusal :=
  .next (slotRun (vstPlan k ts wd) σ)

/-- `vacc.rd`, at t + 6 (R349). -/
def execVaccRd (om : BitVec 2) (os : BitVec 7) (ts : BitVec 7) (wd : BitVec 5) (we : BitVec 1)
    (σ : State) : Host.Outcome State Fault Refusal :=
  .next (slotRun (vaccRdPlan om os ts wd we) σ)

/-- `vacc.wr` (R349). -/
def execVaccWr (om : BitVec 2) (os : BitVec 7) (ts : BitVec 7) (wd : BitVec 5)
    (σ : State) : Host.Outcome State Fault Refusal :=
  .next (slotRun (vaccWrPlan om os ts wd) σ)

/-- `vmrow`, at t + 2 (R351). -/
def execVmrow (wd : BitVec 5) (we : BitVec 1) (σ : State) : Host.Outcome State Fault Refusal :=
  .next (slotRun (vmrowPlan wd we) σ)

/-- `vmand`, at t + 2 (R352). -/
def execVmand (b : BitVec 3) (a : BitVec 3) (wd : BitVec 3) (we : BitVec 1)
    (σ : State) : Host.Outcome State Fault Refusal :=
  .next (slotRun (maskPlan (fun x y => x &&& y) a b wd we) σ)

/-- `vmor`, at t + 2 (R352). -/
def execVmor (b : BitVec 3) (a : BitVec 3) (wd : BitVec 3) (we : BitVec 1)
    (σ : State) : Host.Outcome State Fault Refusal :=
  .next (slotRun (maskPlan (fun x y => x ||| y) a b wd we) σ)

/-- `vmnot`, at t + 2 (R352). -/
def execVmnot (a : BitVec 3) (wd : BitVec 3) (we : BitVec 1) (σ : State) : Host.Outcome State Fault Refusal :=
  .next (slotRun (maskPlan (fun x _ => ~~~x) a 0 wd we) σ)

/-- `vmcnt`, at t + 2 (R352). -/
def execVmcnt (wd : BitVec 5) (we : BitVec 1) (σ : State) : Host.Outcome State Fault Refusal :=
  .next (slotRun (vmcntPlan wd we) σ)

end Sys2Proof.Machine
end

