-- ==== Sys2Proof/Machine/Dispatch.lean ====
section
/-! DEFINITION. What each instruction does: one arm per constructor of Instr, each a direct call of its meaning. -/

namespace Sys2Proof.Machine

def exec (i : Instr) (s : State) : Host.Outcome State Fault Refusal :=
  match i with
  | .add om os ts wd we => Sys2Proof.Machine.execAdd om os ts wd we s
  | .sub om os ts wd we => Sys2Proof.Machine.execSub om os ts wd we s
  | .and om os ts wd we => Sys2Proof.Machine.execAnd om os ts wd we s
  | .or om os ts wd we => Sys2Proof.Machine.execOr om os ts wd we s
  | .xor om os ts wd we => Sys2Proof.Machine.execXor om os ts wd we s
  | .andn om os ts wd we => Sys2Proof.Machine.execAndn om os ts wd we s
  | .orn om os ts wd we => Sys2Proof.Machine.execOrn om os ts wd we s
  | .shl om os ts wd we => Sys2Proof.Machine.execShl om os ts wd we s
  | .shr om os ts wd we => Sys2Proof.Machine.execShr om os ts wd we s
  | .sra om os ts wd we => Sys2Proof.Machine.execSra om os ts wd we s
  | .rotl om os ts wd we => Sys2Proof.Machine.execRotl om os ts wd we s
  | .min om os ts wd we => Sys2Proof.Machine.execMin om os ts wd we s
  | .max om os ts wd we => Sys2Proof.Machine.execMax om os ts wd we s
  | .minu om os ts wd we => Sys2Proof.Machine.execMinu om os ts wd we s
  | .maxu om os ts wd we => Sys2Proof.Machine.execMaxu om os ts wd we s
  | .seq om os ts wd we => Sys2Proof.Machine.execSeq om os ts wd we s
  | .sne om os ts wd we => Sys2Proof.Machine.execSne om os ts wd we s
  | .slt om os ts wd we => Sys2Proof.Machine.execSlt om os ts wd we s
  | .sltu om os ts wd we => Sys2Proof.Machine.execSltu om os ts wd we s
  | .sle om os ts wd we => Sys2Proof.Machine.execSle om os ts wd we s
  | .sleu om os ts wd we => Sys2Proof.Machine.execSleu om os ts wd we s
  | .pset om os ts wd we => Sys2Proof.Machine.execPset om os ts wd we s
  | .pand b a wd we => Sys2Proof.Machine.execPand b a wd we s
  | .por b a wd we => Sys2Proof.Machine.execPor b a wd we s
  | .pxor b a wd we => Sys2Proof.Machine.execPxor b a wd we s
  | .sel om os ts wd we => Sys2Proof.Machine.execSel om os ts wd we s
  | .clz ts wd we => Sys2Proof.Machine.execClz ts wd we s
  | .ctz ts wd we => Sys2Proof.Machine.execCtz ts wd we s
  | .popc ts wd we => Sys2Proof.Machine.execPopc ts wd we s
  | .sext ts wd we q => Sys2Proof.Machine.execSext ts wd we q s
  | .zext ts wd we q => Sys2Proof.Machine.execZext ts wd we q s
  | .bext om os ts wd we => Sys2Proof.Machine.execBext om os ts wd we s
  | .bins om os ts wd => Sys2Proof.Machine.execBins om os ts wd s
  | .lea om os ts wd we q => Sys2Proof.Machine.execLea om os ts wd we q s
  | .wfield om os ts wd we => Sys2Proof.Machine.execWfield om os ts wd we s
  | .mul om os ts wd we => Sys2Proof.Machine.execMul om os ts wd we s
  | .mulh om os ts wd we => Sys2Proof.Machine.execMulh om os ts wd we s
  | .mulhu om os ts wd we => Sys2Proof.Machine.execMulhu om os ts wd we s
  | .div om os ts wd we => Sys2Proof.Machine.execDiv om os ts wd we s
  | .divu om os ts wd we => Sys2Proof.Machine.execDivu om os ts wd we s
  | .rem om os ts wd we => Sys2Proof.Machine.execRem om os ts wd we s
  | .remu om os ts wd we => Sys2Proof.Machine.execRemu om os ts wd we s
  | .ld om os ts wd we q => Sys2Proof.Machine.execLd om os ts wd we q s
  | .ldu om os ts wd we q => Sys2Proof.Machine.execLdu om os ts wd we q s
  | .st om os ts wd q => Sys2Proof.Machine.execSt om os ts wd q s
  | .ldG om os ts wd we q => Sys2Proof.Machine.execLdG om os ts wd we q s
  | .stG om os ts wd q => Sys2Proof.Machine.execStG om os ts wd q s
  | .ldE om os ts wd we q => Sys2Proof.Machine.execLdE om os ts wd we q s
  | .stE om os ts wd q => Sys2Proof.Machine.execStE om os ts wd q s
  | .pref om os ts => Sys2Proof.Machine.execPref om os ts s
  | .amoAdd om os ts wd we q => Sys2Proof.Machine.execAmoAdd om os ts wd we q s
  | .amoAnd om os ts wd we q => Sys2Proof.Machine.execAmoAnd om os ts wd we q s
  | .amoOr om os ts wd we q => Sys2Proof.Machine.execAmoOr om os ts wd we q s
  | .amoXor om os ts wd we q => Sys2Proof.Machine.execAmoXor om os ts wd we q s
  | .amoMin om os ts wd we q => Sys2Proof.Machine.execAmoMin om os ts wd we q s
  | .amoMax om os ts wd we q => Sys2Proof.Machine.execAmoMax om os ts wd we q s
  | .amoMinu om os ts wd we q => Sys2Proof.Machine.execAmoMinu om os ts wd we q s
  | .amoMaxu om os ts wd we q => Sys2Proof.Machine.execAmoMaxu om os ts wd we q s
  | .amoSwap om os ts wd we q => Sys2Proof.Machine.execAmoSwap om os ts wd we q s
  | .amoCas om os ts wd we q => Sys2Proof.Machine.execAmoCas om os ts wd we q s
  | .amoFadd om os ts wd we q => Sys2Proof.Machine.execAmoFadd om os ts wd we q s
  | .qbind om os ts n => Sys2Proof.Machine.execQbind om os ts n s
  | .enq n ts => Sys2Proof.Machine.execEnq n ts s
  | .enqS n ts => Sys2Proof.Machine.execEnqS n ts s
  | .enqT n ts wd we => Sys2Proof.Machine.execEnqT n ts wd we s
  | .deq n ts wd we => Sys2Proof.Machine.execDeq n ts wd we s
  | .deqS n wd we => Sys2Proof.Machine.execDeqS n wd we s
  | .deqT n ts wd we => Sys2Proof.Machine.execDeqT n ts wd we s
  | .qpeek n ts wd we => Sys2Proof.Machine.execQpeek n ts wd we s
  | .qstat n wd we => Sys2Proof.Machine.execQstat n wd we s
  | .qdrain n => Sys2Proof.Machine.execQdrain n s
  | .j om os => Sys2Proof.Machine.execJ om os s
  | .jr ts => Sys2Proof.Machine.execJr ts s
  | .call om os wd we => Sys2Proof.Machine.execCall om os wd we s
  | .callr ts wd we => Sys2Proof.Machine.execCallr ts wd we s
  | .ret ts => Sys2Proof.Machine.execRet ts s
  | .br om os ts q => Sys2Proof.Machine.execBr om os ts q s
  | .loop k => Sys2Proof.Machine.execLoop k s
  | .trap om os => Sys2Proof.Machine.execTrap om os s
  | .fenceInstruction k c => Sys2Proof.Machine.execFenceInstruction k c s
  | .cleanR om os ts => Sys2Proof.Machine.execCleanR om os ts s
  | .invalR om os ts => Sys2Proof.Machine.execInvalR om os ts s
  | .flushR om os ts => Sys2Proof.Machine.execFlushR om os ts s
  | .publish om os ts => Sys2Proof.Machine.execPublish om os ts s
  | .rdcw om os wd we => Sys2Proof.Machine.execRdcw om os wd we s
  | .wrcw om os ts => Sys2Proof.Machine.execWrcw om os ts s
  | .nestSet om os ts k => Sys2Proof.Machine.execNestSet om os ts k s
  | .nestDim om os ts k => Sys2Proof.Machine.execNestDim om os ts k s
  | .nestBlk om os ts k => Sys2Proof.Machine.execNestBlk om os ts k s
  | .bwInit om os ts => Sys2Proof.Machine.execBwInit om os ts s
  | .bwWait om os ts wd we => Sys2Proof.Machine.execBwWait om os ts wd we s
  | .ctxPark om os ts => Sys2Proof.Machine.execCtxPark om os ts s
  | .vadd om os ts wd we q => Sys2Proof.Machine.execVadd om os ts wd we q s
  | .vsub om os ts wd we q => Sys2Proof.Machine.execVsub om os ts wd we q s
  | .vmul om os ts wd we q => Sys2Proof.Machine.execVmul om os ts wd we q s
  | .vfma om os ts wd we q => Sys2Proof.Machine.execVfma om os ts wd we q s
  | .vfms om os ts wd we q => Sys2Proof.Machine.execVfms om os ts wd we q s
  | .vfnma om os ts wd we q => Sys2Proof.Machine.execVfnma om os ts wd we q s
  | .vmin om os ts wd we q => Sys2Proof.Machine.execVmin om os ts wd we q s
  | .vmax om os ts wd we q => Sys2Proof.Machine.execVmax om os ts wd we q s
  | .vabs ts wd we q => Sys2Proof.Machine.execVabs ts wd we q s
  | .vneg ts wd we q => Sys2Proof.Machine.execVneg ts wd we q s
  | .vsel om os ts wd we q => Sys2Proof.Machine.execVsel om os ts wd we q s
  | .vround om os ts wd we q => Sys2Proof.Machine.execVround om os ts wd we q s
  | .vscale om os ts wd we q => Sys2Proof.Machine.execVscale om os ts wd we q s
  | .vcmpEq om os ts wd we q => Sys2Proof.Machine.execVcmpEq om os ts wd we q s
  | .vcmpNe om os ts wd we q => Sys2Proof.Machine.execVcmpNe om os ts wd we q s
  | .vcmpLt om os ts wd we q => Sys2Proof.Machine.execVcmpLt om os ts wd we q s
  | .vcmpLe om os ts wd we q => Sys2Proof.Machine.execVcmpLe om os ts wd we q s
  | .vaddI om os ts wd we q => Sys2Proof.Machine.execVaddI om os ts wd we q s
  | .vsubI om os ts wd we q => Sys2Proof.Machine.execVsubI om os ts wd we q s
  | .vmulI om os ts wd we q => Sys2Proof.Machine.execVmulI om os ts wd we q s
  | .vmulhI om os ts wd we q => Sys2Proof.Machine.execVmulhI om os ts wd we q s
  | .vand om os ts wd we => Sys2Proof.Machine.execVand om os ts wd we s
  | .vor om os ts wd we => Sys2Proof.Machine.execVor om os ts wd we s
  | .vxor om os ts wd we => Sys2Proof.Machine.execVxor om os ts wd we s
  | .vshl om os ts wd we q => Sys2Proof.Machine.execVshl om os ts wd we q s
  | .vshr om os ts wd we q => Sys2Proof.Machine.execVshr om os ts wd we q s
  | .vsra om os ts wd we q => Sys2Proof.Machine.execVsra om os ts wd we q s
  | .vminI om os ts wd we q => Sys2Proof.Machine.execVminI om os ts wd we q s
  | .vmaxI om os ts wd we q => Sys2Proof.Machine.execVmaxI om os ts wd we q s
  | .vabsI ts wd we q => Sys2Proof.Machine.execVabsI ts wd we q s
  | .vcvt om os ts wd we => Sys2Proof.Machine.execVcvt om os ts wd we s
  | .vrq om os ts wd we => Sys2Proof.Machine.execVrq om os ts wd we s
  | .vexp2 ts wd we q => Sys2Proof.Machine.execVexp2 ts wd we q s
  | .vlog2 ts wd we q => Sys2Proof.Machine.execVlog2 ts wd we q s
  | .vrcp ts wd we q => Sys2Proof.Machine.execVrcp ts wd we q s
  | .vrsqrt ts wd we q => Sys2Proof.Machine.execVrsqrt ts wd we q s
  | .vsigm ts wd we q => Sys2Proof.Machine.execVsigm ts wd we q s
  | .vtanh ts wd we q => Sys2Proof.Machine.execVtanh ts wd we q s
  | .vmov ts wd we q => Sys2Proof.Machine.execVmov ts wd we q s
  | .vbc om os ts wd we q => Sys2Proof.Machine.execVbc om os ts wd we q s
  | .vperm om os ts wd we q => Sys2Proof.Machine.execVperm om os ts wd we q s
  | .vshuf om os ts wd we q => Sys2Proof.Machine.execVshuf om os ts wd we q s
  | .vredAdd ts wd we q => Sys2Proof.Machine.execVredAdd ts wd we q s
  | .vredMax ts wd we q => Sys2Proof.Machine.execVredMax ts wd we q s
  | .vld k ts wd we => Sys2Proof.Machine.execVld k ts wd we s
  | .vst k ts wd => Sys2Proof.Machine.execVst k ts wd s
  | .vaccRd om os ts wd we => Sys2Proof.Machine.execVaccRd om os ts wd we s
  | .vaccWr om os ts wd => Sys2Proof.Machine.execVaccWr om os ts wd s
  | .vmrow wd we => Sys2Proof.Machine.execVmrow wd we s
  | .vmand b a wd we => Sys2Proof.Machine.execVmand b a wd we s
  | .vmor b a wd we => Sys2Proof.Machine.execVmor b a wd we s
  | .vmnot a wd we => Sys2Proof.Machine.execVmnot a wd we s
  | .vmcnt wd we => Sys2Proof.Machine.execVmcnt wd we s
  | .mwld ts b k => Sys2Proof.Machine.execMwld ts b k s
  | .mwldB ts b k => Sys2Proof.Machine.execMwldB ts b k s
  | .mswap x => Sys2Proof.Machine.execMswap x s
  | .mrun ts f a w p => Sys2Proof.Machine.execMrun ts f a w p s
  | .mrunF ts f a w p => Sys2Proof.Machine.execMrunF ts f a w p s
  | .mzero u => Sys2Proof.Machine.execMzero u s
  | .mcal b => Sys2Proof.Machine.execMcal b s
  | .mclip ts => Sys2Proof.Machine.execMclip ts s
  | .mmode g => Sys2Proof.Machine.execMmode g s
  | .mbound ts => Sys2Proof.Machine.execMbound ts s
  | .mboundSet om os ts => Sys2Proof.Machine.execMboundSet om os ts s
  | .cp om os ts y z => Sys2Proof.Machine.execCp om os ts y z s
  | .cpSh om os ts y z => Sys2Proof.Machine.execCpSh om os ts y z s
  | .cpRed om os ts y z => Sys2Proof.Machine.execCpRed om os ts y z s
  | .cpG om os ts y z => Sys2Proof.Machine.execCpG om os ts y z s
  | .cpS om os ts y z => Sys2Proof.Machine.execCpS om os ts y z s
  | .bk om os ts y z => Sys2Proof.Machine.execBk om os ts y z s
  | .bkRed om os ts y z => Sys2Proof.Machine.execBkRed om os ts y z s
  | .cpQ ts n => Sys2Proof.Machine.execCpQ ts n s
  | .cpFence b => Sys2Proof.Machine.execCpFence b s
  | .cpStat ts => Sys2Proof.Machine.execCpStat ts s
  | .cpQuiesce ts => Sys2Proof.Machine.execCpQuiesce ts s
  | .cpAbort ts => Sys2Proof.Machine.execCpAbort ts s
  | .cpPub om os ts => Sys2Proof.Machine.execCpPub om os ts s
  | .powerEstimate draw => Sys2Proof.Machine.execPowerEstimate draw s
  | .operatingPointChangeDone island => Sys2Proof.Machine.execOperatingPointChangeDone island s
  | .sensorSample readings => Sys2Proof.Machine.execSensorSample readings s
  | .verticalBusRetrainDone col => Sys2Proof.Machine.execVerticalBusRetrainDone col s
  | .invalAckTimeout seq => Sys2Proof.Machine.execInvalAckTimeout seq s
  | .preemptDeadline seq => Sys2Proof.Machine.execPreemptDeadline seq s
  | .snoopTimeout line => Sys2Proof.Machine.execSnoopTimeout line s
  | .bindAckTimeout seq => Sys2Proof.Machine.execBindAckTimeout seq s
  | .scrubComplete part => Sys2Proof.Machine.execScrubComplete part s
  | .debugHoldTakesEffect core bank => Sys2Proof.Machine.execDebugHoldTakesEffect core bank s
  | .packetFetch q => Sys2Proof.Machine.execPacketFetch q s
  | .fetchRetry q => Sys2Proof.Machine.execFetchRetry q s
  | .stalledProducerTimeout q => Sys2Proof.Machine.execStalledProducerTimeout q s
  | .launch q => Sys2Proof.Machine.execLaunch q s
  | .launchInd q => Sys2Proof.Machine.execLaunchInd q s
  | .wait q => Sys2Proof.Machine.execWait q s
  | .waitRecheck q => Sys2Proof.Machine.execWaitRecheck q s
  | .waitLimit q => Sys2Proof.Machine.execWaitLimit q s
  | .signal q => Sys2Proof.Machine.execSignal q s
  | .loopBegin q => Sys2Proof.Machine.execLoopBegin q s
  | .loopEnd q => Sys2Proof.Machine.execLoopEnd q s
  | .cond q => Sys2Proof.Machine.execCond q s
  | .copy q => Sys2Proof.Machine.execCopy q s
  | .fence q => Sys2Proof.Machine.execFence q s
  | .graphRun q => Sys2Proof.Machine.execGraphRun q s
  | .graphNodeComplete g node code => Sys2Proof.Machine.execGraphNodeComplete g node code s
  | .calibrate q => Sys2Proof.Machine.execCalibrate q s
  | .biasFlip q => Sys2Proof.Machine.execBiasFlip q s
  | .granuleFlipDone gran => Sys2Proof.Machine.execGranuleFlipDone gran s
  | .summary q => Sys2Proof.Machine.execSummary q s
  | .qclear q => Sys2Proof.Machine.execQclear q s
  | .launchAdmission ix => Sys2Proof.Machine.execLaunchAdmission ix s
  | .policyWatchdog die => Sys2Proof.Machine.execPolicyWatchdog die s
  | .delegateRestartDone die => Sys2Proof.Machine.execDelegateRestartDone die s
  | .copyServiceComplete id => Sys2Proof.Machine.execCopyServiceComplete id s
  | .eventRecordPlaced part => Sys2Proof.Machine.execEventRecordPlaced part s
  | .queueOpAtHome core bank => Sys2Proof.Machine.execQueueOpAtHome core bank s
  | .qwaitLimit core bank => Sys2Proof.Machine.execQwaitLimit core bank s
  | .dispatch die => Sys2Proof.Machine.execDispatch die s
  | .stealRequest ix die => Sys2Proof.Machine.execStealRequest ix die s
  | .tideBarrierRelease ix => Sys2Proof.Machine.execTideBarrierRelease ix s
  | .ebbEnd ix => Sys2Proof.Machine.execEbbEnd ix s
  | .auditReplay ix ok => Sys2Proof.Machine.execAuditReplay ix ok s
  | .dependenceTest ix => Sys2Proof.Machine.execDependenceTest ix s
  | .extentTranslationRetry ix task => Sys2Proof.Machine.execExtentTranslationRetry ix task s
  | .extentTranslationTimeout ix task => Sys2Proof.Machine.execExtentTranslationTimeout ix task s
  | .preemption core bank => Sys2Proof.Machine.execPreemption core bank s
  | .drainDistanceLimit core bank => Sys2Proof.Machine.execDrainDistanceLimit core bank s
  | .taskResume die ix => Sys2Proof.Machine.execTaskResume die ix s
  | .quarantineTimeLimit ix => Sys2Proof.Machine.execQuarantineTimeLimit ix s
  | .barrierRelease core bank => Sys2Proof.Machine.execBarrierRelease core bank s
  | .barrierTimeLimit core bank => Sys2Proof.Machine.execBarrierTimeLimit core bank s
  | .freezeLimit core bank => Sys2Proof.Machine.execFreezeLimit core bank s
  | .landing core bank => Sys2Proof.Machine.execLanding core bank s
  | .passTriggerRelease core => Sys2Proof.Machine.execPassTriggerRelease core s
  | .passComplete core => Sys2Proof.Machine.execPassComplete core s
  | .weightLoadComplete core => Sys2Proof.Machine.execWeightLoadComplete core s
  | .calibrationComplete core => Sys2Proof.Machine.execCalibrationComplete core s
  | .copyCommandComplete core eng id => Sys2Proof.Machine.execCopyCommandComplete core eng id s
  | .trapEntry core bank => Sys2Proof.Machine.execTrapEntry core bank s
  | .ctxParkLimit core bank => Sys2Proof.Machine.execCtxParkLimit core bank s
  | .ctxParkWake core bank => Sys2Proof.Machine.execCtxParkWake core bank s
  | .translationParkLimit core bank => Sys2Proof.Machine.execTranslationParkLimit core bank s
  | .calibrationStaleTimer core wbank => Sys2Proof.Machine.execCalibrationStaleTimer core wbank s
  | .pageTableLineWrite line => Sys2Proof.Machine.execPageTableLineWrite line s
  | .publishPerformed core bank => Sys2Proof.Machine.execPublishPerformed core bank s
  | .swapChunkDone die => Sys2Proof.Machine.execSwapChunkDone die s
  | .layerPoweredOn col => Sys2Proof.Machine.execLayerPoweredOn col s
  | .deviceReset => Sys2Proof.Machine.execDeviceReset s
  | .socketLinkReset => Sys2Proof.Machine.execSocketLinkReset s
  | .helloTimeout => Sys2Proof.Machine.execHelloTimeout s
  | .preempt => Sys2Proof.Machine.execPreempt s
  | .resume => Sys2Proof.Machine.execResume s
  | .unbind => Sys2Proof.Machine.execUnbind s
  | .spdmResponseTimeout => Sys2Proof.Machine.execSpdmResponseTimeout s
  | .readSummaryIntoWindow => Sys2Proof.Machine.execReadSummaryIntoWindow s
  | .storeFirmwareImage => Sys2Proof.Machine.execStoreFirmwareImage s
  | .storeConfigurationRecord => Sys2Proof.Machine.execStoreConfigurationRecord s
  | .resetDevice => Sys2Proof.Machine.execResetDevice s
  | .appendStaging => Sys2Proof.Machine.execAppendStaging s
  | .emptyStagingBuffer => Sys2Proof.Machine.execEmptyStagingBuffer s
  | .recoveryStoreDone => Sys2Proof.Machine.execRecoveryStoreDone s
  | .quarantineLaunchStart => Sys2Proof.Machine.execQuarantineLaunchStart s
  | .ltsFloorRaise => Sys2Proof.Machine.execLtsFloorRaise s
  | .lexit => Sys2Proof.Machine.execLexit s
  | .taskNext => Sys2Proof.Machine.execTaskNext s
  | .taskDone => Sys2Proof.Machine.execTaskDone s
  | .tide => Sys2Proof.Machine.execTide s
  | .yield => Sys2Proof.Machine.execYield s
  | .eret => Sys2Proof.Machine.execEret s
  | .fenceE => Sys2Proof.Machine.execFenceE s
  | .halt => Sys2Proof.Machine.execHalt s
  | .mstat => Sys2Proof.Machine.execMstat s
  | .setEnvelope watts => Sys2Proof.Machine.execSetEnvelope watts s
  | .laneFailure col group => Sys2Proof.Machine.execLaneFailure col group s
  | .laneBundleFailure bnd => Sys2Proof.Machine.execLaneBundleFailure bnd s
  | .peerFlitCrcFail port => Sys2Proof.Machine.execPeerFlitCrcFail port s
  | .peerPortDown port => Sys2Proof.Machine.execPeerPortDown port s
  | .peerPortUp port => Sys2Proof.Machine.execPeerPortUp port s
  | .peerRequest port req => Sys2Proof.Machine.execPeerRequest port req s
  | .gsCtlEn on => Sys2Proof.Machine.execGsCtlEn on s
  | .gsStatDvClear wr => Sys2Proof.Machine.execGsStatDvClear wr s
  | .partnerDetect present => Sys2Proof.Machine.execPartnerDetect present s
  | .moduleTrained mods rate => Sys2Proof.Machine.execModuleTrained mods rate s
  | .moduleTrainingFail mods => Sys2Proof.Machine.execModuleTrainingFail mods s
  | .moduleReplayLimit mods => Sys2Proof.Machine.execModuleReplayLimit mods s
  | .guestSpdmComplete ok meas => Sys2Proof.Machine.execGuestSpdmComplete ok meas s
  | .hello pkt => Sys2Proof.Machine.execHello pkt s
  | .ack pkt => Sys2Proof.Machine.execAck pkt s
  | .fault pkt => Sys2Proof.Machine.execFault pkt s
  | .bind part => Sys2Proof.Machine.execBind part s
  | .guestCxlCacheRequest req => Sys2Proof.Machine.execGuestCxlCacheRequest req s
  | .guestSnoopResponse line data => Sys2Proof.Machine.execGuestSnoopResponse line data s
  | .guestTranslationRequest va acc => Sys2Proof.Machine.execGuestTranslationRequest va acc s
  | .guestQueueClaim q elem => Sys2Proof.Machine.execGuestQueueClaim q elem s
  | .partitionEntryWrite part field val => Sys2Proof.Machine.execPartitionEntryWrite part field val s
  | .partitionEnable part => Sys2Proof.Machine.execPartitionEnable part s
  | .partitionDelete part => Sys2Proof.Machine.execPartitionDelete part s
  | .lockInterface fn => Sys2Proof.Machine.execLockInterface fn s
  | .startInterface fn => Sys2Proof.Machine.execStartInterface fn s
  | .stopInterface fn => Sys2Proof.Machine.execStopInterface fn s
  | .functionLevelReset fn => Sys2Proof.Machine.execFunctionLevelReset fn s
  | .ideStreamFailure fn => Sys2Proof.Machine.execIdeStreamFailure fn s
  | .keyTableUncorrectable slot => Sys2Proof.Machine.execKeyTableUncorrectable slot s
  | .tenantKeyDelivery part key => Sys2Proof.Machine.execTenantKeyDelivery part key s
  | .getVersion fn => Sys2Proof.Machine.execGetVersion fn s
  | .getCapabilities fn => Sys2Proof.Machine.execGetCapabilities fn s
  | .negotiateAlgorithms fn => Sys2Proof.Machine.execNegotiateAlgorithms fn s
  | .getDigests fn => Sys2Proof.Machine.execGetDigests fn s
  | .getCertificate fn => Sys2Proof.Machine.execGetCertificate fn s
  | .challenge fn => Sys2Proof.Machine.execChallenge fn s
  | .getMeasurements fn block => Sys2Proof.Machine.execGetMeasurements fn block s
  | .keyExchange fn => Sys2Proof.Machine.execKeyExchange fn s
  | .finish fn ok => Sys2Proof.Machine.execFinish fn ok s
  | .endSession fn => Sys2Proof.Machine.execEndSession fn s
  | .debugPolicy part rec => Sys2Proof.Machine.execDebugPolicy part rec s
  | .haltRequest fn => Sys2Proof.Machine.execHaltRequest fn s
  | .haltRelease fn => Sys2Proof.Machine.execHaltRelease fn s
  | .hostCxlMemRequest req => Sys2Proof.Machine.execHostCxlMemRequest req s
  | .registerWrite fn off val => Sys2Proof.Machine.execRegisterWrite fn off val s
  | .enqAperture fn win elem len => Sys2Proof.Machine.execEnqAperture fn win elem len s
  | .claim fn win => Sys2Proof.Machine.execClaim fn win s
  | .release fn win n => Sys2Proof.Machine.execRelease fn win n s
  | .queueWindowBind fn win handle => Sys2Proof.Machine.execQueueWindowBind fn win handle s
  | .peerQueueClaim port cb elem => Sys2Proof.Machine.execPeerQueueClaim port cb elem s
  | .swapExchange die f1 f2 size => Sys2Proof.Machine.execSwapExchange die f1 f2 size s
  | .swapRelease die => Sys2Proof.Machine.execSwapRelease die s
  | .rowRemap col row => Sys2Proof.Machine.execRowRemap col row s
  | .layerPowerOn col => Sys2Proof.Machine.execLayerPowerOn col s
  | .layerPowerDown col => Sys2Proof.Machine.execLayerPowerDown col s

end Sys2Proof.Machine
end

