-- ==== Sys2Proof/Machine/Issue.lean ====
section
/-! DEFINITION. One cycle of a core's clock: landings, the checks and holds of the bundle that stands to issue, its
issue on the members of a quire, and the next bundle's address (R139, R148, R208 to R226, R264 to R266, R312 to R314,
R418). -/

namespace Sys2Proof.Machine

-- The header (R265, R266)

def hdrSync (b : Nat) : Nat := bits b 30 27
def hdrLoop (b : Nat) : Nat := bits b 26 25
def hdrLd (b : Nat) : Nat := bits b 24 17

/-- The opcode of slot word n of a bundle. -/
def slotOp (b n : Nat) : Nat := bits (packedBytes b (4 * n) 4) 31 25

/-- LOOP marks a body start. -/
def startsBody (b : Nat) : Bool := decide (hdrLoop b = 1) || decide (hdrLoop b = 3)

/-- LOOP marks a body end. -/
def endsBody (b : Nat) : Bool := decide (hdrLoop b = 2) || decide (hdrLoop b = 3)

/-- The opcode of a variable-latency form (R214). -/
def landingForm (op : Nat) : Bool :=
  decide (op = 0x2B) || decide (op = 0x2D) || (decide (0x30 ≤ op) && decide (op ≤ 0x3A)) ||
    (decide (0x43 ≤ op) && decide (op ≤ 0x47)) || decide (op = 0x6E)

/-- The opcode of a branch or call form (R311). -/
def branchForm (op : Nat) : Bool := decide (0x50 ≤ op) && decide (op ≤ 0x55)

/-- A `loop` has issued and not yet taken effect (R313). -/
def loopPending (c : Ctx) : Bool :=
  c.flights.any fun f => match f.eff with
    | .loopBind _ => true
    | .scalar _ _ _ _ => false
    | .pred _ _ => false
    | .vector _ _ _ _ _ _ => false
    | .mask _ _ _ _ _ => false
    | .control _ _ => false
    | .nestSet _ _ => false
    | .nestField _ _ _ _ => false
    | .accWrite _ _ _ _ _ _ _ => false
    | .unitsZero _ => false
    | .bankSwap _ => false
    | .boundSet _ _ _ => false
    | .timeSeen _ => false

/-- The LD field is illegal (R214); `window` says that a forwarding window is open. -/
def ldIllegal (b : Nat) (window : Bool) : Bool :=
  (decide (1 ≤ hdrLd b) && decide (hdrLd b ≤ 3)) || (decide (hdrLd b ≠ 0) && !landingForm (slotOp b 1)) ||
    (window && landingForm (slotOp b 1))

/-- The LOOP field and the loop checks of R221 fail for the bundle at an address. -/
def loopIllegal (c : Ctx) (pc b : Nat) : Bool :=
  let l := c.loop
  let again := l.isOpen && decide (l.len = 0) && decide (pc = l.start)
  (startsBody b && !again && (l.isOpen || !l.bound || loopPending c)) ||
    (decide (hdrLoop b = 2) && !l.isOpen) || (l.isOpen && decide (64 ≤ l.len)) ||
    (branchForm (slotOp b 1) && (l.isOpen || startsBody b))

/-- A reserved header bit, SYNC value, guard or mask is not as R266 asks. -/
def headerReserved (b : Nat) : Bool :=
  decide (bits b 3 0 ≠ 0) || decide (9 ≤ hdrSync b) || (decide (bits b 16 13 ≠ 0) && decide (slotOp b 1 = 0)) ||
    (decide (bits b 12 10 ≠ 0) && decide (slotOp b 2 = 0)) || (decide (bits b 9 7 ≠ 0) && decide (slotOp b 3 = 0))

/-- The first header check that fails (R226 step 1). -/
def headerFault (c : Ctx) (window : Bool) (pc b : Nat) : Option Nat :=
  if bits b 6 4 ≠ 5 then some 4
  else if headerReserved b then some 2
  else if ldIllegal b window then some 6
  else if loopIllegal c pc b then some 7
  else none

-- Fetch (R220, R222, R312)

/-- A fault of the bundle that stands to issue, found before its holds: cause, cw.tval, cw.epc, and whether the error
ring notes it. -/
structure FrontFault where
  cause : Nat
  tval : Option Nat
  epc : Nat
  logged : Bool := false
  deriving DecidableEq, Repr

/-- The bundle at an address with its header checked; `from_` is the branch that it is the target of (R222, R312). -/
def fetchChecked (w : Work) (core bank pc : Nat) (from_ : Option Branch) : Except FrontFault Nat :=
  let epc := (from_.map (·.pc)).getD pc
  if from_.isSome ∧ (pc % 32 ≠ 0 ∨ 2 ^ 56 ≤ pc) then .error { cause := 3, tval := some pc, epc := epc }
  else match fetchBundle w core bank pc with
  | .fault cause logged => .error { cause := cause, tval := if cause = 8 then some pc else none, epc := pc, logged := logged }
  | .ok b =>
    match headerFault (w.ctx core bank) (windowOpen w core bank) pc b with
    | none => .ok b
    | some cause =>
      if cause = 4 ∧ from_.isSome then .error { cause := 4, tval := some pc, epc := epc }
      else .error { cause := cause, tval := none, epc := pc }

/-- The address of the body's last bundle, sought from an address over at most n bundles; a longer body raises cause 7
(R221). -/
def bodyEnd (w : Work) (core bank : Nat) : Nat → Nat → Except FrontFault Nat
  | 0, a => .error { cause := 7, tval := none, epc := a }
  | n + 1, a =>
    match fetchBundle w core bank a with
    | .fault cause logged => .error { cause := cause, tval := if cause = 8 then some a else none, epc := a, logged := logged }
    | .ok b => if endsBody b then .ok a else bodyEnd w core bank n (a + 32)

/-- A loop that has ended: no loop is bound, and its counters keep their values (R314). -/
def Loop.closed (l : Loop) : Loop := { ctr := l.ctr }

/-- The product of the bound loop's counts is 0. -/
def Loop.isZero (l : Loop) : Bool := l.bound && l.counts.any fun n => decide (n = 0)

/-- The branch whose target stands at the PC. -/
def Ctx.arrivedBy (c : Ctx) : Option Branch :=
  match c.br with
  | none => none
  | some x => if x.left = 0 then some x else none

/-- The cycle waits where the fetch at an address has to wait for its line (R24, R50, R76, R78). -/
def Work.awaitFetch (w : Work) (core bank pc : Nat) : Work :=
  match fetchWaits w core bank pc with
  | some l => w.waitFor true l
  | none => w

/-- The bundle that stands to issue at a context. A body whose counts multiply to 0 is passed over in the same cycle
(R220). -/
def front (w : Work) (core bank : Nat) : Work × Except FrontFault Nat :=
  let c := w.ctx core bank
  match fetchChecked w core bank c.pc c.arrivedBy with
  | .error e => (w, .error e)
  | .ok b =>
    if startsBody b ∧ c.loop.isOpen = false ∧ c.loop.isZero then
      match bodyEnd w core bank 64 c.pc with
      | .error e => (w, .error e)
      | .ok last =>
        let w1 := w.updCtx core bank fun x => { x with
          pc := last + 32, loop := x.loop.closed, br := if x.arrivedBy.isSome then none else x.br }
        (w1.awaitFetch core bank (last + 32), fetchChecked w1 core bank (last + 32) none)
    else (w, .ok b)

/-- A front fault is raised: precise, naming no slot (R226). -/
def Work.raiseFront (w : Work) (core bank : Nat) (e : FrontFault) : Work :=
  let c := w.ctx core bank
  let w1 := if e.logged then w.logError e.cause c.part core c.pc else w
  let f : Nat × Work := match e.tval with
    | some v => (v, w1)
    | none => w1.free
  f.2.raise core bank { cause := e.cause, tval := f.1, epc := e.epc, resume := c.pc, extra := 0,
                        begun := (w.core core).raw }

-- The slots of a bundle

/-- The slot of a word's number. -/
def slotOf (n : Nat) : Slot :=
  match n with
  | 1 => .s
  | 2 => .v0
  | 3 => .v1
  | 4 => .m
  | 5 => .c0
  | _ => .c1

/-- The issue record replaced. -/
def Work.setIssue (w : Work) (i : Issue) : Work := w.mapDev fun d => { d with issue := i }

/-- The issue record of a slot of a bundle at a member of a quire. -/
def issueFor (core bank : Nat) (r : Issued) (follows : Bool) (n : Nat) : Issue :=
  let b := r.bundle
  { core := core, bank := bank, slot := n, pc := r.pc, word := bundleWord b n, ld := hdrLd b, d := bit b 31,
    gp := bits b 16 14, gn := bit b 13, mv0 := bits b 12 10, mv1 := bits b 9 7,
    long := (bundleWord b 7).signExtend 64, inBody := startsBody b, leadBr := r.sets, leadNext := r.task,
    follows := follows, alone := true }

/-- The slot word of the issue record is decoded and takes its effect, or records its verdict (R226). -/
def Work.runSlot (w : Work) : Work :=
  let i := w.dev.issue
  match decodeSlot (slotOf i.slot) i.word with
  | .ok none => w
  | .error e =>
    if i.probe then w.setIssue { i with verdict := .fault } else w.trapNow e.cause none
  | .ok (some x) =>
    match exec x w.commit with
    | .next t => Work.begin t
    | .fault _ => w
    | .refused _ => w

/-- What each slot of a bundle finds at issue, in word order (R226). -/
def slotVerdicts (w : Work) (core bank : Nat) (r : Issued) (follows : Bool) : List (Nat × Verdict) :=
  [1, 2, 3, 4, 5, 6].map fun n =>
    (n, ((w.setIssue { issueFor core bank r follows n with probe := true }).runSlot).dev.issue.verdict)

/-- The first hold among the slots, in word order, with its slot (R418 step 4). -/
def firstHold : List (Nat × Verdict) → Option (Nat × FreezeWhy)
  | [] => none
  | (n, .hold why) :: _ => some (n, why)
  | (_, .ok) :: t => firstHold t
  | (_, .fault) :: t => firstHold t

/-- The first slot that faults, in word order (R226 step 2). -/
def firstFault : List (Nat × Verdict) → Option Nat
  | [] => none
  | (n, .fault) :: _ => some n
  | (_, .ok) :: t => firstFault t
  | (_, .hold _) :: t => firstFault t

/-- Slots of a bundle take their effects in word order. -/
def Work.runSlots (w : Work) (core bank : Nat) (r : Issued) (follows : Bool) (ns : List Nat) : Work :=
  ns.foldl (fun a n =>
    (a.setIssue { issueFor core bank r follows n with
      lsOld := a.dev.issue.lsOld, wasBad := a.dev.issue.wasBad }).runSlot) w

/-- The S form of the bundle acts after its other slots, when the PC stands at the next bundle: `task.next`, `task.done`,
`tide`, `yield`, `trap`, `eret`, `ctx.park` and `halt` (R315 to R318, R329). -/
def controls (b : Nat) : Bool :=
  let op := slotOp b 1
  (decide (0x58 ≤ op) && decide (op ≤ 0x5B)) || decide (op = 0x60) || decide (op = 0x61) || decide (op = 0x6F) ||
    decide (op = 0x70)

/-- The slots that act with the bundle's issue. -/
def plainSlots (b : Nat) : List Nat := if controls b then [2, 3, 4, 5, 6] else [1, 2, 3, 4, 5, 6]

/-- The controlling S form acts. -/
def Work.runControl (w : Work) (core bank : Nat) (r : Issued) (follows : Bool) : Work :=
  if controls r.bundle then (w.setIssue { issueFor core bank r follows 1 with sure := true }).runSlot else w

/-- What the issue of a bundle counts (R191, R223, Table 11.10), and the end of any hold of it. -/
def Ctx.noteIssue (c : Ctx) (pc : Nat) (d : Bool) : Ctx :=
  let n := c.ticks + 1
  let x := BitVec.ofNat 64 (pc + if c.frozen then 1 else 0)
  { c.count 1 1 with
    dist := if d then 0 else min (c.dist + 1) (2 ^ 32 - 1)
    ticks := n
    lts := c.lts + (if n % 16 = 0 then 1 else 0)
    trdat := if c.trc then c.trdat.set (c.trcnt % 1024) x else c.trdat
    trcnt := if c.trc then c.trcnt + 1 else c.trcnt
    packets := c.packets.filter fun p => decide (p.lvl < c.lvl)
    freeze := none, sync := none, syncGo := none, frozen := false }

-- The next bundle (R220, R222, R313, R314)

/-- The counters of the next pass, innermost first; none when the loop has run through its bounds. -/
def bumpCounters : List Nat → List Nat → Option (List Nat)
  | n :: ns, c :: cs => if c + 1 < n then some ((c + 1) :: cs) else (bumpCounters ns cs).map fun t => 0 :: t
  | [], _ => none
  | _ :: _, [] => none

/-- The loop state with a body begun at a bundle, where the bundle begins one. -/
def Loop.opened (l : Loop) (pc b : Nat) : Loop :=
  if startsBody b ∧ l.isOpen = false then
    { l with isOpen := true, start := pc, stop := 0, len := 0, ctr := [0, 0, 0, 0, 0, 0] }
  else l

/-- The loop state after a bundle, with the address of the bundle that follows but for a branch. `last` is the body's
last bundle, needed where `lexit` leaves before it. -/
def loopStep (last : Except FrontFault Nat) (l0 : Loop) (pc b : Nat) : Loop × Nat :=
  let l1 := l0.opened pc b
  if l1.isOpen = false then ({ l1 with leaving := false }, pc + 32)
  else
    let l := { l1 with len := l1.len + 1, stop := if endsBody b then pc else l1.stop }
    if l.leaving then
      match last with
      | .ok a => (l.closed, a + 32)
      | .error _ => ({ l with len := 64, leaving := false }, l.start + 2048)
    else if endsBody b then
      match bumpCounters l.counts l.ctr with
      | some ctr => ({ l with ctr := ctr, len := 0 }, l.start)
      | none => (l.closed, pc + 32)
    else (l, pc + 32)

/-- The pending branch after a bundle, and the address that follows: the target issues after the two delay bundles
(R222). -/
def branchStep (br : Option Branch) (next : Nat) : Option Branch × Nat :=
  match br with
  | none => (none, next)
  | some x =>
    if x.left ≤ 1 then (if x.taken then (some { x with left := 0 }, x.target) else (none, next))
    else (some { x with left := x.left - 1 }, next)

/-- The PC goes to the next bundle, and the loop buffer keeps the open body (R220). -/
def Work.nextBundle (w : Work) (core bank : Nat) (r : Issued) : Work :=
  let last := bodyEnd w core bank 64 (((w.ctx core bank).loop.opened r.pc r.bundle).start)
  w.updCtx core bank fun c =>
    let x := loopStep last c.loop r.pc r.bundle
    let y := branchStep c.br x.2
    { c with loop := x.1, br := y.1, pc := y.2, lbuf := if x.1.isOpen then c.lbuf.set r.pc r.bundle else [] }

-- Members of a quire (R139)

/-- The bundle that stands to issue, as the lead has it before its issue. -/
def Ctx.stands (c : Ctx) (b : Nat) : Issued :=
  { pc := c.pc, bundle := b, loop := c.loop, br := if c.arrivedBy.isSome then none else c.br, nextPc := c.pc }

/-- The line of a follower with what the lead does in this cycle at its end. -/
def Ctx.line (c : Ctx) (r : Option Issued) : List (Option Issued) := c.hist ++ [r]

/-- The bundle that the member of a rank issues in this cycle, rank x SKEW cycles after the lead (R139). -/
def Ctx.present (c : Ctx) (rank : Nat) (r : Option Issued) : Option Issued :=
  if rank = 0 then r
  else if rank * c.skew < (c.line r).length then (c.line r).headD none else none

/-- The line of a follower after the cycle. -/
def Ctx.lineAfter (c : Ctx) (rank : Nat) (r : Option Issued) : List (Option Issued) :=
  if rank * c.skew < (c.line r).length then (c.line r).tail else c.line r

/-- A member's line brings a bundle. -/
def lineBrings (c : Ctx) : Bool := c.hist.any fun x => x.isSome

/-- The rank of a member among those that run at one level of its quire: its own, but that of a lead where it has been left to run
alone with no bundle of the lead's to issue (notes/assumptions/15.md). -/
def rankIn (w : Work) (q : List Nat) (bank k : Nat) : Nat :=
  if q = [k] ∧ lineBrings (w.ctx k bank) = false then 0 else (w.ctx k bank).rank

/-- What the members of a quire issue in this cycle, by their ranks: rank, core and bundle. -/
def presents (rk : Nat → Nat) (w : Work) (q : List Nat) (bank : Nat) (r : Option Issued) : List (Nat × Nat × Issued) :=
  q.filterMap fun k =>
    let c := w.ctx k bank
    if c.busy then (c.present (rk k) r).map fun i => (rk k, k, i) else none

/-- A member's loop and branch state and PC before its bundle are as the lead's were. -/
def Work.takePlace (w : Work) (core bank : Nat) (i : Issued) : Work :=
  w.updCtx core bank fun c => { c with pc := i.pc, loop := i.loop, br := i.br }

/-- In an ebb a copy starts in the cycle in which its bundle places it, where it can start there (R144). -/
def Work.startPlaced (w : Work) (core bank : Nat) : Work :=
  if (w.ctx core bank).ebb = false then w
  else [0, 0, 1, 1].foldl (fun a eng => match startable (a.core core) eng with
    | some c => if c.ctx = bank ∧ c.at_ = (w.core core).clk then a.startCopy core eng else a
    | none => a) w

/-- The lead issues its bundle, and the record of it is completed (R139, R315). -/
def Work.commitLead (w : Work) (core bank : Nat) (r : Issued) : Issued × Work :=
  let w1 := (w.runSlots core bank r false (plainSlots r.bundle)).startPlaced core bank
  let sets := match (w1.ctx core bank).br with
    | none => none
    | some x => if x.left = 3 then some x else none
  let w2 := (w1.updCtx core bank fun c => c.noteIssue r.pc (bit r.bundle 31)).nextBundle core bank r
  let c := w2.ctx core bank
  let w3 := w2.runControl core bank r false
  let e := w3.ctx core bank
  ({ r with
    nextPc := c.pc, nextLoop := c.loop, nextBr := c.br, sets := sets
    task := if slotOp r.bundle 1 = 0x58 ∧ e.busy then some e.task.toNat else none }, w3)

/-- A follower issues the bundle at the head of its line (R139). -/
def Work.commitFollower (w : Work) (bank : Nat) (lead : Option Issued) (p : Nat × Nat × Issued) : Work :=
  let w1 := (w.takePlace p.2.1 bank p.2.2).runSlots p.2.1 bank p.2.2 true (plainSlots p.2.2.bundle)
  let w2 := w1.updCtx p.2.1 bank fun c =>
    let n := c.noteIssue p.2.2.pc (bit p.2.2.bundle 31)
    match (c.lineAfter p.1 lead).findSome? id with
    | some i => { n with pc := i.pc, loop := i.loop, br := i.br }
    | none => { n with pc := p.2.2.nextPc, loop := p.2.2.nextLoop, br := p.2.2.nextBr }
  w2.runControl p.2.1 bank p.2.2 true

/-- The lines of the followers that still run at a level move on. -/
def Work.moveLines (w : Work) (rk : Nat → Nat) (q : List Nat) (bank lvl : Nat) (r : Option Issued) : Work :=
  (q.filter fun k => decide (rk k ≠ 0)).foldl (fun a k =>
    let c := a.ctx k bank
    if c.busy ∧ c.lvl = lvl then a.updCtx k bank fun x => { x with hist := x.lineAfter (rk k) r } else a) w

/-- One cycle of the clocks of some cores. -/
def Work.tick (w : Work) (q : List Nat) : Work :=
  q.foldl (fun a k => a.updCore k fun c => { c with clk := c.clk + 1 }) w

-- Causes raised by several members in one cycle (R139)

/-- The trap that a context has just entered from a level: cause, SLOT, value and, for a translation-fault park, its line. -/
def Ctx.entered (c : Ctx) (lvl : Nat) : Option (Nat × Nat × Nat × Option Nat) :=
  match c.st with
  | .entering e => if e.watch.isSome then none else some (e.cause, bits e.extra 8 6, e.tval, e.park)
  | .parked (.walk l _ _) => some (c.cause % 64, bits c.cause 8 6, c.tval.toNat, some l)
  | .ready => if c.lvl ≤ lvl then none else some (c.cause % 64, bits c.cause 8 6, c.tval.toNat, none)
  | .parked (.queue _) => none
  | .parked (.line _ _ _) => none
  | .parked (.woken _) => none
  | .idle => none
  | .reported => none

/-- The members of a quire at a level that raised no cause take that of the raising member of lowest rank (R139). -/
def Work.share (w : Work) (q : List Nat) (bank lvl : Nat) : Work :=
  let w1 := w.setIssue {}
  match q.findSome? fun k => ((w1.ctx k bank).entered lvl).map fun e => ((w1.ctx k bank).rank, e) with
  | none => w1
  | some (rank, cause, slot, tval, park) =>
    q.foldl (fun a k =>
      let o := a.ctx k bank
      if o.st = .ready ∧ o.lvl = lvl then
        a.takeTrap k bank { cause := cause, tval := tval, epc := o.pc, resume := o.pc, park := park,
                            extra := 64 * slot + 2048 + 4096 * rank + (if park.isSome then 1024 else 0)
                            begun := (a.core k).raw }
      else a) w1

/-- Every member that ran at a level still does. -/
def steady (w : Work) (q : List Nat) (bank lvl : Nat) : Bool :=
  q.all fun k =>
    let c := w.ctx k bank
    !c.busy || (decide (c.st = .ready) && decide (c.lvl = lvl))

-- Landings (R208, R211, R215, R226, R328)

/-- The word shows completion or an error: a status of 1 or 2, or a status of 0 with a pending count of 0 (R328, R356). -/
def wordShows (v : Nat) : Bool :=
  decide (bits v 41 40 = 1) || decide (bits v 41 40 = 2) || (decide (bits v 41 40 = 0) && decide (bits v 39 0 = 0))

/-- Words that `bw.wait` watches are tested at their homes (R328), but for one whose line, or a page-table line to it, has to be
waited for. -/
def Work.testWords (w : Work) (core bank : Nat) : Work :=
  let test (o : Outstanding) : Outstanding := match o.kind, o.res with
    | .word va, none =>
      let a := w.wordNow core bank va
      if (w.wordBusy core bank va).isSome then o
      else if a.fault.isSome || wordShows a.val.toNat then { o with res := some a } else o
    | .word _, some _ => o
    | .load, _ => o
    | .atomic, _ => o
    | .queue, _ => o
  w.updCtx core bank fun c => { c with outs := c.outs.map test }

/-- A variable-latency operation whose data are there at its landing cycle lands with the results of that cycle (R211):
its result joins them, and its local-store bytes and logical time take effect. -/
def Work.ripen (w : Work) (core bank t : Nat) (o : Outstanding) (a : Arrived) : Work :=
  let w1 := if a.lsLen = 0 then w else w.lsPut core a.lsAddr a.lsLen a.lsData
  w1.updCtx core bank fun c => { c.raiseLts a.lts with
    outs := c.outs.filter fun x => decide (x.id ≠ o.id)
    flights := c.flights ++ [{ due := t, slot := 1, seq := o.id, eff := .scalar o.latch a.val o.dst a.mark }] }

/-- The operations whose landing cycle has come and whose data are there. -/
def Ctx.ripe (c : Ctx) (t : Nat) : List (Outstanding × Arrived) :=
  c.outs.filterMap fun o => match o.res with
    | some a => if o.due ≤ t then some (o, a) else none
    | none => none

/-- The operations whose landing cycle has come without their data. -/
def Ctx.missing (c : Ctx) (t : Nat) : List Outstanding := c.outs.filter fun o => decide (o.due ≤ t) && o.res.isNone

/-- A missing operation is counted once as later than LD (Table 11.10). -/
def Ctx.noteLate (c : Ctx) (t : Nat) : Ctx :=
  let n := ((c.missing t).filter fun o => !o.late).length
  if n = 0 then c
  else { c.count 3 n with outs := c.outs.map fun o =>
    if o.due ≤ t ∧ o.res.isNone then { o with late := true } else o }

/-- The landings of a cycle at one core, in both banks, with the row of a pass (R208, R253), and the first landing-time
fault of the bank that has the sequencer (R226). -/
def Work.landings (w : Work) (core bank : Nat) : Work :=
  let t := (w.core core).clk
  let w1 := w.testWords core bank
  let rs := (w1.ctx core bank).ripe t
  let w2 := rs.foldl (fun a x => a.ripen core bank t x.1 x.2) w1
  let w3 := (w2.cycle core t).updCtx core bank fun c => c.noteLate t
  let faults := rs.filterMap fun x => x.2.fault.map fun f => (x.1.pc, f)
  match faults with
  | [] => w3
  | (pc, f) :: rest =>
    let c := w3.ctx core bank
    let w4 := w3.updCtx core bank fun x => { x with
      second := x.second ++ rest.map fun y => (y.2.1, y.2.2, y.1, true) }
    w4.raise core bank { cause := f.1, tval := f.2, epc := pc, resume := c.pc, extra := slotBits 1 true,
                         begun := (w.core core).raw }

/-- What a landing freeze counts toward: cw.qwait where every missing operation waits at a queue's home (R117, R216). -/
def landingHold (c : Ctx) (ms : List Outstanding) : FreezeWhy :=
  if ms.all fun o => c.qops.any fun q => decide (q.land = some o.id) && (q.waiting.isSome || q.held) then .queueWait (ms.map (·.id))
  else .limited

-- Freezes (R117, R119, R139, R215, R216)

/-- The reason counts toward cw.frzlim (R216). -/
def FreezeWhy.freezes : FreezeWhy → Bool
  | .limited => true
  | .sequencer => true
  | .walk _ => true
  | .ask => true
  | .queueWait _ => false
  | .barrier => false

/-- A freeze for one reason goes on counting when it turns into one for another: reasons of one limit, and a freeze on an
operation that has reached its home and waits there, which counts toward cw.qwait from its first cycle (R117,
Example 5.1). -/
def sameLimit (a b : FreezeWhy) : Bool :=
  match a, b with
  | .limited, .queueWait _ => true
  | .queueWait _, .queueWait _ => true
  | x, y => x.freezes && y.freezes

/-- The cycles for which a member's present freeze has lasted under the limit of a reason. -/
def frozenFor (c : Ctx) (why : FreezeWhy) : Nat :=
  match c.freeze with
  | none => 0
  | some (old, n) => if sameLimit old why then n else 0

/-- A member's freeze as it stands at the beginning of a frozen cycle. -/
def Work.markFreeze (w : Work) (bank : Nat) (h : Nat × FreezeWhy) : Work :=
  w.updCtx h.1 bank fun c => { c with freeze := some (h.2, frozenFor c h.2) }

/-- A freeze cycle of a context is counted (R216). -/
def Ctx.noteFrozen (c : Ctx) : Ctx :=
  { c.count 2 1 with
    frz := c.frz + 1
    frozen := true
    freeze := c.freeze.map fun f => (f.1, f.2 + 1) }

/-- The reason stops only the sequencer, and the latency counts go on. -/
def FreezeWhy.sequencerOnly : FreezeWhy → Bool
  | .sequencer => true
  | .limited => false
  | .walk _ => false
  | .ask => false
  | .queueWait _ => false
  | .barrier => false

/-- A cycle in which some members of a quire hold issue, and with them all: a limit that has been reached takes effect
(R119, R216); else the cycle is counted. -/
def Work.frozenCycle (w : Work) (q : List Nat) (bank : Nat) (hs : List (Nat × FreezeWhy)) : Work :=
  let w0 := q.foldl (fun a k => if hs.any fun h => decide (h.1 = k) then a else a.thaw k bank) (w.setIssue {})
  let w1 := hs.foldl (fun a h => a.markFreeze bank h) w0
  match hs.find? fun h => frozenOut (w1.ctx h.1 bank) with
  | some h => limitFreeze h.1 bank w1
  | none =>
    match hs.find? fun h => (waitedOut (w1.ctx h.1 bank)).isSome with
    | some h => parkOnQueue h.1 bank w1
    | none =>
      let w2 := q.foldl (fun a k => a.updCtx k bank Ctx.noteFrozen) w1
      if hs.all fun h => h.2.sequencerOnly then w2.tick q else w2

/-- The holds on the whole bundle that members meet in this cycle: a landing without its data, or a drain point before
everything has landed (R215, R223). -/
def bundleHolds (w : Work) (q : List Nat) (bank : Nat) (ps : List (Nat × Nat × Issued)) : List (Nat × FreezeWhy) :=
  q.filterMap fun k =>
    let c := w.ctx k bank
    let ms := c.missing (w.core k).clk
    if c.busy = false then none
    else if ms ≠ [] then some (k, landingHold c ms)
    else if ps.any fun p => decide (p.2.1 = k) && bit p.2.2.bundle 31 && !drained w k bank then some (k, .sequencer)
    else none

/-- The members whose hold of a `cp.q` has lasted for cw.frzlim, with the bundle (R384). -/
def overAsked (w : Work) (bank : Nat) (ps : List (Nat × Nat × Issued)) : List (Nat × Nat) :=
  ps.filterMap fun p => match (w.ctx p.2.1 bank).freeze with
    | some (.ask, n) => if (w.ctx p.2.1 bank).frzlim ≤ n then some (p.2.1, p.2.2.pc) else none
    | some (.limited, _) => none
    | some (.sequencer, _) => none
    | some (.walk _, _) => none
    | some (.queueWait _, _) => none
    | some (.barrier, _) => none
    | none => none

/-- Cause 50 is raised after the commit of a bundle whose `cp.q` has been performed past cw.frzlim, at the next bundle (R384). -/
def Work.raiseAsked (w : Work) (bank lvl : Nat) (xs : List (Nat × Nat)) : Work :=
  xs.foldl (fun a x =>
    let c := a.ctx x.1 bank
    if c.st = .ready ∧ c.lvl = lvl then
      let f := a.free
      (f.2.setIssue { alone := true }).raise x.1 bank
        { cause := 50, tval := f.1, epc := x.2, resume := c.pc, extra := 0, begun := (a.core x.1).raw }
    else a) w

/-- What the slots that hold issue for an answer have to ask is asked (R384, R387). -/
def Work.askSlots (w : Work) (bank : Nat) (hs : List ((Nat × Nat × Issued) × Nat × FreezeWhy)) : Work :=
  hs.foldl (fun a h =>
    if h.2.2 = .ask then
      (a.setIssue { issueFor h.1.2.1 bank h.1.2.2 (decide (h.1.1 ≠ 0)) h.2.1 with asks := true }).runSlot
    else a) w

/-- The bundle of every member issues (R139), and the lines move. -/
def Work.commitAll (w : Work) (q : List Nat) (bank lvl : Nat) (r : Option Issued) : Work :=
  let rk := rankIn w q bank
  let w0 := w.setIssue {}
  let x : Option Issued × Work := match r with
    | none => (none, w0)
    | some i =>
      let y := w0.commitLead (q.headD 0) bank i
      (some y.1, y.2)
  let ps := (presents rk x.2 q bank x.1).filter fun p => decide (p.1 ≠ 0)
  let w1 := ps.foldl (fun a p => (a.setIssue {}).commitFollower bank x.1 p) x.2
  let w2 := (((w1.moveLines rk q bank lvl x.1).raiseAsked bank lvl (overAsked w bank (presents rk w q bank r))).share q bank lvl).tick q
  q.foldl (fun a k => limitDistance k bank a) w2

/-- A cycle in which the lead issues a bundle or none, and every other member what its line brings: the holds, the checks
of every slot, and the issue (R139, R226, R418). -/
def Work.goOn (w : Work) (q : List Nat) (bank lvl : Nat) (r : Option Issued) : Work :=
  let ps := presents (rankIn w q bank) w q bank r
  let w1 := ps.foldl (fun a p => a.takePlace p.2.1 bank p.2.2) w
  match bundleHolds w1 q bank ps with
  | h :: t => w1.frozenCycle q bank (h :: t)
  | [] =>
    let vs := ps.map fun p => (p, slotVerdicts w1 p.2.1 bank p.2.2 (decide (p.1 ≠ 0)))
    match vs.filterMap fun v => (firstHold v.2).map fun h => (v.1, h) with
    | h :: t => (w1.askSlots bank (h :: t)).frozenCycle q bank ((h :: t).map fun x => (x.1.2.1, x.2.2))
    | [] =>
      match vs.filterMap fun v => (firstFault v.2).map fun n => (v.1, n) with
      | [] => w1.commitAll q bank lvl r
      | f :: fs =>
        let w2 := (f :: fs).foldl (fun a x =>
          (a.setIssue (issueFor x.1.2.1 bank x.1.2.2 (decide (x.1.1 ≠ 0)) x.2)).runSlot) w1
        (w2.share q bank lvl).tick q

-- Drain points and barriers (R75, R217 to R219, R223, R232)

/-- The followers have issued all that the lead has. -/
def caughtUp (w : Work) (q : List Nat) (bank : Nat) : Bool := q.all fun k => !lineBrings (w.ctx k bank)

/-- A request waits for the drain point: a pre-emption of the task, or a debug hold (R75, R232). The bundle has passed the drain
point once a slot of it has sent its packet (R384, R418). -/
def requestWaits (c : Ctx) : Bool :=
  (decide (c.halt = 1) || (decide (c.ppend ≠ 0) && decide (c.lvl = 0) && !c.ebb)) &&
    !(c.packets.any fun p => decide (p.pc = c.pc) && decide (p.lvl = c.lvl))

/-- A mask names a site that is disabled or lies outside the gang, or splits a quire (R219). -/
def maskSplits (w : Work) (core bank mask : Nat) : Bool :=
  let c := w.ctx core bank
  let gang := (w.dev.launch c.ix).gang
  let ks := maskCores core mask
  (ks.any fun k => w.dev.coresOff.contains k || !(gang.any fun q => q.contains k)) ||
    (!c.ebb && gang.any fun q => (q.any fun k => ks.contains k) && !(q.all fun k => ks.contains k))

/-- The mask raises cause 48 at a core (R219). -/
def maskBad (w : Work) (core bank mask : Nat) : Bool :=
  decide (mask = 0) || !bit mask (core % 16) || maskSplits w core bank mask

/-- The mask value of a member's own register (R217). -/
def maskOf (w : Work) (core bank n : Nat) : Nat := ((w.ctx core bank).barmask.get n 0).toNat

/-- The members of a quire that come to the SYNC bundle of register n in this cycle: the lead, and each follower once its line
brings nothing more (R139, R217). -/
def arriving (w : Work) (q : List Nat) (bank : Nat) : List Nat :=
  q.filter fun k =>
    let c := w.ctx k bank
    c.busy && c.sync.isNone && !lineBrings c

/-- A member at the SYNC bundle that has not frozen in this cycle counts it as held (R219). -/
def Work.noteHeld (w0 w : Work) (bank k : Nat) : Work :=
  let c := w.ctx k bank
  if c.st = .ready ∧ c.lvl = (w0.ctx k bank).lvl ∧ c.frz = (w0.ctx k bank).frz then w.updCtx k bank Ctx.noteFrozen else w

/-- A cycle of a SYNC hold (R217, R219): each member comes to the bundle at its own skew, where a mask of its own register that is
not as R219 asks raises cause 48 (R139); those that have come are held, and the others go on. -/
def Work.syncCycle (w : Work) (q : List Nat) (bank lvl n : Nat) : Work :=
  let lead := q.headD 0
  let ks := arriving w q bank
  match ks.filter fun k => maskBad w k bank (maskOf w k bank n) with
  | k :: t =>
    (((k :: t).foldl (fun a x =>
      (a.setIssue { alone := true }).raiseFront x bank { cause := 48, tval := none, epc := (w.ctx x bank).pc }) w).share
        q bank lvl).tick q
  | [] =>
    let w1 := ks.foldl (fun a k => a.updCtx k bank fun x => { x with
      sync := some (n, maskOf w k bank n, w.dev.now), syncGo := none }) w
    let w2 := if caughtUp w1 q bank then w1 else w1.goOn q bank lvl none
    let held := q.filter fun k => (w1.ctx k bank).sync.isSome
    limitBarrier lead bank (releaseSync lead bank (held.foldl (fun a k => Work.noteHeld w1 a bank k) w2))

/-- The SYNC hold of the lead's bundle (R217 to R219): over, begun, or going on. -/
def Work.meetBarrier (w : Work) (q : List Nat) (bank lvl : Nat) (i : Issued) : Work :=
  let n := hdrSync i.bundle
  if n = 0 then w.goOn q bank lvl (some i)
  else match (w.ctx (q.headD 0) bank).syncGo with
    | some t => if t < w.dev.now then w.goOn q bank lvl (some i) else w.syncCycle q bank lvl (n - 1)
    | none => w.syncCycle q bank lvl (n - 1)

/-- The lead stands at a drain point with everything landed, and a request waits: debug holds take effect, and a
pre-emption is honoured, once every member has come to the bundle (R75, R223, R232, R363). -/
def Work.honour (w : Work) (q : List Nat) (bank lvl : Nat) (i : Issued) : Work :=
  let lead := q.headD 0
  if caughtUp w q bank = false ∨ (q.any fun k => !drained w k bank) then w.goOn q bank lvl none
  else if q.any fun k => decide ((w.ctx k bank).halt = 1) then (q.foldl (fun a k => takeHold k bank a) w).tick q
  else if q.any fun k => !(w.core k).strm.isEmpty then w.tick q
  else
    let w1 := preempt lead bank w
    if (w1.ctx lead bank).busy then w.meetBarrier q bank lvl i else w1.tick q

/-- The drain-point hold of the lead's bundle, and what a drain point brings (R223, R418 step 2). -/
def Work.meetDrain (w : Work) (q : List Nat) (bank lvl : Nat) (i : Issued) : Work :=
  let lead := q.headD 0
  if bit i.bundle 31 = false then w.meetBarrier q bank lvl i
  else if drained w lead bank = false then w.goOn q bank lvl (some i)
  else if q.any fun k => requestWaits (w.ctx k bank) then w.honour q bank lvl i
  else w.meetBarrier q bank lvl i

-- Re-issue after a return or a wake (R124, R230)

/-- The issue record of an operation issued again from a list. -/
def againIssue (core bank pc ld : Nat) (word : Word32) : Issue :=
  { core := core, bank := bank, slot := 1, pc := pc, word := word, ld := ld }

/-- The register of a T-form word, if WE = 1. -/
def wordDest (word : Word32) : Option Nat := dest (word.extractLsb' 2 1) (word.extractLsb' 3 6).toNat

/-- A replayed load issued again (R230). -/
def replayPlan (r : Replay) (w : Work) : Plan :=
  let n := 2 ^ (r.word.extractLsb' 0 2).toNat
  if (r.word.extractLsb' 25 7).toNat = 0x2D then loadExtent r.trigger r.operand (wordDest r.word) n w
  else loadGlobal r.trigger r.operand (wordDest r.word) n w

/-- A withdrawn queue operation issued again; its bundle's S word names its register (R124). -/
def requeuePlan (r : Requeue) (w : Work) : Plan := do
  queueHolds r.form (BitVec.ofNat 3 r.bnd) w
  queueForm r.form (BitVec.ofNat 3 r.bnd) r.arg (wordDest w.dev.issue.word) w

/-- The S word of the bundle at an address. -/
def sWordAt (w : Work) (core bank pc : Nat) : Word32 :=
  match fetchBundle w core bank pc with
  | .ok b => bundleWord b 1
  | .fault _ _ => 0

/-- An operation issued again takes effect, holds issue, or raises its cause at its own bundle, the context resuming
where it would have. -/
def Work.again (w : Work) (core bank pc : Nat) (p : Plan) (drop : Ctx → Ctx) : Work :=
  let c := w.ctx core bank
  let e (cause tval : Nat) : Entry :=
    { cause := cause, tval := tval, epc := pc, resume := c.pc, extra := slotBits 1 false, begun := (w.core core).raw }
  match p with
  | .ok w1 => ((w1.updCtx core bank drop).setIssue {}).tick [core]
  | .error (.hold why) => w.frozenCycle [core] bank [(core, why)]
  | .error (.park cause line va) => (w.setIssue {}).parkWalk core bank cause line va pc c.pc 1
  | .error (.trap cause tval) =>
    let f : Nat × Work := match tval with
      | some v => (v, w)
      | none => w.free
    ((f.2.updCtx core bank drop).setIssue {}).raise core bank (e cause f.1)
  | .error (.malformed cause va) =>
    (((w.logError cause c.part core va).updCtx core bank drop).setIssue {}).raise core bank (e cause va)
  | .error (.report kind key) => (w.reportLate kind key).setIssue {}

/-- The next operation of a member's lists is issued again; each takes a cycle. -/
def Work.issueAgain (w : Work) (core bank : Nat) : Work :=
  let c := w.ctx core bank
  match c.replay, c.requeue with
  | r :: rest, _ =>
    let w1 := w.setIssue (againIssue core bank r.pc r.ld r.word)
    w1.again core bank r.pc (replayPlan r w1) fun x => { x with replay := rest }
  | [], r :: rest =>
    let w1 := w.setIssue (againIssue core bank r.pc r.ld (sWordAt w core bank r.pc))
    w1.again core bank r.pc (requeuePlan r w1) fun x => { x with requeue := rest }
  | [], [] => w.tick [core]

/-- A member has operations to issue again before its next bundle. -/
def Ctx.owes (c : Ctx) : Bool := !c.replay.isEmpty || !c.requeue.isEmpty

-- A cycle

/-- The cycles of a bank switch or of `task.next` have not yet passed (R224, R315). -/
def startsLater (w : Work) (lead : Nat) : Bool := decide ((w.core lead).raw < (w.core lead).goAt)

/-- Followers left behind by a lead that has retired retire when their lines are empty (R139). -/
def Work.retireRest (w : Work) (q : List Nat) (bank : Nat) : Work :=
  if caughtUp w q bank then q.foldl (fun a k => if (a.ctx k bank).busy then a.retireMember k bank true else a) w else w

/-- The bundle stage of a cycle: what stands to issue at the lead, its checks, holds and issue. Where the lead has left the level, its
followers issue what their lines still bring. -/
def Work.bundleCycle (w : Work) (q : List Nat) (bank lvl : Nat) : Work :=
  let lead := q.headD 0
  if (w.ctx lead bank).busy = false then (w.retireRest q bank).goOn q bank lvl none
  else if rankIn w q bank lead ≠ 0 then w.goOn q bank lvl none
  else if startsLater w lead then w.goOn q bank lvl none
  else if q.any fun k => (w.ctx k bank).owes then q.foldl (fun a k => a.issueAgain k bank) w
  else
    let f := front (w.awaitFetch lead bank (w.ctx lead bank).pc) lead bank
    match f.2 with
    | .error e => (f.1.raiseFront lead bank e).tick q
    | .ok b => f.1.meetDrain q bank lvl ((f.1.ctx lead bank).stands b)

/-- One cycle of members that run in step at one level (R139): landings, pass causes at the bundle boundary, and the
bundle. -/
def Work.runCycle (w : Work) (q : List Nat) (bank lvl : Nat) : Work :=
  let gather (a : Work) : Work := a.setIssue { alone := true }
  let w1 := (q.foldl (fun a k => a.landings k bank) (gather w)).share q bank lvl
  if steady w1 q bank lvl = false then w1.tick q
  else
    let w2 := (q.foldl (fun a k => a.raiseAfter k bank) (gather w1)).share q bank lvl
    if steady w2 q bank lvl = false then w2.tick q else w2.bundleCycle q bank lvl

/-- A cycle of a core that issues nothing: results land, and its clock goes on. -/
def Work.restCycle (w : Work) (core : Nat) : Work := (w.cycle core (w.core core).clk).tick [core]

/-- The faults found while a context was parking or parked are delivered as it runs again, one after another: those of its landings
and posted accesses, then those of its enqueues (R121, R227). -/
def Work.deliver (w : Work) (core bank : Nat) : Work :=
  let c := w.ctx core bank
  let c1 : Ctx := { c with
    second := c.second ++ c.qlate.map fun f : Nat × Nat × Nat => (f.1, f.2.1, f.2.2, false)
    qlate := [] }
  match c1.second with
  | [] => w
  | (cause, tval, pc, landf) :: rest =>
    (w.updCtx core bank fun _ => { c1 with second := rest }).raise core bank
      { cause := cause, tval := tval, epc := pc, resume := c.pc, extra := slotBits 1 landf, begun := (w.core core).raw }

/-- A context that has been woken goes on: from its frame, or at its next bundle (R225). -/
def Work.wakeUp (w : Work) (core bank : Nat) : Work :=
  match (w.ctx core bank).st with
  | .parked (.woken true) =>
    ((w.restoreFrame core bank 1).updCtx core bank fun c => { c with st := .ready }).deliver core bank
  | .parked (.woken false) => (w.updCtx core bank fun c => { c with st := .ready }).deliver core bank
  | .parked (.queue _) => w
  | .parked (.line _ _ _) => w
  | .parked (.walk _ _ _) => w
  | .idle => w
  | .ready => w
  | .entering _ => w
  | .reported => w

/-- A context is parked and woken. -/
def Ctx.woken (c : Ctx) : Bool :=
  match c.st with
  | .parked (.woken _) => true
  | .parked (.queue _) => false
  | .parked (.line _ _ _) => false
  | .parked (.walk _ _ _) => false
  | .idle => false
  | .ready => false
  | .entering _ => false
  | .reported => false

/-- A context is entering a trap and waits for queue operations (R227). -/
def Ctx.isEntering (c : Ctx) : Bool :=
  match c.st with
  | .entering _ => true
  | .parked _ => false
  | .idle => false
  | .ready => false
  | .reported => false

/-- The other bank of every member may run, and goes before this one: this bank cannot run, or both have been woken and
the other parked first (R148). -/
def otherFirst (w : Work) (q : List Nat) (bank : Nat) : Bool :=
  let lead := q.headD 0
  let other := w.ctx lead (1 - bank)
  (q.all fun k => (w.ctx k (1 - bank)).runnable) &&
    ((q.any fun k => !(w.ctx k bank).runnable) || (other.woken && decide (other.since < (w.ctx lead bank).since)))

/-- A cycle of a quire in its current bank, by what its members do. The members in a handler run in step there, and those that have
returned from it wait for the others. Members that a cause has put at a level without their lead run apart
(notes/assumptions/15.md). -/
def Work.bankCycle (w : Work) (q : List Nat) (bank : Nat) : Work :=
  let rest (a : Work) : Work := q.foldl (fun x k => x.restCycle k) a
  let mine (k : Nat) : Ctx := w.ctx k bank
  if q.any fun k => (mine k).isEntering then
    rest (q.foldl (fun a k =>
      if (mine k).isEntering then finishEntry k bank (a.updCtx k bank Ctx.noteFrozen) else a) w)
  else if q.all fun k => !(mine k).busy then
    rest (if q.all fun k => (w.ctx k (1 - bank)).runnable then w.handOver q bank else w)
  else if q.any fun k => decide ((mine k).halt = 2) then rest w
  else if q.any fun k => (mine k).busy && !(mine k).runnable then
    rest (if otherFirst w q bank then w.handOver q bank else w)
  else if q.any fun k => (mine k).woken then
    rest (if otherFirst w q bank then w.handOver q bank
      else (q.foldl (fun a k => (a.setIssue { alone := true }).wakeUp k bank) w).share q bank (mine (q.headD 0)).lvl)
  else
    let top := q.foldl (fun n k => if (mine k).busy then max n (mine k).lvl else n) 0
    if top = 0 then w.runCycle q bank 0
    else
      let up := q.filter fun k => (mine k).busy && decide ((mine k).lvl = top)
      let w1 := (q.filter fun k => !up.contains k).foldl (fun a k => a.restCycle k) w
      if up.any fun k => decide ((mine k).rank = 0) || lineBrings (mine k) then w1.runCycle up bank top
      else up.foldl (fun a k => a.runCycle [k] bank top) w1

/-- One cycle of the clock of a quire's cores. -/
def Work.coreCycle (w : Work) (q : List Nat) : Work :=
  let w1 := q.foldl (fun a k => a.updCore k fun c => { c with raw := c.raw + 1 }) w
  w1.bankCycle q (w1.core (q.headD 0)).cur

end Sys2Proof.Machine
end

