-- ==== Sys2Proof/Machine/Moves.lean ====
section
/-! DEFINITION. What the part does of itself beside issuing bundles: the actions that are ready in a state. An action whose
time is fixed by a rule is taken when that time comes; of the others, which comes next, and when, the spec leaves open
(notes/assumptions/4.md). An action that finds a line it has to wait for does nothing yet, but that what it waits for is asked
for (R24, R50, R76, R78, R141, R163). -/

namespace Sys2Proof.Machine

/-- An action of the part. -/
inductive Move where
  -- cores, queues' homes and engines
  | access (core bank : Nat)
  | snoop (line : Nat)
  | overtake (core bank : Nat)
  | evict (line : Nat)
  | evictBanked (line : Nat)
  | queueOp (core bank : Nat)
  | wake (core bank : Nat)
  | startCopy (core eng : Nat)
  | stepCopy (core eng id : Nat)
  | stopCopy (core eng : Nat)
  | finishCopy (core eng id : Nat)
  | startLoad (core : Nat)
  | stepLoad (core : Nat)
  | finishLoad (core : Nat)
  | finishCal (core : Nat)
  -- the command front end
  | fetch (q : Nat)
  | carry (q : Nat)
  | replay (q : Nat)
  | startJob (die : Nat)
  | takeService (die cb : Nat)
  | stepJob (die id : Nat)
  | endJob (id : Nat)
  | endNode (g node code : Nat)
  | startNode (g node : Nat)
  | pollNode (g node : Nat)
  | beginCal (id core : Nat)
  | endCalibs
  | takeFlip (i : Nat)
  | endFlip (gran : Nat)
  | placeRecord (part : Nat)
  -- the schedulers
  | admission (ix : Nat)
  | testDependence (ix : Nat)
  | rollUp (ix : Nat)
  | releaseBarrier (ix : Nat)
  | endEbb (ix : Nat)
  | audit (ix : Nat)
  | retry (ix task : Nat)
  | steal (ix die : Nat)
  | dispatch (die : Nat)
  | startQuarantined
  -- the firmware and the memory system
  | endChunk (die : Nat)
  | powerOn (col : Nat)
  | poweredOn (col : Nat)
  | powerDown (col : Nat)
  | rebuildColumn (col : Nat)
  | decay
  | endScrub (part : Nat)
  | endStore
  | endRestart (die : Nat)
  | sendInval
  | askSpdm
  | changeIslands
  -- requests from outside
  | ask (n : Nat)
  -- what comes at its time
  | endChange (cl : Nat)
  | endRetrain (col : Nat)
  | raiseFloor
  | retryFetch (q : Nat)
  | stallFetch (q : Nat)
  | recheckWait (q : Nat)
  | limitWait (q : Nat)
  | readGfq
  | endFence
  | timeout (ix task : Nat)
  | endQuarantined (ix : Nat)
  | limitPark (core bank : Nat)
  | limitWalk (core bank : Nat)
  | missDeadline (seq : Nat)
  | limitHello
  | limitSnoop (line : Nat)
  | limitSpdm
  deriving DecidableEq, Repr

/-- The packet that a stream carries out takes effect, as its kind says (Table 4.3). -/
def Work.carry (w : Work) (q : Nat) : Work :=
  match pkKind ((w.dev.stream q).pkt.getD 0) with
  | 0x80 => carryLaunch 0x80 q w
  | 0x81 => carryLaunch 0x81 q w
  | 0x82 => beginWait q w
  | 0x83 => carrySignal q w
  | 0x84 => carryLoopBegin q w
  | 0x85 => carryLoopEnd q w
  | 0x86 => carryCond q w
  | 0x87 => carryCopy q w
  | 0x88 => carryFence q w
  | 0x89 => carryGraph q w
  | 0x8A => carryCalibrate q w
  | 0x8B => carryFlip q w
  | 0x8C => carrySummary q w
  | 0x8D => carryQclear q w
  | _ => w

/-- The auditor replays the oldest piece of a tide's work, no core having erred (R145, R262). -/
def Work.audit (w : Work) (ix : Nat) : Work := replayAudit ix true w

/-- A request from outside that has waited is made again (R50, R78). -/
def Work.ask (w : Work) (n : Nat) : Work :=
  match w.dev.asks[n]? with
  | none => w
  | some a =>
    let w1 := w.mapDev fun d => { d with asks := d.asks.eraseIdx n }
    match a.kind with
    | 0 => hostRequest a.req w1
    | 1 => guestRequest a.req w1
    | _ => peerRequest a.port a.req w1

/-- An action takes effect. -/
def Work.act (w : Work) (m : Move) : Work :=
  match m with
  | .access core bank => w.performAccess core bank
  | .snoop line => w.askFor line
  | .overtake core bank => w.overtake core bank
  | .evict line => w.writeBack line
  | .evictBanked line => w.evictBanked line
  | .queueOp core bank => operateAtHome core bank w
  | .wake core bank => wakePark core bank w
  | .startCopy core eng => w.startCopy core eng
  | .stepCopy core eng id => w.stepCopy core eng id
  | .stopCopy core eng => w.stopCopy core eng
  | .finishCopy core eng id => w.finishCopy core eng id
  | .startLoad core => w.startLoad core
  | .stepLoad core => w.stepLoad core
  | .finishLoad core => w.finishLoad core
  | .finishCal core => w.finishCal core
  | .fetch q => fetchPacket q w
  | .carry q => w.carry q
  | .replay q => takeReplay q w
  | .startJob die => startJob die w
  | .takeService die cb => takeService die cb w
  | .stepJob die id => stepJob die id w
  | .endJob id => endJob id w
  | .endNode g node code => endNode g node code w
  | .startNode g node => startNode g node w
  | .pollNode g node => pollNode g node w
  | .beginCal id core => beginCal id core w
  | .endCalibs => endCalibs w
  | .takeFlip i => takeFlip i w
  | .endFlip gran => endFlip gran w
  | .placeRecord part => placeRecord part w
  | .admission ix => admitLaunch ix w
  | .testDependence ix => testDependence ix w
  | .rollUp ix => rollUp ix w
  | .releaseBarrier ix => releaseBarrier ix w
  | .endEbb ix => endEbb ix w
  | .audit ix => w.audit ix
  | .retry ix task => retryTranslation ix task w
  | .steal ix die => stealFor ix die w
  | .dispatch die => dispatch die w
  | .startQuarantined => startQuarantined w
  | .endChunk die => endChunk die w
  | .powerOn col => powerOn col w
  | .poweredOn col => poweredOn col w
  | .powerDown col => powerDown col w
  | .rebuildColumn col => w.rebuildColumn col
  | .decay => w.decay
  | .endScrub part => endScrub part w
  | .endStore => endStore w
  | .endRestart die => endRestart die w
  | .sendInval => sendInval w
  | .askSpdm => askSpdm w
  | .changeIslands => w.changeIslands
  | .ask n => w.ask n
  | .endChange cl => endChange cl w
  | .endRetrain col => endRetrain col w
  | .raiseFloor => raiseFloor w
  | .retryFetch q => retryFetch q w
  | .stallFetch q => stallFetch q w
  | .recheckWait q => recheckWait q w
  | .limitWait q => limitWait q w
  | .readGfq => readGfq w
  | .endFence => endFence w
  | .timeout ix task => timeoutTranslation ix task w
  | .endQuarantined ix => endQuarantined ix w
  | .limitPark core bank => limitPark core bank w
  | .limitWalk core bank => limitWalk core bank w
  | .missDeadline seq => missDeadline [0x20, 0x21, 0x22, 0x24, 0x25] seq w
  | .limitHello => limitHello w
  | .limitSnoop line => limitSnoop line w
  | .limitSpdm => limitSpdm w

/-- An action, where it is ready. -/
def whenReady (b : Bool) (m : Move) : List Move := if b then [m] else []

/-- What an attempt leaves: its result, or, where it has met a line that it has to wait for, the state before it, with what it
waits for asked for. A line number of 2^60 or more stands for no line, but for a policy core that restarts (R83). -/
def Work.settled (w r : Work) : Work :=
  if r.dev.coh.waits.isEmpty then r
  else (r.dev.coh.waits.filter fun l => decide (l < 2 ^ 60)).foldl Work.askFor w

/-- An action is attempted. -/
def Work.move (w : Work) (m : Move) : Work := w.settled (w.act m)

/-- The first of some actions that waits for nothing takes effect. -/
def Work.firstDone (w : Work) : List Move → Option Work
  | [] => none
  | m :: t =>
    let r := w.act m
    if r.dev.coh.waits.isEmpty then some r else w.firstDone t

/-- A limit has been reached. -/
def reached (t : Option Nat) (now : Nat) : Bool := t.any fun x => decide (x ≤ now)

-- Actions that may come at any time

/-- Something must be asked for before an access to a line can go on: a guest that holds it and to which no snoop of it is on
its way, or that holds a translation that came from it (R50, R53). -/
def snoopDue (d : Dev) (l : Nat) : Bool :=
  (guestHolds d l && d.sock.snoops.all fun s => decide (s.1 ≠ l)) || d.sock.tlb.any fun e => e.lines.contains l

/-- The lines that a context's frozen issue or its watched words have to wait for. -/
def waitedLines (w : Work) (core bank : Nat) : List Nat :=
  let c := w.ctx core bank
  (match c.freeze with
    | some (.walk l, _) => [l]
    | some (.limited, _) => []
    | some (.sequencer, _) => []
    | some (.ask, _) => []
    | some (.queueWait _, _) => []
    | some (.barrier, _) => []
    | none => []) ++
    c.outs.filterMap fun o => match o.kind, o.res with
      | .word va, none => w.wordBusy core bank va
      | .word _, some _ => none
      | .load, _ => none
      | .atomic, _ => none
      | .queue, _ => none

/-- What the memory system, the queues' homes and the watch of `ctx.park` have ready for a context. -/
def ctxMoves (w : Work) (key : Nat) (c : Ctx) : List Move :=
  let core := key / 2
  let bank := key % 2
  let ready := w.accessReady core bank
  whenReady ready (.access core bank) ++ whenReady (c.overtaken.isSome && !c.accs.isEmpty) (.overtake core bank) ++
    ((waitedLines w core bank).filter (snoopDue w.dev)).map .snoop ++
    (match c.accs with
      | [] => []
      | a :: _ => whenReady (!ready && snoopDue w.dev (a.pa / 64)) (.snoop (a.pa / 64))) ++
    whenReady c.nextQueueOp.isSome (.queueOp core bank) ++
    (match c.st with
      | .parked (.line _ _ hit) => whenReady hit (.wake core bank)
      | .parked (.queue _) => []
      | .parked (.woken _) => []
      | .parked (.walk _ _ _) => []
      | .idle => []
      | .ready => []
      | .entering _ => []
      | .reported => [])

/-- What some sectors, read or written by an engine of a core, have to wait for and is yet to be asked for (R50, R53). -/
def sectorSnoops (w : Work) (who : Issuer) (ss : List (Spot × Nat × Bool)) : List Move :=
  if w.dev.sock.dir.isEmpty ∧ w.dev.sock.tlb.isEmpty then []
  else ss.flatMap fun s =>
    if sectorReady w who s.1 s.2.1 s.2.2 then []
    else match reachPhys w who s.1.kind s.1.cls (32 * s.2.1 : Nat) s.2.2 false with
      | .error _ => []
      | .ok x => whenReady (snoopDue w.dev (x.1 / 64)) (.snoop (x.1 / 64))

/-- The same for a running command of a copy engine. -/
def commandSnoops (w : Work) (core : Nat) (c : CopyCmd) : List Move :=
  sectorSnoops w (c.who core) (c.left.flatMap fun piece =>
    ((if c.form = 5 then ({ kind := 1 } : Spot) else c.o2), piece.2, true) ::
      (c.needs piece).map fun s => (s.2, s.2.addr.toNat / 32, false))

/-- What a core's copy engines have ready. -/
def engineMoves (w : Work) (core eng : Nat) (k : Core) : List Move :=
  whenReady (startable k eng).isSome (.startCopy core eng) ++
    whenReady (k.qui.any fun x => decide (x.1 = eng) && runsOn k eng x.2) (.stopCopy core eng) ++
    (k.engineCmds eng).flatMap fun c =>
      whenReady (c.running && !c.stopped && !c.left.isEmpty && c.err.isNone) (.stepCopy core eng c.id) ++
        commandSnoops w core c ++ whenReady (copyEnded w core c) (.finishCopy core eng c.id)

/-- What a core's weight-load stream has ready. -/
def streamMoves (w : Work) (core : Nat) (k : Core) : List Move :=
  match k.strm with
  | [] => []
  | x :: _ =>
    whenReady (!x.started && (decide (x.form = 2) || loadReady w core x)) (.startLoad core) ++
      whenReady (x.started && !x.left.isEmpty && x.err.isNone) (.stepLoad core) ++
      (if x.started then sectorSnoops w { core := core, bank := x.ctx, part := x.part, sec := x.sec }
        (x.left.map fun s => ((if s.1 = 0 then x.src else x.scale), s.2, false)) else []) ++
      whenReady (loadEnded w core).isSome (.finishLoad core)

/-- What a core's engines have ready. -/
def coreMoves (w : Work) (core : Nat) (k : Core) : List Move :=
  engineMoves w core 0 k ++ engineMoves w core 1 k ++ streamMoves w core k

/-- The queue's front end has cause to read its head slot: a change notice, a record in it, or a block that has gone bad
(R85, R98). -/
def fetchDue (w : Work) (q : Nat) (h : Home) : Bool :=
  mayFetch w q && (w.dev.stream q).retryAt.isNone && ((w.dev.stream q).stallAt.isNone || pkV (w.pread (headSlot w q) 2)) &&
    (h.notice || decide ((w.block q).used ≠ 0) || decide (blockReason w q ≠ 0))

/-- What the front ends and copy services have ready for a queue. -/
def queueMoves (w : Work) (q : Nat) (h : Home) : List Move :=
  let s := w.dev.stream q
  whenReady (fetchDue w q h) (.fetch q) ++
    (match s.pkt with
      | none => whenReady (s.pos.isSome && decide (s.st ≠ 2)) (.replay q)
      | some p => whenReady (!s.waiting && (current w q (pkKind p)).isSome) (.carry q)) ++
    whenReady (decide (w.dev.mode = .running) && serviceDue w q && w.dev.partRuns (w.block q).owner) (.takeService (feDie w q) q)

/-- What a copy service has ready. -/
def serviceMoves (w : Work) (die : Nat) : List Move :=
  let js := w.dev.copies die
  whenReady ((js.any fun j => !j.running) && decide ((runningCopies w.dev die).length < 16)) (.startJob die) ++
    js.flatMap fun j =>
      whenReady (j.running && !j.ended) (.stepJob die j.id) ++ whenReady j.ended (.endJob j.id)

/-- What a graph instance has ready. -/
def graphMoves (w : Work) (g : Nat) (x : Graph) : List Move :=
  if w.dev.partRuns x.tk.part then (readyNodes w.dev x).map (fun i => .startNode g i) else []

/-- What the front ends have ready beside the streams. -/
def frontMoves (w : Work) : List Move :=
  let d := w.dev
  (List.range 4).flatMap (serviceMoves w) ++
    d.nodeEnds.map (fun n => .endNode n.1 n.2.1 n.2.2) ++
    d.fe.graphs.flatMap (fun g => graphMoves w g.1 g.2) ++
    (d.fe.calibs.filter fun c => policyRuns w c.tk.q).flatMap (fun c =>
      (c.cores.filter (betweenTides d)).map fun k => .beginCal c.id k) ++
    whenReady (d.fe.calibs.any fun c => policyRuns w c.tk.q && c.cores.isEmpty && !calibrating d c.id) .endCalibs ++
    ((List.range d.fe.flips.length).filter fun i => (d.fe.flips[i]?).any fun x => x.gran.isNone && policyRuns w x.tk.q).map
      (fun i => .takeFlip i) ++
    (d.fe.flips.filter fun x => policyRuns w x.tk.q && flipEnds d x).filterMap (fun x => x.gran.map .endFlip) ++
    d.events.map fun e => .placeRecord e.part

/-- What the schedulers have ready for a launch. -/
def launchMoves (w : Work) (ix : Nat) (l : Launch) : List Move :=
  if l.ended then []
  else
    whenReady (decide (l.st = 1) && !l.admitted && w.dev.partRuns l.part) (.admission ix) ++
      whenReady (l.floods && rolledUp l) (.rollUp ix) ++
      whenReady (mayRelease w.dev ix) (.releaseBarrier ix) ++
      whenReady (decide (l.st = 2) && decide (l.phase = .ebb) && l.doutSince.isNone &&
        l.gang.flatten.all (hasReported w.dev ix)) (.endEbb ix) ++
      whenReady (decide (l.st = 2) && !l.audits.isEmpty) (.audit ix) ++
      l.steals.map (fun s => .steal ix s.thief) ++
      ((List.range 4).filter fun die => l.floods && w.dev.partRuns l.part && (l.steals.all fun s => decide (s.thief ≠ die)) &&
        decide ((l.ranges.get die (0, 0)).2 ≤ (l.ranges.get die (0, 0)).1) && (victimOf w.dev l die).isSome &&
        (pickQuire w.dev ix die).isSome).map fun die => .steal ix die

/-- The columns whose layers may have to change: those the state lists, and those of the allocated granules (R182). -/
def layerColumns (d : Dev) : List Nat :=
  let spans := (d.parts.map fun p => p.2.granules).flatten.filter fun r => decide (0 < r.2) && decide (r.1 < 0x20000)
  let cols : List Nat := spans.flatMap fun r =>
    (List.range ((min (r.1 + r.2) 0x20000 - 1) / 256 - r.1 / 256 + 1)).map fun k => r.1 / 256 + k
  ((d.cols.map fun c => c.1) ++ cols).eraseDups

/-- What the firmware and the memory system have ready. -/
def firmwareMoves (d : Dev) : List Move :=
  (d.coh.swaps.filter fun x => x.inFlight).map (fun x => .endChunk x.die) ++
    ((layerColumns d).filter fun k => decide ((d.column k).layers < neededLayers d k) && (d.column k).powering.isNone).map .powerOn ++
    ((layerColumns d).filter fun k => decide (neededLayers d k < (d.column k).layers)).map .powerDown ++
    (d.cols.filter fun c => c.2.powering.isSome).map (fun c => .poweredOn c.1) ++
    d.coh.dirty.map .evict ++ ((d.coh.banked.filter fun x => x.ended d).map fun x => .evictBanked x.line) ++
    (d.cols.filter fun c => c.2.rfail).map (fun c => .rebuildColumn c.1) ++
    (d.parts.filter fun p => decide (p.2.st = 5)).map (fun p => .endScrub p.1) ++
    (d.policy.filter fun p => decide (p.2 = 1)).map (fun p => .endRestart p.1) ++
    whenReady (decide (d.sock.st = 4) && !d.sock.stale.isEmpty) .sendInval ++
    whenReady ((decide (d.sock.st = 3) || decide (d.sock.st = 4)) && d.sock.spdmBy.isNone) .askSpdm

/-- Everything that a running part may do next of itself. -/
def Work.moves (w : Work) : List Move :=
  let d := w.dev
  d.ctxs.flatMap (fun p => ctxMoves w p.1 p.2) ++
    d.cores.flatMap (fun p => coreMoves w p.1 p.2) ++
    d.homes.flatMap (fun h => queueMoves w h.1 h.2) ++
    frontMoves w ++
    d.launches.flatMap (fun p => launchMoves w p.1 p.2) ++
    (if d.launches.isEmpty then [] else
      ((List.range 4).filter fun die => mayDispatch d die && (pickLaunch d die).isSome).map (fun die => .dispatch die) ++
        whenReady ((nextQuarantined d).isSome && reservedFree d) .startQuarantined) ++
    firmwareMoves d ++ (List.range d.asks.length).map .ask ++ [.decay]

-- Actions that come at their time

/-- The limits of a context (R225, R329). -/
def ctxDue (now : Nat) (key : Nat) (c : Ctx) : List Move :=
  match c.st with
  | .parked (.line _ (some t) _) => whenReady (decide (t ≤ now)) (.limitPark (key / 2) (key % 2))
  | .parked (.walk _ t _) => whenReady (decide (t ≤ now)) (.limitWalk (key / 2) (key % 2))
  | .parked (.line _ none _) => []
  | .parked (.queue _) => []
  | .parked (.woken _) => []
  | .idle => []
  | .ready => []
  | .entering _ => []
  | .reported => []

/-- The limits of a stream (R85, R94). -/
def streamDue (w : Work) (q : Nat) (s : Stream) : List Move :=
  let now := w.dev.now
  let waits := s.waiting && (current w q 0x82).isSome
  whenReady (reached s.retryAt now && mayFetch w q) (.retryFetch q) ++
    whenReady (reached s.stallAt now && mayFetch w q) (.stallFetch q) ++
    whenReady (waits && reached s.limit now) (.limitWait q) ++
    whenReady (waits && decide (s.recheck ≤ now) && !reached s.limit now) (.recheckWait q)

/-- What a launch's rules set a time for: its dependence test and what it waits for to translate (R141, R147), and the limit of
its class (R99). -/
def launchDue (d : Dev) (ix : Nat) (l : Launch) : List Move :=
  let now := d.now
  let waited (t : Option Nat) : Bool := reached (t.map fun x => x + 60000000) now
  if l.ended ∨ (l.st ≠ 1 ∧ l.st ≠ 2 ∧ l.st ≠ 4) then []
  else
    (match l.dependsSince with
      | none => []
      | some t => if (l.quarantine ∧ l.began = false) ∨ d.partRuns l.part = false ∨ calWaits d l then []
        else whenReady (waited t) (.timeout ix 0) ++ whenReady (decide (l.recheck ≤ now)) (.testDependence ix)) ++
      whenReady (waited l.doutSince) (.timeout ix 0) ++
      whenReady (l.doutSince.isSome && decide (l.recheck ≤ now)) (.retry ix 0) ++
      l.held.flatMap (fun h => if h.since + 60000000 ≤ now then [.timeout ix h.task]
        else whenReady (decide (h.at_ ≤ now)) (.retry ix h.task)) ++
      whenReady (l.quarantine && l.began && decide (l.since + 600000000 ≤ now)) (.endQuarantined ix)

/-- The WAIT nodes of a graph whose evaluation is due, or whose limit has been reached (R94, R95). -/
def graphDue (w : Work) (g : Nat) (x : Graph) : List Move :=
  if policyRuns w x.tk.q = false then []
  else ((List.range x.nodes.length).filter fun i =>
    decide (x.nodes.getD i .done = .running) && decide (pkKind (graphPacket x.snap i) = 0x82) &&
      (reached (x.checks.get? i) w.dev.now || reached (x.limits.get? i) w.dev.now) &&
      w.dev.nodeEnds.all fun e => decide (e.1 ≠ g) || decide (e.2.1 ≠ i)).map fun i => .pollNode g i

/-- The deadlines of the guest (R42, R50, R53 to R55). -/
def sockDue (s : Sock) (now : Nat) : List Move :=
  if s.st ≠ 3 ∧ s.st ≠ 4 then whenReady (decide (s.st = 2) && reached s.helloBy now) .limitHello else
  ((s.ctl.filter fun c => c.missed s now).map fun c => .missDeadline c.seq) ++
    ((s.snoops.filter fun x => decide (x.2 ≤ now)).map fun x => .limitSnoop x.1) ++
    whenReady (reached s.spdmBy now) .limitSpdm

/-- Everything whose time has come. -/
def Work.due (w : Work) : List Move :=
  let d := w.dev
  ((d.islands.filter fun i => reached i.2.until_ d.now).map fun i => .endChange i.1) ++
    whenReady (!(offTarget d).isEmpty && !(changing d).isEmpty) .changeIslands ++
    ((d.cols.filter fun c => reached c.2.retrain d.now).map fun c => .endRetrain c.1) ++
    whenReady (decide (d.coh.floorAt + 600000 ≤ d.now)) .raiseFloor ++
    d.streams.flatMap (fun s => streamDue w s.1 s.2) ++
    d.launches.flatMap (fun p => launchDue d p.1 p.2) ++
    d.fe.graphs.flatMap (fun g => graphDue w g.1 g.2) ++
    d.ctxs.flatMap (fun p => ctxDue d.now p.1 p.2) ++
    whenReady d.sock.fence.isSome .endFence ++ whenReady (gfqDue d.sock d.now) .readGfq ++
    sockDue d.sock d.now ++
    d.cores.filterMap fun p => match p.2.strm with
      | [] => none
      | x :: _ => if x.form = 2 ∧ x.started ∧ x.due ≤ p.2.raw then some (.finishCal p.1) else none

-- The clocks

/-- Every core of a quire has given its sequencer to a bank. -/
def aligned (d : Dev) (q : List Nat) (bank : Nat) : Bool := q.all fun k => decide ((d.core k).cur = bank)

/-- The cores that issue together with a core (R139): the quire of a busy context of the bank that has the sequencer, if
every member's sequencer is there, else the core alone. -/
def unitOf (d : Dev) (core : Nat) : List Nat :=
  let b := (d.core core).cur
  let q := if (d.ctx core b).busy then quireOf d core b else
    ((d.ctxs.find? fun p => decide (p.1 % 2 = b) && p.2.busy && (quireOf d (p.1 / 2) b).contains core).map
      fun p => quireOf d (p.1 / 2) b).getD [core]
  if aligned d q b then q else [core]

/-- The core waits for other members of its quire to have their sequencers back. -/
def misaligned (d : Dev) (core : Nat) : Bool :=
  let b := (d.core core).cur
  (d.ctx core b).busy && !aligned d (quireOf d core b) b

/-- A cycle of the unit that a core leads. Where it meets a line that it has to wait for, its cores issue nothing in this
cycle. -/
def Work.unitCycle (w : Work) (core : Nat) : Work :=
  let q := if misaligned w.dev core then [core] else unitOf w.dev core
  let rest (a : Work) : Work :=
    q.foldl (fun x k => (x.updCore k fun c => { c with raw := c.raw + 1 }).restCycle k) a
  if misaligned w.dev core then rest w
  else
    let r := w.coreCycle q
    if r.dev.coh.waits.isEmpty then r else rest (w.settled r)

/-- A core has something for its clock to do: work in a context, a pass, or a command of the weight-load stream. -/
def active (d : Dev) (core : Nat) : Bool :=
  (d.ctx core 0).busy || (d.ctx core 1).busy || !(d.core core).passes.isEmpty || !(d.core core).strm.isEmpty

/-- The numbers of the cores that the state lists. -/
def listedCores (d : Dev) : List Nat :=
  (List.range 512).filter fun k =>
    (d.ctxs.get? (2 * k)).isSome || (d.ctxs.get? (2 * k + 1)).isSome || (d.cores.get? k).isSome

/-- An island's clock has a cycle in the next cycle of the reference clock: none in a change of operating point (R17). -/
def Island.ticks (i : Island) : Bool := i.until_.isNone && decide (24 ≤ i.phase + i.op)

/-- An island after a cycle of the reference clock. -/
def Island.tick (i : Island) : Island :=
  if i.until_.isSome then i else { i with phase := (i.phase + i.op) % 24 }

/-- The first of what waits outside for which something is found, and the rest. -/
def firstInput {α : Type} (f : Instr → Option α) : List Instr → Option (α × List Instr)
  | [] => none
  | i :: t => match f i with
    | some x => some (x, t)
    | none => (firstInput f t).map fun y => (y.1, i :: y.2)

/-- A measurement, taken at its time where one waits outside. -/
def Work.takeTimed {α : Type} (w : Work) (f : Instr → Option α) (act : α → Work → Work) : Work :=
  match firstInput f w.dev.inputs with
  | none => w
  | some x => act x.1 (w.mapDev fun d => { d with inputs := x.2 })

/-- The readings of a sensor sample (R31). -/
def readingsOf : Instr → Option (List Int)
  | .sensorSample rs => some rs
  | _ => none

/-- The draw of a power estimate (R34). -/
def drawOf : Instr → Option Nat
  | .powerEstimate x => some x
  | _ => none

/-- What happens only at its own time: the samples of the sensors and the estimates of the power (R31, R34). -/
def isTimed (i : Instr) : Bool := (readingsOf i).isSome || (drawOf i).isSome

/-- Every 600 cycles of the reference clock, from 0, the sensors are read and the power is estimated, before any core's cycle
begins (R31, R33, R34). -/
def Work.sample (w : Work) : Work :=
  if w.dev.now % 600 = 0 then (w.takeTimed readingsOf sampleSensors).takeTimed drawOf estimatePower else w

/-- A cycle of the reference clock passes, and the cores whose clocks have a cycle with it take their turns. -/
def Work.nextCycle (w0 : Work) : Work :=
  let w := (w0.mapDev fun d => { d with now := d.now + 1 }).sample
  w.mapDev fun d => { d with
    islands := d.islands.map fun i => (i.1, i.2.tick)
    turn := (listedCores d).filter fun k =>
      active d k && (d.island (coreCluster k)).ticks && (misaligned d k || decide ((unitOf d k).head? = some k)) }

end Sys2Proof.Machine
end

