-- ==== Sys2Proof/Machine/Place.lean ====
section
/-! DEFINITION. Placing one slot word where the next step issues it: a launch, its partition, its page tables and its
bundle in memory, and a task of it on core 0 (notes/assumptions/11.md). -/

namespace Sys2Proof.Machine

/-- The address at which the bundle stands, virtual and physical. -/
def placedAt : Nat := 0x10000

/-- The bundle whose one slot word is w: TAG = 5 in the header, every other field and word 0 (R264 to R266). -/
def bundleOf (sl : Slot) (w : Word32) : Nat := 0x50 + 2 ^ (32 * sl.num) * w.toNat

/-- Page tables at 0x1000 to 0x4000: root, two tables, and a table whose first entry is a 2 MiB leaf at 0 with every
permission (R160, R161). -/
def placedTables : List (Nat × Nat) := [(0x1000, 0x2001), (0x2000, 0x3001), (0x3000, 0x4001), (0x4000, 0x3F)]

/-- The partition that owns cluster 0 and the first granule of memory. -/
def placedPart (d : Dev) : Part :=
  { st := 3, root := 0x1000, clusters := 1, granules := [(0, 1)], world := inRanges d.secGran 0 }

/-- The header of a launch with one task on quires of one core: one field, every accumulator unit, 64 KiB of local store,
and long limits (Table 6.1). -/
def placedHeader : Nat :=
  0x43474C48 + 2 ^ (8 * 4) + 2 ^ (8 * 8) * 0x09 + 2 ^ (8 * 10) * 0xFF + 2 ^ (8 * 12) + 2 ^ (8 * 14) + 2 ^ (8 * 16) +
    2 ^ (8 * 24) + 2 ^ (8 * 32) + 2 ^ (8 * 40) * 0x10000 + 2 ^ (8 * 56) + 2 ^ (8 * 57) * 255 +
    2 ^ (8 * 60) * 0x1000000 + 2 ^ (8 * 64) * 0x1000000 + 2 ^ (8 * 68) * 1000000

/-- The launch, whose only task runs. -/
def placedLaunch : Launch :=
  { st := 2, part := 0, hdr := placedHeader, extent := 1, tides := 1, flood := placedAt, ebb := placedAt, clusters := [0],
    gang := [[0]], phase := .flood, ranges := [(0, (1, 1))], admitted := true }

/-- The state with what a bundle needs to be fetched and issued at core 0 in the next step. -/
def Work.place (w : Work) (bundle : Nat) : Work :=
  let d := w.dev
  let w1 := w.mapDev fun _ => { d with
    mode := .running
    turn := [0]
    parts := d.parts.set 0 (placedPart d)
    launches := d.launches.set 0 placedLaunch
    islands := d.islands.set 0 { d.island 0 with until_ := none }
    cols := d.cols.set 0 { d.column 0 with
      bus := if (d.column 0).bus = 3 then 0 else (d.column 0).bus, rfail := false, wiped := false,
      retrain := none, tags := (d.column 0).tags.del 0, layers := max 1 (d.column 0).layers }
    dataKeys := d.dataKeys.del 0
    coh := { d.coh with
      flipping := d.coh.flipping.filter fun g => decide (512 ≤ g)
      poison := d.coh.poison.filter fun p => decide (p.1 ≠ placedAt / 32)
      errors := d.coh.errors.filter fun p => decide (p.1 ≠ placedAt / 32) } }
  let w2 := placedTables.foldl (fun a e => a.pwrite e.1 8 e.2) (w1.pwrite placedAt 32 bundle)
  let w3 := (w2.updCore 0 fun c => { c with passes := [], goAt := 0 }).updCtx 0 0 fun c =>
    { c.release with lastIx := some 0, tframe := 0x8000 }
  w3.startTask 0 0 0 [0] []

end Sys2Proof.Machine
end

