-- ==== Sys2Proof/Machine/Step.lean ====
section
/-! DEFINITION. One step of the part: a unit's cycle, an action of the part, something from outside, or the passing of a
cycle of the reference clock. -/

namespace Sys2Proof.Machine

/-- The first thing that waits outside and is bound to no time happens to the part: an event of the opcode table. A slot form is
none. Where it meets a line that it has to wait for, it goes on waiting outside (R24, R50, R76, R78, R141, R163). -/
def takeInput (σ : State) : Host.Outcome State Fault Refusal :=
  match firstInput (fun i => if isTimed i then none else some i) σ.dev.inputs with
  | none => .next { σ with dev := { σ.dev with inputs := [] } }
  | some (i, rest) =>
    let τ := { σ with dev := { σ.dev with inputs := rest } }
    if (encode i).isEmpty = false then .next τ
    else match exec i τ with
      | .next r => if r.dev.coh.waits.isEmpty then .next r else .next ((Work.begin σ).settled (Work.begin r)).commit
      | .fault f => .fault f
      | .refused r => .refused r

/-- One of the things that may happen next, or time goes on; where there is a choice it is free. Number 0 is time, the
next numbers are the actions, and the last, if there is one, is what waits outside. -/
def choose (ms : List Move) (σ : State) : Host.Outcome State Fault Refusal :=
  let n := ms.length + (if σ.dev.inputs.all isTimed then 0 else 1)
  if n = 0 then .next (Work.begin σ).nextCycle.commit
  else
    let f := (Work.begin σ).free
    let k := f.1 % (n + 1)
    if k = 0 then .next f.2.nextCycle.commit
    else match ms[k - 1]? with
      | some m => .next (f.2.move m).commit
      | none => takeInput f.2.commit

/-- A step of a running part: the units whose clocks have a cycle now take it in turn; then what is due happens, but for
what has to wait; then what may. -/
def runStep (σ : State) : Host.Outcome State Fault Refusal :=
  match σ.dev.turn with
  | core :: rest =>
    .next (((Work.begin σ).mapDev fun d => { d with turn := rest }).unitCycle core).commit
  | [] =>
    match (Work.begin σ).due with
    | [] => choose (Work.begin σ).moves σ
    | m :: ms => match (Work.begin σ).firstDone (m :: ms) with
      | some r => .next r.commit
      | none => choose (m :: ms ++ (Work.begin σ).moves) σ

/-- One step (R32, R38, R80). After a thermal trip only what comes from outside, such as a reset, changes anything. -/
def step (σ : State) : Host.Outcome State Fault Refusal :=
  match σ.dev.mode with
  | .bringUp => .next (resetDevice (Work.begin σ)).commit
  | .running => runStep σ
  | .recovery => choose (whenReady σ.dev.recovery.storing.isSome .endStore) σ
  | .tripped => match σ.dev.inputs with
    | [] => .fault .thermalTrip
    | _ :: _ => takeInput σ

/-- The state with an instruction of `nbits` bits placed where the next step fetches and issues it; a word that no slot
takes leaves the state. -/
def State.withFetchWord (s : State) (nbits w : Nat) : State :=
  if nbits ≠ 32 then s
  else match slotFor (BitVec.ofNat 32 w) with
    | none => s
    | some (sl, _) => ((Work.begin s).place (bundleOf sl (BitVec.ofNat 32 w))).commit

end Sys2Proof.Machine
end

