-- ==== Sys2Proof/Safety.lean ====
section
/-! DEFINITION. What counts as a safe run, and the terms in which statements about the machine are put: a state with one
part replaced, the issuing context, operands that read, results in flight. -/

namespace Sys2Proof.Safety

open Sys2Proof Sys2Proof.Machine

-- Runs

/-- n steps lead from one state to another, none of them a fault or a refusal. -/
inductive Runs : Nat → State → State → Prop where
  | refl (s : State) : Runs 0 s s
  | step {n : Nat} {s t u : State} : step s = .next t → Runs n t u → Runs (n + 1) s u

/-- A state from which the machine goes on. -/
def GoesOn (s : State) : Prop := ∃ t, step s = .next t

/-- A run is safe when every state it reaches goes on. -/
def SafeFrom (s : State) : Prop := ∀ n t, Runs n s t → GoesOn t

/-- The invariant that every step keeps: memory is in its canonical form. -/
def Inv (s : State) : Prop := s.mem.wf = true

-- A state with one part replaced

/-- The state with everything but the bytes replaced; every byte is as it was. -/
def withDev (σ : State) (d : Dev) : State := ({ Work.begin σ with dev := d } : Work).commit

/-- Every byte of the two states' memories is the same. -/
def SameBytes (σ t : State) : Prop := ∀ a, t.mem.read a = σ.mem.read a

/-- The key of the issuing context among the contexts. -/
def key (σ : State) : Nat := 2 * σ.dev.issue.core + σ.dev.issue.bank

/-- The issuing context. -/
def me (σ : State) : Ctx := σ.dev.ctx σ.dev.issue.core σ.dev.issue.bank

/-- The issuing core. -/
def myCore (σ : State) : Core := σ.dev.core σ.dev.issue.core

/-- The state with the issuing context replaced; all else is as it was. -/
def withMe (σ : State) (c : Ctx) : State := withDev σ { σ.dev with ctxs := σ.dev.ctxs.set (key σ) c }

/-- The state with the issuing core replaced. -/
def withCore (σ : State) (c : Core) : State := withDev σ { σ.dev with cores := σ.dev.cores.set σ.dev.issue.core c }

/-- The state unchanged but for the form of its list of bytes. -/
def same (σ : State) : State := withDev σ σ.dev

-- A step around the instruction it runs

/-- The landings of a core's cycle, its clock counted on: what a step does before the causes of passes (R208). -/
def afterLandings (σ : State) (core bank : Nat) (rest : List Nat) : Work :=
  let w := ((Work.begin σ).mapDev fun d => { d with turn := rest }).updCore core fun c => { c with raw := c.raw + 1 }
  ((w.setIssue { alone := true }).landings core bank).share [core] bank 0

/-- What a step does before the bundle: landings, then the causes of completed passes (R226, R259). -/
def beforeBundle (σ : State) (core bank : Nat) (rest : List Nat) : Work :=
  (((afterLandings σ core bank rest).setIssue { alone := true }).raiseAfter core bank).share [core] bank 0

/-- The context is ready at level 0. -/
def readyAt (w : Work) (core bank : Nat) : Prop := (w.ctx core bank).st = .ready ∧ (w.ctx core bank).lvl = 0

/-- Copies that an ebb places start, the PC goes to the next bundle, and the issue is counted (R144, R191, R220, R222,
R313). -/
def onward (w : Work) (core bank : Nat) (r : Issued) : Work :=
  ((w.startPlaced core bank).updCtx core bank fun c => c.noteIssue r.pc (bit r.bundle 31)).nextBundle core bank r

/-- The end of the cycle of a core alone: traps are taken, its clock goes on, and the distance limit is looked at. -/
def endCycle (w : Work) (core bank : Nat) : State :=
  (limitDistance core bank ((w.share [core] bank 0).tick [core])).commit

/-- Nothing in a state waits for a line. -/
def Settled (s : State) : Prop := s.dev.coh.waits = []

/-- A core alone is about to issue the bundle b, which holds the instruction i in slot n and no other, and nothing holds
or stops it; w is the state in which it issues and r the record of its bundle. -/
structure AboutToIssue (σ : State) (core bank : Nat) (rest : List Nat) (b n : Nat) (i : Instr) (r : Issued) (w : Work) :
    Prop where
  running : σ.dev.mode = .running
  turn : σ.dev.turn = core :: rest
  together : misaligned σ.dev core = false
  alone : unitOf σ.dev core = [core]
  bank_ : (σ.dev.core core).cur = bank
  ready : readyAt (Work.begin σ) core bank
  free : (σ.dev.ctx core bank).halt ≠ 2
  landed : readyAt (afterLandings σ core bank rest) core bank
  raised : readyAt (beforeBundle σ core bank rest) core bank
  first : rankIn (beforeBundle σ core bank rest) [core] bank core = 0
  now : startsLater (beforeBundle σ core bank rest) core = false
  done : ((beforeBundle σ core bank rest).ctx core bank).owes = false
  here : fetchWaits (beforeBundle σ core bank rest) core bank ((beforeBundle σ core bank rest).ctx core bank).pc = none
  fetched : front (beforeBundle σ core bank rest) core bank = (beforeBundle σ core bank rest, .ok b)
  plain : bit b 31 = false ∧ hdrSync b = 0
  record : r = ((beforeBundle σ core bank rest).ctx core bank).stands b
  place : w = (beforeBundle σ core bank rest).takePlace core bank r
  arrived : (w.ctx core bank).missing (w.core core).clk = []
  answered : overAsked w bank [(0, core, r)] = []
  slot : n ∈ [1, 2, 3, 4, 5, 6]
  decoded : decodeSlot (slotOf n) (bundleWord b n) = .ok (some i)
  only : ∀ m ∈ [1, 2, 3, 4, 5, 6], m ≠ n → bundleWord b m = 0
  clear : ∀ v ∈ slotVerdicts w core bank r false, v.2 = .ok

-- A slot form at its issue

/-- The slot form takes its effect: it is not only being checked. -/
def Takes (σ : State) : Prop := σ.dev.issue.probe = false

/-- The guard of the S slot is true (R209). -/
def On (σ : State) : Prop := guardTrue (Work.begin σ) = true

/-- The guard of the S slot is false. -/
def Off (σ : State) : Prop := guardTrue (Work.begin σ) = false

/-- Selector sel of the S-slot space reads v (R272). -/
def Reads (σ : State) (sel : BitVec 7) (v : Word) : Prop := readSel (Work.begin σ) sel.toNat = .ok v

/-- The operand port of a scalar unit gives v after its load (R209). -/
def Port (σ : State) (unit : Nat) (om : BitVec 2) (os : BitVec 7) (v : Word) : Prop :=
  readPort (Work.begin σ) unit om os = .ok v

/-- Selector sel of the V-slot space reads v in a view (R273, R331). -/
def VReads (σ : State) (view : View) (sel : BitVec 7) (v : Vec) : Prop :=
  readVSel (Work.begin σ) view sel.toNat = .ok v

/-- The port of the issuing vector ALU gives v in a view after its load. -/
def VPort (σ : State) (view : View) (om : BitVec 2) (os : BitVec 7) (v : Vec) : Prop :=
  readVPort (Work.begin σ) view om os = .ok v

/-- A context whose operand port of a scalar unit has received v. -/
def loaded (unit : Nat) (v : Word) (c : Ctx) : Ctx := { c with port := c.port.set unit v }

/-- The issuing vector ALU: 0 VA0, 1 VA1. -/
def alu (σ : State) : Nat := if σ.dev.issue.slot = 3 then 1 else 0

/-- A context whose operand port of the issuing vector ALU has received v. -/
def vloaded (σ : State) (v : Vec) (c : Ctx) : Ctx := { c with vport := c.vport.set (alu σ) v }

/-- The issuing context with a result in flight: it lands lat cycles from now (R208). -/
def inFlight (σ : State) (lat : Nat) (e : Effect) (c : Ctx) : Ctx :=
  { c with
    seq := c.seq + 1
    flights := c.flights ++ [{ due := (myCore σ).clk + lat, slot := σ.dev.issue.slot, seq := c.seq, eff := e }] }

-- What a form sends away

/-- A context that has recorded one more operation. -/
def numbered (c : Ctx) : Ctx := { c with seq := c.seq + 1 }

/-- The landing-buffer entry of a form that issues now (R214, R215): a is what its TS selector and b what its port
gave, dflt the delay where LD is 0. -/
def outEntry (σ : State) (kind : LandKind) (latch : Nat) (dst : Option Nat) (a b : Word) (dflt : Nat)
    (res : Option Arrived) : Outstanding :=
  { id := (me σ).seq, due := (myCore σ).clk + (if σ.dev.issue.ld = 0 then dflt else σ.dev.issue.ld), kind := kind,
    latch := latch, dst := dst, pc := σ.dev.issue.pc, word := σ.dev.issue.word, ld := σ.dev.issue.ld, operand := b,
    trigger := a, res := res }

/-- The access that a form issuing now sends to its home under a translation (R189). -/
def accEntry (σ : State) (kind : AccessKind) (va : Nat) (x : Xlat) (arms : Bool) : Access :=
  { kind := kind, va := va, pa := x.pa, pc := σ.dev.issue.pc, cls := x.cls, seq := (me σ).seq, arms := arms,
    at_ := (myCore σ).clk, handle := x.handle, lines := x.lines, tmin := linesTime σ.dev x.lines }

/-- The access that a form issuing now sends to its home through an extent (R305). -/
def extEntry (σ : State) (kind : AccessKind) (e : Extent) (off : Nat) : Access :=
  { kind := kind, va := e.va + off, pa := e.pa + off, pc := σ.dev.issue.pc, cls := e.cls, seq := (me σ).seq,
    at_ := (myCore σ).clk, tmin := linesTime σ.dev e.lines }

/-- The address translates for the issuing context, and no publish of its handle waits (R160 to R169). -/
def Translates (σ : State) (need : List Need) (va base : Nat) (parks : Bool) (x : Xlat) : Prop :=
  xlate (Work.begin σ) need va base parks = .ok x

/-- A landing-buffer entry is free (R215). -/
def HasBuffer (σ : State) : Prop := (me σ).outs.length < 8

/-- The form completes: what it leaves in the issuing context is c, no other context changes, and no byte does. -/
def Leaves (σ : State) (r : Host.Outcome State Fault Refusal) (c : Ctx) : Prop :=
  ∃ t, r = .next t ∧ me t = c ∧ SameBytes σ t ∧ t.dev.issue = σ.dev.issue ∧
    ∀ k, k ≠ key σ → t.dev.ctxs.get? k = σ.dev.ctxs.get? k

/-- The lane mask of the issuing V slot (R332). -/
def lanes (σ : State) : Mask := laneMask (Work.begin σ)

/-- Nothing that software can read of the issuing context changes: registers, latches, marks, nest registers, masks,
control words, program counter, loop and branch state. -/
def KeepsRegisters (c d : Ctx) : Prop :=
  d.s = c.s ∧ d.p = c.p ∧ d.vm = c.vm ∧ d.v = c.v ∧ d.lat = c.lat ∧ d.vlat = c.vlat ∧ d.mark = c.mark ∧
    d.nest = c.nest ∧ d.barmask = c.barmask ∧ d.ext = c.ext ∧ d.pc = c.pc ∧ d.br = c.br ∧ d.loop = c.loop ∧
    d.lvl = c.lvl ∧ d.plvl = c.plvl ∧ d.cause = c.cause ∧ d.tval = c.tval ∧ d.epc = c.epc ∧
    d.tvec = c.tvec ∧ d.handler = c.handler ∧
    d.tdel = c.tdel ∧ d.tframe = c.tframe ∧ d.frz = c.frz ∧ d.frzlim = c.frzlim ∧ d.qwait = c.qwait ∧
    d.split = c.split ∧ d.bndlim = c.bndlim ∧ d.mmode = c.mmode ∧ d.l2div = c.l2div ∧ d.lts = c.lts ∧ d.st = c.st

/-- A result of a V slot in flight under a byte mask (R332): the latch gets 0 in the other bytes, vWD keeps them. -/
def vFlight (σ : State) (lat latch : Nat) (val : Vec) (act : Mask) (dst : Option Nat) (mark : Nat) (c : Ctx) : Ctx :=
  inFlight σ lat (.vector latch (val &&& spreadMask act) val act dst mark) c

/-- The elements of a vector value combined with those of another, as n-bit elements. -/
def zipElems (n : Nat) (op : Nat → Nat → Nat) (a b : Vec) : Vec :=
  packVec n (List.zipWith op (elements n a) (elements n b))

/-- The elements of a vector value each replaced, as n-bit elements. -/
def mapElems (n : Nat) (op : Nat → Nat) (a : Vec) : Vec := packVec n ((elements n a).map op)

/-- The float format that Q names (Table 11.1): FP32, BF16, FP16. -/
def floatOf (q : BitVec 2) : Fmt := if q.toNat = 0 then .fp32 else if q.toNat = 1 then .bf16 else .fp16

/-- The integer format that Q names (Table 11.1): INT8, INT16, INT32. -/
def intOf (q : BitVec 2) : Fmt := if q.toNat = 0 then .int8 else if q.toNat = 1 then .int16 else .int32

end Sys2Proof.Safety
end

