-- ==== Sys2Proof/Certificates/Slice0/Obligations.lean ====
section
/-! DEFINITION. The statements for the provers, in the order of OBLIGATIONS.json. -/

open Sys2Proof Sys2Proof.Machine Sys2Proof.Safety

-- The ALU and the multiplier

/-- R299: "`add`: A + B modulo 2^64." and the rest of its list, R301's `bext` and `wfield`: with the guard true, A and B
readable, each form lands its value in `alu.r` and, if WE = 1, in sWD, one cycle after it issues; the port keeps B;
nothing else of the machine changes at issue. R299: the forms of A alone, and `lea`: "`lea`: A + B × 2^Q." R302:
"`div`, `divu`, `rem`, `remu`: quotients and remainders of 64-bit integers" with the corners it states, and the three
products; the results land in `mul.r` and sWD after 3 or 20 cycles. -/
def Obligations.ScalarResults : Prop :=
  (∀ p ∈ ([(Instr.add, fun a b => BitVec.ofNat 64 (a.toNat + b.toNat)),
      (Instr.sub, fun a b => BitVec.ofInt 64 (a.toInt - b.toInt)),
      (Instr.and, fun a b => a &&& b), (Instr.or, fun a b => a ||| b), (Instr.xor, fun a b => a ^^^ b),
      (Instr.andn, fun a b => a &&& (b ^^^ BitVec.allOnes 64)), (Instr.orn, fun a b => a ||| (b ^^^ BitVec.allOnes 64)),
      (Instr.shl, fun a b => BitVec.ofNat 64 (a.toNat * 2 ^ (b.toNat % 64))),
      (Instr.shr, fun a b => BitVec.ofNat 64 (a.toNat / 2 ^ (b.toNat % 64))),
      (Instr.sra, fun a b => BitVec.ofInt 64 (a.toInt / 2 ^ (b.toNat % 64))),
      (Instr.rotl, fun a b => BitVec.ofNat 64 (a.toNat * 2 ^ (b.toNat % 64) + a.toNat / 2 ^ (64 - b.toNat % 64))),
      (Instr.min, fun a b => BitVec.ofInt 64 (min a.toInt b.toInt)),
      (Instr.max, fun a b => BitVec.ofInt 64 (max a.toInt b.toInt)),
      (Instr.minu, fun a b => BitVec.ofNat 64 (min a.toNat b.toNat)),
      (Instr.maxu, fun a b => BitVec.ofNat 64 (max a.toNat b.toNat)),
      (Instr.bext, fun a b => BitVec.ofNat 64
        (a.toNat / 2 ^ (b.toNat % 64) % 2 ^ min (b.toNat / 64 % 128) (64 - b.toNat % 64))),
      (Instr.wfield, fun a b => BitVec.ofNat 64
        (a.toNat % 2 ^ min (b.toNat / 64 % 128) (64 - b.toNat % 64) * 2 ^ (b.toNat % 64)))] :
      List ((BitVec 2 → BitVec 7 → BitVec 7 → BitVec 6 → BitVec 1 → Instr) × (Word → Word → Word))),
  ∀ σ om os ts wd we a b, Takes σ → On σ → Reads σ ts a → Port σ 0 om os b →
    exec (p.1 om os ts wd we) σ =
      .next (withMe σ (inFlight σ 1 (.scalar 0 (p.2 a b) (dest we wd.toNat) 0) (loaded 0 b (me σ))))) ∧
  ((∀ p ∈ ([(Instr.clz, fun a => ((List.range 64).takeWhile fun i => !a.getLsbD (63 - i)).length),
        (Instr.ctz, fun a => ((List.range 64).takeWhile fun i => !a.getLsbD i).length),
        (Instr.popc, fun a => ((List.range 64).filter fun i => a.getLsbD i).length)] :
        List ((BitVec 7 → BitVec 6 → BitVec 1 → Instr) × (Word → Nat))),
    ∀ σ ts wd we a, Takes σ → On σ → Reads σ ts a →
      exec (p.1 ts wd we) σ =
        .next (withMe σ (inFlight σ 1 (.scalar 0 (BitVec.ofNat 64 (p.2 a)) (dest we wd.toNat) 0) (me σ)))) ∧
  (∀ p ∈ ([(Instr.sext, fun n a => if 2 * (a.toNat % 2 ^ n) < 2 ^ n then BitVec.ofNat 64 (a.toNat % 2 ^ n)
          else BitVec.ofInt 64 ((a.toNat % 2 ^ n : Nat) - (2 : Int) ^ n)),
        (Instr.zext, fun n a => BitVec.ofNat 64 (a.toNat % 2 ^ n))] :
        List ((BitVec 7 → BitVec 6 → BitVec 1 → BitVec 2 → Instr) × (Nat → Word → Word))),
    ∀ σ ts wd we q a, Takes σ → On σ → Reads σ ts a →
      exec (p.1 ts wd we q) σ =
        .next (withMe σ (inFlight σ 1 (.scalar 0 (p.2 (8 * 2 ^ q.toNat) a) (dest we wd.toNat) 0) (me σ)))) ∧
  (∀ σ om os ts wd we q a b, Takes σ → On σ → Reads σ ts a → Port σ 0 om os b →
    exec (.lea om os ts wd we q) σ =
      .next (withMe σ (inFlight σ 1 (.scalar 0 (BitVec.ofNat 64 (a.toNat + b.toNat * 2 ^ q.toNat)) (dest we wd.toNat) 0)
        (loaded 0 b (me σ)))))) ∧
  (∀ p ∈ ([(Instr.mul, 3, fun a b => BitVec.ofNat 64 (a.toNat * b.toNat)),
      (Instr.mulh, 3, fun a b => BitVec.ofInt 64 (a.toInt * b.toInt / 2 ^ 64)),
      (Instr.mulhu, 3, fun a b => BitVec.ofNat 64 (a.toNat * b.toNat / 2 ^ 64)),
      (Instr.div, 20, fun a b => if b.toNat = 0 then BitVec.ofInt 64 (-1) else BitVec.ofInt 64 (a.toInt.tdiv b.toInt)),
      (Instr.divu, 20, fun a b => if b.toNat = 0 then BitVec.ofNat 64 (2 ^ 64 - 1)
        else BitVec.ofNat 64 (a.toNat / b.toNat)),
      (Instr.rem, 20, fun a b => if b.toNat = 0 then a else BitVec.ofInt 64 (a.toInt.tmod b.toInt)),
      (Instr.remu, 20, fun a b => if b.toNat = 0 then a else BitVec.ofNat 64 (a.toNat % b.toNat))] :
      List ((BitVec 2 → BitVec 7 → BitVec 7 → BitVec 6 → BitVec 1 → Instr) × Nat × (Word → Word → Word))),
  ∀ σ om os ts wd we a b, Takes σ → On σ → Reads σ ts a → Port σ 1 om os b →
    exec (p.1 om os ts wd we) σ =
      .next (withMe σ (inFlight σ p.2.1 (.scalar 1 (p.2.2 a b) (dest we wd.toNat) 0) (loaded 1 b (me σ)))))

/-- R300: a comparison lands its predicate in pWD, if WE = 1, and 1 or 0 in `alu.r`; `pand`, `por` and `pxor` do so with
the predicates they name. R300 and R301: `sel` lands A where the predicate that GP and GN name is true and B where it
is false, and is not guarded by it; `bins` puts the low bits of A into the field of sWD that B describes. -/
def Obligations.PredicateForms : Prop :=
  ((∀ p ∈ ([(Instr.seq, fun a b => decide (a.toNat = b.toNat)), (Instr.sne, fun a b => decide (a.toNat ≠ b.toNat)),
        (Instr.slt, fun a b => decide (a.toInt < b.toInt)), (Instr.sltu, fun a b => decide (a.toNat < b.toNat)),
        (Instr.sle, fun a b => decide (a.toInt ≤ b.toInt)), (Instr.sleu, fun a b => decide (a.toNat ≤ b.toNat)),
        (Instr.pset, fun a b => decide (a.toNat &&& b.toNat ≠ 0))] :
        List ((BitVec 2 → BitVec 7 → BitVec 7 → BitVec 3 → BitVec 1 → Instr) × (Word → Word → Bool))),
    ∀ σ om os ts wd we a b, Takes σ → On σ → Reads σ ts a → Port σ 0 om os b →
      exec (p.1 om os ts wd we) σ =
        .next (withMe σ (inFlight σ 1 (.pred (p.2 a b) (dest we wd.toNat)) (loaded 0 b (me σ))))) ∧
  (∀ p ∈ ([(Instr.pand, fun x y => x && y), (Instr.por, fun x y => x || y), (Instr.pxor, fun x y => xor x y)] :
        List ((BitVec 3 → BitVec 3 → BitVec 3 → BitVec 1 → Instr) × (Bool → Bool → Bool))),
    ∀ σ pb pa wd we, Takes σ → On σ →
      exec (p.1 pb pa wd we) σ =
        .next (withMe σ (inFlight σ 1
          (.pred (p.2 ((me σ).preg pa.toNat) ((me σ).preg pb.toNat)) (dest we wd.toNat)) (me σ))))) ∧
  ((∀ σ om os ts wd we a b, Takes σ → Reads σ ts a → Port σ 0 om os b →
    (On σ → exec (.sel om os ts wd we) σ =
      .next (withMe σ (inFlight σ 1 (.scalar 0 a (dest we wd.toNat) 0) (loaded 0 b (me σ))))) ∧
    (Off σ → exec (.sel om os ts wd we) σ =
      .next (withMe σ (inFlight σ 1 (.scalar 0 b (dest we wd.toNat) 0) (loaded 0 b (me σ)))))) ∧
  (∀ σ om os ts wd a b x, Takes σ → On σ → Reads σ ts a → Port σ 0 om os b → Reads σ (wd.setWidth 7) x →
    exec (.bins om os ts wd) σ =
      .next (withMe σ (inFlight σ 1 (.scalar 0
        (let lo := b.toNat % 64
         let n := min (b.toNat / 64 % 128) (64 - lo)
         BitVec.ofNat 64 (x.toNat % 2 ^ lo + 2 ^ lo * (a.toNat % 2 ^ n) + 2 ^ (lo + n) * (x.toNat / 2 ^ (lo + n))))
        (some wd.toNat) 0) (loaded 0 b (me σ))))))

/-- R209: a form whose guard is false has no effect: no port is loaded, no operand is read, and no result lands. The forms
that R300, R266, R312 and R329 except are not in the list. -/
def Obligations.GuardFalseDoesNothing : Prop :=
  (∀ f ∈ ([Instr.add, .sub, .and, .or, .xor, .andn, .orn, .shl, .shr, .sra, .rotl, .min, .max, .minu, .maxu, .bext,
        .wfield, .mul, .mulh, .mulhu, .div, .divu, .rem, .remu] :
        List (BitVec 2 → BitVec 7 → BitVec 7 → BitVec 6 → BitVec 1 → Instr)),
    ∀ σ om os ts wd we, Takes σ → Off σ → exec (f om os ts wd we) σ = .next (same σ)) ∧
  (∀ f ∈ ([Instr.lea, .ld, .ldu, .ldG, .ldE, .amoAdd, .amoAnd, .amoOr, .amoXor, .amoMin, .amoMax, .amoMinu, .amoMaxu,
        .amoSwap, .amoCas, .amoFadd] :
        List (BitVec 2 → BitVec 7 → BitVec 7 → BitVec 6 → BitVec 1 → BitVec 2 → Instr)),
    ∀ σ om os ts wd we q, Takes σ → Off σ → exec (f om os ts wd we q) σ = .next (same σ)) ∧
  (∀ f ∈ ([Instr.st, .stG, .stE] : List (BitVec 2 → BitVec 7 → BitVec 7 → BitVec 6 → BitVec 2 → Instr)),
    ∀ σ om os ts wd q, Takes σ → Off σ → exec (f om os ts wd q) σ = .next (same σ)) ∧
  (∀ f ∈ ([Instr.seq, .sne, .slt, .sltu, .sle, .sleu, .pset] :
        List (BitVec 2 → BitVec 7 → BitVec 7 → BitVec 3 → BitVec 1 → Instr)),
    ∀ σ om os ts wd we, Takes σ → Off σ → exec (f om os ts wd we) σ = .next (same σ)) ∧
  (∀ f ∈ ([Instr.pref, .cleanR, .invalR, .flushR, .publish, .bwInit, .wrcw] :
        List (BitVec 2 → BitVec 7 → BitVec 7 → Instr)),
    ∀ σ om os ts, Takes σ → Off σ → exec (f om os ts) σ = .next (same σ)) ∧
  (∀ f ∈ ([Instr.enqT, .deq, .deqT, .qpeek] : List (BitVec 3 → BitVec 7 → BitVec 6 → BitVec 1 → Instr)),
    ∀ σ n ts wd we, Takes σ → Off σ → exec (f n ts wd we) σ = .next (same σ)) ∧
  (∀ f ∈ ([Instr.enq, .enqS] : List (BitVec 3 → BitVec 7 → Instr)),
    ∀ σ n ts, Takes σ → Off σ → exec (f n ts) σ = .next (same σ)) ∧
  (∀ f ∈ ([Instr.deqS, .qstat] : List (BitVec 3 → BitVec 6 → BitVec 1 → Instr)),
    ∀ σ n wd we, Takes σ → Off σ → exec (f n wd we) σ = .next (same σ)) ∧
  (∀ σ om os ts n, Takes σ → Off σ → exec (.qbind om os ts n) σ = .next (same σ)) ∧
  (∀ σ n, Takes σ → Off σ → exec (.qdrain n) σ = .next (same σ)) ∧
  (∀ σ k, Takes σ → Off σ → exec (.loop k) σ = .next (same σ)) ∧
  (∀ σ om os wd we, Takes σ → Off σ → exec (.rdcw om os wd we) σ = .next (same σ)) ∧
  (∀ σ om os ts wd we, Takes σ → Off σ → exec (.bwWait om os ts wd we) σ = .next (same σ)) ∧
  (∀ σ om os ts wd, Takes σ → Off σ → exec (.bins om os ts wd) σ = .next (same σ)) ∧
  (∀ σ om os, Takes σ → Off σ → exec (.trap om os) σ = .next (same σ)) ∧
  (∀ σ ts wd we, Takes σ → Off σ → ∀ i ∈ ([Instr.clz ts wd we, .ctz ts wd we, .popc ts wd we] : List Instr),
    exec i σ = .next (same σ)) ∧
  (∀ σ ts wd we q, Takes σ → Off σ → ∀ i ∈ ([Instr.sext ts wd we q, .zext ts wd we q] : List Instr),
    exec i σ = .next (same σ)) ∧
  (∀ f ∈ ([Instr.nestSet, .nestDim, .nestBlk] : List (BitVec 2 → BitVec 7 → BitVec 7 → BitVec 4 → Instr)),
    ∀ σ om os ts k, Takes σ → Off σ → exec (f om os ts k) σ = .next (same σ)) ∧
  (∀ f ∈ ([Instr.taskNext, .taskDone, .tide, .yield, .eret, .fenceE, .halt, .lexit] : List Instr),
    ∀ σ, Takes σ → Off σ → exec f σ = .next (same σ))

-- Landings

/-- R208, R210 and R212: a scalar result lands in its latch and, if it names a register, in that register, with its poison
mark; "A write to `s0` is discarded"; nothing of the context but its scalar latches, scalar registers and marks
changes, nothing of another context, no other part of the machine, and no byte. R332 and R334: a vector result fills
its latch and changes of vWD the active bytes only; a write of every byte leaves its own mark, or none, and one of
some bytes leaves a mark in place. R300 and R352: a predicate and a lane mask land in the register named; p0 and vm0
keep reading 1 and all ones. Nothing else of the machine changes. R211 and R334: of the scalar and vector results of a
context that land, whatever the order of the list that holds them, the one of the latest cycle, and in one cycle of
the highest slot, and in one slot of the latest issue, is what a scalar register, a scalar latch and each byte of a
vector register keeps; what is not yet due stays in flight. -/
def Obligations.Landings : Prop :=
  (∀ w core bank latch val dst mark,
    let c := w.ctx core bank
    let t := landEffect w core bank (.scalar latch val dst mark)
    let d := t.ctx core bank
    t = w.updCtx core bank (fun _ => { c with lat := d.lat, s := d.s, mark := d.mark }) ∧
    d.latch latch = val ∧ (∀ n, n ≠ latch → d.latch n = c.latch n) ∧
    (∀ n, n ≠ 0 → d.sreg n = if dst = some n then val else c.sreg n) ∧ d.sreg 0 = 0 ∧
    d.marked (64 + latch) = mark ∧ (∀ n, n ≠ 0 → n < 64 → dst = some n → d.marked n = mark) ∧
    (∀ k, k ≠ 64 + latch → dst ≠ some k → d.marked k = c.marked k) ∧ (∀ a, t.byte a = w.byte a)) ∧
  ((∀ w core bank latch lat val act n mark, latch < 8 → n < 32 →
    let c := w.ctx core bank
    let t := landEffect w core bank (.vector latch lat val act (some n) mark)
    let d := t.ctx core bank
    t = w.updCtx core bank (fun _ => { c with vlat := d.vlat, v := d.v, mark := d.mark }) ∧
    d.vlatch latch = lat ∧ (∀ m, m ≠ latch → d.vlatch m = c.vlatch m) ∧
    (∀ i, i < 2048 → (d.vreg n).getLsbD i = if act.getLsbD (i / 8) then val.getLsbD i else (c.vreg n).getLsbD i) ∧
    (∀ m, m ≠ n → d.vreg m = c.vreg m) ∧ d.marked (80 + latch) = mark ∧
    d.marked (96 + n) = (if mark ≠ 0 ∨ act = BitVec.allOnes 256 then mark else c.marked (96 + n)) ∧
    (∀ k, k ≠ 80 + latch → k ≠ 96 + n → d.marked k = c.marked k)) ∧
  (∀ w core bank val n,
    let c := w.ctx core bank
    let t := landEffect w core bank (.pred val (some n))
    let d := t.ctx core bank
    t = w.updCtx core bank (fun _ => { c with lat := d.lat, p := d.p, mark := d.mark }) ∧
    d.latch 0 = (if val then 1 else 0) ∧ (∀ m, m ≠ 0 → d.latch m = c.latch m) ∧
    (n ≠ 0 → d.preg n = val) ∧ (∀ m, m ≠ n → d.preg m = c.preg m) ∧ d.preg 0 = true ∧ d.marked 64 = 0 ∧
    (∀ k, k ≠ 64 → d.marked k = c.marked k)) ∧
  (∀ w core bank latch lat val act n,
    let c := w.ctx core bank
    let t := landEffect w core bank (.mask latch lat val act (some n))
    let d := t.ctx core bank
    t = w.updCtx core bank (fun _ => { c with vlat := d.vlat, vm := d.vm, mark := d.mark }) ∧
    d.vlatch latch = lat ∧ (∀ m, m ≠ latch → d.vlatch m = c.vlatch m) ∧
    (n ≠ 0 → ∀ i, i < 256 → (d.vmreg n).getLsbD i = if act.getLsbD i then val.getLsbD i else (c.vmreg n).getLsbD i) ∧
    (∀ m, m ≠ n → d.vmreg m = c.vmreg m) ∧ d.vmreg 0 = BitVec.allOnes 256 ∧ d.marked (80 + latch) = 0 ∧
    (∀ k, k ≠ 80 + latch → d.marked k = c.marked k))) ∧
  (∀ (w : Work) core bank t (g : Flight),
    let fs := (w.ctx core bank).flights
    let after := (w.landDue core bank t).ctx core bank
    let earlier (f : Flight) : Prop := f.due < g.due ∨ f.due = g.due ∧ (f.slot < g.slot ∨ f.slot = g.slot ∧ f.seq < g.seq)
    g ∈ fs → g.due ≤ t →
    (∀ f ∈ fs, (∃ l x d m, f.eff = .scalar l x d m) ∨ ∃ l x y a d m, f.eff = .vector l x y a d m) →
    after.flights = fs.filter (fun f => decide (t < f.due)) ∧
    (∀ l y n m, g.eff = .scalar l y (some n) m → n ≠ 0 →
      (∀ f ∈ fs, f ≠ g → f.due ≤ t → ∀ k x d i, f.eff = .scalar k x d i → d = some n ∨ k = l → earlier f) →
      after.sreg n = y ∧ after.latch l = y) ∧
    (∀ l x y act n m k, g.eff = .vector l x y act (some n) m → k < 256 → act.getLsbD k = true →
      (∀ f ∈ fs, f ≠ g → f.due ≤ t →
        ∀ j u v a i, f.eff = .vector j u v a (some n) i → a.getLsbD k = true → earlier f) →
      ∀ b, b < 8 → (after.vreg n).getLsbD (8 * k + b) = y.getLsbD (8 * k + b)))

-- Local store and memory

/-- R303: `ld` and `ldu` read the bytes of the address A + B as they stood before their bundle, sign- or zero-extended
from the size Q names; they land in `ls.r` and sWD six cycles later, with the mark of a bad sector; no byte changes.
R304, R305, R214 and R215: `ld.g` of an address that translates and `ld.e` inside its extent take a landing-buffer
entry whose landing delay is LD, or 40 where LD is 0, and send one read to the home; nothing lands yet and no byte
changes. A load of the system page takes its entry with the value already there. -/
def Obligations.LoadForms : Prop :=
  (∀ p ∈ ([(Instr.ld, fun n v => if 2 * v < 2 ^ n then BitVec.ofNat 64 v else BitVec.ofInt 64 ((v : Int) - 2 ^ n)),
      (Instr.ldu, fun _ v => BitVec.ofNat 64 v)] :
      List ((BitVec 2 → BitVec 7 → BitVec 7 → BitVec 6 → BitVec 1 → BitVec 2 → Instr) × (Nat → Nat → Word))),
  ∀ σ om os ts wd we q a b, Takes σ → On σ → Reads σ ts a → Port σ 2 om os b →
    (a + b).toNat % 2 ^ q.toNat = 0 → (me σ).declares (a + b).toNat (2 ^ q.toNat) = true →
    let k := (me σ).relocate (a + b).toNat
    exec (p.1 om os ts wd we q) σ =
      .next (withMe σ (inFlight σ 6
        (.scalar 2 (p.2 (8 * 2 ^ q.toNat) ((Work.begin σ).lsRead σ.dev.issue.core k (2 ^ q.toNat))) (dest we wd.toNat)
          (lsMark (Work.begin σ) k (2 ^ q.toNat)))
        (loaded 2 b (me σ))))) ∧
  ((∀ σ om os ts wd we q a b x, Takes σ → On σ → Reads σ ts a → Port σ 2 om os b → HasBuffer σ →
    (a + b).toNat < 2 ^ 56 → (a + b).toNat % 2 ^ q.toNat = 0 → inSystemPage (a + b).toNat = false →
    Translates σ [.read] (a + b).toNat 8 true x →
    Leaves σ (exec (.ldG om os ts wd we q) σ) { loaded 2 b (me σ) with
      seq := (me σ).seq + 1
      outs := (me σ).outs ++ [outEntry σ .load 2 (dest we wd.toNat) a b 40 none]
      accs := (me σ).accs ++ [accEntry σ (.load (2 ^ q.toNat) true (me σ).seq) (a + b).toNat x false] }) ∧
  (∀ σ om os ts wd we q a b, Takes σ → On σ → Reads σ ts a → Port σ 2 om os b → HasBuffer σ →
    (a + b).toNat < 2 ^ 56 → (a + b).toNat % 2 ^ q.toNat = 0 → inSystemPage (a + b).toNat = true →
    let v := BitVec.ofInt 64 (sx (8 * 2 ^ q.toNat)
      (systemRead σ.dev σ.dev.issue.core ((a + b).toNat % 0x10000) (2 ^ q.toNat)))
    Leaves σ (exec (.ldG om os ts wd we q) σ) { loaded 2 b (me σ) with
      seq := (me σ).seq + 1
      outs := (me σ).outs ++ [outEntry σ .load 2 (dest we wd.toNat) a b 40 (some { val := v })] }) ∧
  (∀ σ om os ts wd we q a b e, Takes σ → On σ → Reads σ ts a → Port σ 2 om os b → HasBuffer σ →
    b.toNat < 16 → (me σ).ext.get? b.toNat = some e → a.toNat + 2 ^ q.toNat ≤ e.len → a.toNat < 2 ^ 40 →
    (e.pa + a.toNat) % 2 ^ q.toNat = 0 → bit e.perms 0 = true →
    Leaves σ (exec (.ldE om os ts wd we q) σ) { loaded 2 b (me σ) with
      seq := (me σ).seq + 1
      outs := (me σ).outs ++ [outEntry σ .load 2 (dest we wd.toNat) a b 40 none]
      accs := (me σ).accs ++ [extEntry σ (.load (2 ^ q.toNat) true (me σ).seq) e a.toNat] }))

/-- R303: `st` writes the low bytes of sWD to the local store at A + B, relocated as the context's addresses are; the
bytes stored are those, and every other byte of every memory reads as before. Of the issuing context only the port
changes. R303: a local-store access whose address is no multiple of its size raises cause 13, and one that is aligned
and outside what the launch declares raises cause 10; the form then writes and lands nothing of its own. -/
def Obligations.LocalStore : Prop :=
  (∀ σ om os ts wd q a b v, Takes σ → On σ → Reads σ ts a → Port σ 2 om os b → Reads σ (wd.setWidth 7) v →
    (a + b).toNat % 2 ^ q.toNat = 0 → (me σ).declares (a + b).toNat (2 ^ q.toNat) = true →
    ∃ t, exec (.st om os ts wd q) σ = .next t ∧ me t = loaded 2 b (me σ) ∧
      (∀ k, k ≠ key σ → t.dev.ctxs.get? k = σ.dev.ctxs.get? k) ∧
      (∀ i, i < 2 ^ q.toNat →
        t.mem.read (Key.ls σ.dev.issue.core ((me σ).relocate (a + b).toNat) + i) =
          BitVec.ofNat 8 (v.toNat / 256 ^ i)) ∧
      (∀ x, (x < Key.ls σ.dev.issue.core ((me σ).relocate (a + b).toNat) ∨
          Key.ls σ.dev.issue.core ((me σ).relocate (a + b).toNat) + 2 ^ q.toNat ≤ x) →
        t.mem.read x = σ.mem.read x)) ∧
  ((∀ f ∈ ([Instr.ld, .ldu] : List (BitVec 2 → BitVec 7 → BitVec 7 → BitVec 6 → BitVec 1 → BitVec 2 → Instr)),
    ∀ σ om os ts wd we q a b, Takes σ → On σ → Reads σ ts a → Port σ 2 om os b →
      ((a + b).toNat % 2 ^ q.toNat ≠ 0 →
        exec (f om os ts wd we q) σ = .next ((Work.begin σ).trapNow 13 none).commit) ∧
      ((a + b).toNat % 2 ^ q.toNat = 0 → (me σ).declares (a + b).toNat (2 ^ q.toNat) = false →
        exec (f om os ts wd we q) σ = .next ((Work.begin σ).trapNow 10 none).commit)) ∧
  (∀ σ om os ts wd q a b v, Takes σ → On σ → Reads σ ts a → Port σ 2 om os b → Reads σ (wd.setWidth 7) v →
      ((a + b).toNat % 2 ^ q.toNat ≠ 0 →
        exec (.st om os ts wd q) σ = .next ((Work.begin σ).trapNow 13 none).commit) ∧
      ((a + b).toNat % 2 ^ q.toNat = 0 → (me σ).declares (a + b).toNat (2 ^ q.toNat) = false →
        exec (.st om os ts wd q) σ = .next ((Work.begin σ).trapNow 10 none).commit)))

/-- R304, R305 and R306, posted, nothing landing: `st.g` of an aligned address below 2^56 that translates for writing
sends one store of the low bytes of sWD to its home; `st.e` inside an extent that allows writing does so at the
extent's base plus A; `pref` of an address below 2^56 that translates for reading sends one prefetch. `pref` of an
address at or above 2^56, or of one that the system page or R162's checks 3 to 9 refuse (a cause without a page), only
loads its port. In each the port receives B, no byte changes, and nothing of another context does. -/
def Obligations.PostedStores : Prop :=
  (∀ σ om os ts wd q a b v x, Takes σ → On σ → Reads σ ts a → Port σ 2 om os b → Reads σ (wd.setWidth 7) v →
    (a + b).toNat < 2 ^ 56 → (a + b).toNat % 2 ^ q.toNat = 0 → Translates σ [.write] (a + b).toNat 9 true x →
    Leaves σ (exec (.stG om os ts wd q) σ) { loaded 2 b (me σ) with
      seq := (me σ).seq + 1
      accs := (me σ).accs ++
        [accEntry σ (.store (2 ^ q.toNat) (v.toNat % 2 ^ (8 * 2 ^ q.toNat))) (a + b).toNat x false] }) ∧
  (∀ σ om os ts wd q a b v e, Takes σ → On σ → Reads σ ts a → Port σ 2 om os b → Reads σ (wd.setWidth 7) v →
    b.toNat < 16 → (me σ).ext.get? b.toNat = some e → a.toNat + 2 ^ q.toNat ≤ e.len → a.toNat < 2 ^ 40 →
    (e.pa + a.toNat) % 2 ^ q.toNat = 0 → bit e.perms 1 = true →
    Leaves σ (exec (.stE om os ts wd q) σ) { loaded 2 b (me σ) with
      seq := (me σ).seq + 1
      accs := (me σ).accs ++ [extEntry σ (.store (2 ^ q.toNat) (v.toNat % 2 ^ (8 * 2 ^ q.toNat))) e a.toNat] }) ∧
  (∀ σ om os ts a b x, Takes σ → On σ → Reads σ ts a → Port σ 2 om os b → (a + b).toNat < 2 ^ 56 →
    Translates σ [.read] (a + b).toNat 8 true x →
    Leaves σ (exec (.pref om os ts) σ) { loaded 2 b (me σ) with
      seq := (me σ).seq + 1
      accs := (me σ).accs ++ [accEntry σ (.prefetch x.cls) (a + b).toNat x false] }) ∧
  (∀ σ om os ts a b, Takes σ → On σ → Reads σ ts a → Port σ 2 om os b → 2 ^ 56 ≤ (a + b).toNat →
    exec (.pref om os ts) σ = .next (withMe σ (loaded 2 b (me σ)))) ∧
  (∀ σ om os ts a b cause, Takes σ → On σ → Reads σ ts a → Port σ 2 om os b → (a + b).toNat < 2 ^ 56 →
    xlate (Work.begin σ) [.read] (a + b).toNat 8 true = .error (.trap cause none) →
    exec (.pref om os ts) σ = .next (withMe σ (loaded 2 b (me σ))))

/-- R307: an atomic of an aligned address A below 2^56 that translates with the atomic permission, and whose route carries
atomics where it lies in the peer window, with a landing-buffer entry free, takes an entry of default delay 40, loads
its port with B, and sends its operation, with B and, for `amo.cas`, W = sWD, to the home; `amo.fadd` has 2, 2 or 4
bytes by Q. The operation numbers are the opcodes less 0x30. No byte changes at issue. R307 at the home, on the old
value o and the operand y of n bytes: the new value that each operation leaves, `amo.fadd` rounding the sum of FP16,
BF16 or FP32 values once, and the old value that it lands, zero-extended for `minu`, `maxu` and `fadd` and
sign-extended else. -/
def Obligations.Atomics : Prop :=
  ((∀ p ∈ ([(Instr.amoAdd, 0), (Instr.amoAnd, 1), (Instr.amoOr, 2), (Instr.amoXor, 3), (Instr.amoMin, 4),
        (Instr.amoMax, 5), (Instr.amoMinu, 6), (Instr.amoMaxu, 7), (Instr.amoSwap, 8)] :
        List ((BitVec 2 → BitVec 7 → BitVec 7 → BitVec 6 → BitVec 1 → BitVec 2 → Instr) × Nat)),
    ∀ σ om os ts wd we q a b x, Takes σ → On σ → Reads σ ts a → Port σ 2 om os b → HasBuffer σ →
      a.toNat < 2 ^ 56 → a.toNat % 2 ^ q.toNat = 0 → Translates σ [.atomic] a.toNat 9 true x →
      (regionOf x.pa = .peer → Config.routeCarriesAtomics (bits x.pa 49 38) = true) →
      Leaves σ (exec (p.1 om os ts wd we q) σ) { loaded 2 b (me σ) with
        seq := (me σ).seq + 1
        outs := (me σ).outs ++ [outEntry σ .atomic 2 (dest we wd.toNat) a b 40 none]
        accs := (me σ).accs ++ [accEntry σ (.atomic p.2 (2 ^ q.toNat) b.toNat 0 0 (me σ).seq) a.toNat x false] }) ∧
  (∀ σ om os ts wd we q a b v x, Takes σ → On σ → Reads σ ts a → Port σ 2 om os b → Reads σ (wd.setWidth 7) v →
      HasBuffer σ → a.toNat < 2 ^ 56 → a.toNat % 2 ^ q.toNat = 0 → Translates σ [.atomic] a.toNat 9 true x →
      (regionOf x.pa = .peer → Config.routeCarriesAtomics (bits x.pa 49 38) = true) →
      Leaves σ (exec (.amoCas om os ts wd we q) σ) { loaded 2 b (me σ) with
        seq := (me σ).seq + 1
        outs := (me σ).outs ++ [outEntry σ .atomic 2 (dest we wd.toNat) a b 40 none]
        accs := (me σ).accs ++
          [accEntry σ (.atomic 9 (2 ^ q.toNat) b.toNat v.toNat 0 (me σ).seq) a.toNat x false] }) ∧
  (∀ σ om os ts wd we q a b x, Takes σ → On σ → Reads σ ts a → Port σ 2 om os b →
      HasBuffer σ → a.toNat < 2 ^ 56 → a.toNat % (if q.toNat ≤ 1 then 2 else 4) = 0 →
      Translates σ [.atomic] a.toNat 9 true x →
      (regionOf x.pa = .peer → Config.routeCarriesAtomics (bits x.pa 49 38) = true) →
      Leaves σ (exec (.amoFadd om os ts wd we q) σ) { loaded 2 b (me σ) with
        seq := (me σ).seq + 1
        outs := (me σ).outs ++ [outEntry σ .atomic 2 (dest we wd.toNat) a b 40 none]
        accs := (me σ).accs ++ [accEntry σ
          (.atomic 10 (if q.toNat ≤ 1 then 2 else 4) b.toNat 0 q.toNat (me σ).seq) a.toNat x false] })) ∧
  (∀ n o y w, n ∈ [1, 2, 4, 8] → o < 2 ^ (8 * n) → y < 2 ^ (8 * n) →
    let s (x : Nat) : Int := if 2 * x < 2 ^ (8 * n) then (x : Int) else (x : Int) - 2 ^ (8 * n)
    amoNew 0 n 0 o y w = (o + y) % 2 ^ (8 * n) ∧ amoNew 1 n 0 o y w = o &&& y ∧ amoNew 2 n 0 o y w = o ||| y ∧
    amoNew 3 n 0 o y w = o ^^^ y ∧ (s (amoNew 4 n 0 o y w) = min (s o) (s y)) ∧
    (s (amoNew 5 n 0 o y w) = max (s o) (s y)) ∧ amoNew 6 n 0 o y w = min o y ∧ amoNew 7 n 0 o y w = max o y ∧
    (∀ f, f ≤ 2 → n = (if f ≤ 1 then 2 else 4) →
      let fm : Fmt := if f = 0 then .fp16 else if f = 1 then .bf16 else .fp32
      amoNew 10 n f o y w = rne fm (Real.add (floatValue fm o) (floatValue fm y))) ∧
    amoNew 8 n 0 o y w = y ∧ amoNew 9 n 0 o y w = (if o = y then w % 2 ^ (8 * n) else o) ∧
    (∀ k ∈ [6, 7, 10], amoLands k n o = BitVec.ofNat 64 o) ∧
    (∀ k ∈ [0, 1, 2, 3, 4, 5, 8, 9], amoLands k n o = BitVec.ofInt 64 (s o)))

/-- R320 and R321, posted: a range operation whose length B is not 0 and at most 2^40, and whose range ends at or below
2^56, sends one operation of its kind (0 clean, 1 invalidate, 2 flush) with its address A and length B; one of length
0 only loads its port. `publish` sends one operation to the handle-table entry of h = B[31:0] with its offset A and
its mode B[32]; where B[63:33] is not 0 the offset it carries is A + 2^64, which its check at the home turns down with
cause 33. No byte changes at issue, and nothing lands. R327 and R356: `bw.init` of an aligned address A below 2^56
that translates for writing, with B below 2^40 and, unless B is 0, an armed-word entry free or A's own, sends a store
of the word (count B, or the completed word 2^40 for 0) and arms A with B from two cycles on, or takes A's entry out
for 0. R328: `bw.wait` of an aligned address A + B below 2^56 that translates for reading, with a landing-buffer entry
free, takes an entry of default delay 8 that watches the word there. Neither changes a byte at issue. -/
def Obligations.RangesAndBarrierWords : Prop :=
  ((∀ p ∈ ([(Instr.cleanR, 0), (Instr.invalR, 1), (Instr.flushR, 2)] :
        List ((BitVec 2 → BitVec 7 → BitVec 7 → Instr) × Nat)),
    ∀ σ om os ts a b, Takes σ → On σ → Reads σ ts a → Port σ 5 om os b →
      (b ≠ 0 → b.toNat ≤ 2 ^ 40 → a.toNat + b.toNat ≤ 2 ^ 56 →
        Leaves σ (exec (p.1 om os ts) σ) { loaded 5 b (me σ) with
          seq := (me σ).seq + 1
          accs := (me σ).accs ++ [{ kind := .range p.2 b.toNat, va := a.toNat, pa := 0x8000000000000,
                                    pc := σ.dev.issue.pc, seq := (me σ).seq, at_ := (myCore σ).clk }] }) ∧
      (b = 0 → exec (p.1 om os ts) σ = .next (withMe σ (loaded 5 b (me σ))))) ∧
  (∀ σ om os ts a b, Takes σ → On σ → Reads σ ts a → Port σ 5 om os b →
      let h := b.toNat % 2 ^ 32
      let o := if b.toNat < 2 ^ 33 then a.toNat else a.toNat + 2 ^ 64
      Leaves σ (exec (.publish om os ts) σ) { loaded 5 b (me σ) with
        seq := (me σ).seq + 1
        accs := (me σ).accs ++ [{ kind := .publish o h (bit b.toNat 32), va := 0,
                                  pa := (σ.dev.partOf (me σ).part).htab + 16 * h, pc := σ.dev.issue.pc,
                                  seq := (me σ).seq, at_ := (myCore σ).clk }] }) ∧
  (∀ (w : Work) core bank o h free, 2 ^ 64 ≤ o → publishCheck w core bank o h free = some 33)) ∧
  ((∀ σ om os ts a b x, Takes σ → On σ → Reads σ ts a → Port σ 5 om os b → b.toNat < 2 ^ 40 → a.toNat < 2 ^ 56 →
    a.toNat % 8 = 0 → (b = 0 ∨ ((me σ).armed.filter fun y => decide (y.va ≠ a.toNat)).length < 32) →
    Translates σ [.write] a.toNat 9 false x →
    Leaves σ (exec (.bwInit om os ts) σ) { loaded 5 b (me σ) with
      seq := (me σ).seq + 1
      accs := (me σ).accs ++ [accEntry σ (.store 8 (if b.toNat = 0 then 2 ^ 40 else b.toNat)) a.toNat x true]
      armed := armWord (me σ).armed a.toNat x.pa b.toNat ((myCore σ).clk + 2) }) ∧
  (∀ σ om os ts wd we a b x, Takes σ → On σ → Reads σ ts a → Port σ 5 om os b → HasBuffer σ → (a + b).toNat < 2 ^ 56 →
    (a + b).toNat % 8 = 0 → Translates σ [.read] (a + b).toNat 8 false x →
    Leaves σ (exec (.bwWait om os ts wd we) σ) { loaded 5 b (me σ) with
      seq := (me σ).seq + 1
      outs := (me σ).outs ++ [outEntry σ (.word (a + b).toNat) 5 (dest we wd.toNat) a b 8 none] }))

-- The queue unit

/-- R110, R115, R308 and Table 5.2: on a bound binding whose role lets a core produce by these forms (role 3 by `cp.q`
only), with fewer than four enqueues outstanding and no fault of an earlier one to report, `enq`, `enq.s` and `enq.t`
load their port with the binding's number and send an element or a value to the queue's home: `enq` and `enq.t` the
2^E local-store bytes at an A that is aligned to min(2^E, 32) and declared, as they stand at issue, `enq.s` the value
A where E = 3; `enq.t`, with a landing-buffer entry free, takes one of default delay 40. On a role that forbids it
they raise cause 21. R110 and R308: on a bound binding whose role lets a core consume, with a landing-buffer entry
free, `deq`, `deq.t` and `qpeek` of a local-store address A that is aligned to min(2^E, 32) and declared, and `deq.s`
where E = 3, load their port with the binding's number, take an entry of default delay 40 and send their operation to
the queue's home; on a role that lets no core consume they raise cause 21. -/
def Obligations.QueueOperations : Prop :=
  ((∀ σ n ts a b, Takes σ → On σ → Reads σ ts a → (me σ).qb.get? (BitVec.toNat n) = some b → b.st = .bound →
    ((me σ).qops.filter QueueOp.isEnqueue).length < 4 → mayProduce b.role (.ctx 0 0 0) = true → b.role ≠ 3 →
    ((me σ).freeze = none ∨ (me σ).qlate = []) →
    let sent (form elem : Nat) (land : Bool) : QueueOp :=
      { id := (me σ).seq, form := form, bnd := BitVec.toNat n, handle := b.handle, cb := b.cb, home := b.home,
        elog := b.elog, pc := σ.dev.issue.pc, slot := σ.dev.issue.slot, ld := σ.dev.issue.ld, arg := a, elem := elem,
        land := if land then some (me σ).seq else none, seq := (me σ).seq, stale := b.stale }
    let port := loaded 3 (BitVec.setWidth 64 n) (me σ)
    let elem := (Work.begin σ).lsRead σ.dev.issue.core ((me σ).relocate a.toNat) (2 ^ b.elog)
    (a.toNat % min (2 ^ b.elog) 32 = 0 → (me σ).declares a.toNat (2 ^ b.elog) = true →
      Leaves σ (exec (.enq n ts) σ) { port with
        seq := (me σ).seq + 1, qops := (me σ).qops ++ [sent 0x41 elem false] }) ∧
    (b.elog = 3 →
      Leaves σ (exec (.enqS n ts) σ) { port with
        seq := (me σ).seq + 1, qops := (me σ).qops ++ [sent 0x42 a.toNat false] }) ∧
    (∀ wd we, HasBuffer σ → a.toNat % min (2 ^ b.elog) 32 = 0 → (me σ).declares a.toNat (2 ^ b.elog) = true →
      Leaves σ (exec (.enqT n ts wd we) σ) { port with
        seq := (me σ).seq + 1, qops := (me σ).qops ++ [sent 0x43 elem true]
        outs := (me σ).outs ++ [outEntry σ .queue 3 (dest we wd.toNat) a 0 40 none] })) ∧
  (∀ σ n ts a b, Takes σ → On σ → Reads σ ts a → (me σ).qb.get? (BitVec.toNat n) = some b → b.st = .bound →
    ((me σ).qops.filter QueueOp.isEnqueue).length < 4 → mayProduce b.role (.ctx 0 0 0) = false ∨ b.role = 3 →
    let fault : State := ((Work.begin σ).trapNow 21 none).commit
    exec (.enq n ts) σ = .next fault ∧ exec (.enqS n ts) σ = .next fault ∧
    (∀ wd we, HasBuffer σ → exec (.enqT n ts wd we) σ = .next fault))) ∧
  (∀ σ n b, Takes σ → On σ → (me σ).qb.get? (BitVec.toNat n) = some b → b.st = .bound → HasBuffer σ →
    (mayConsume b.role (.ctx 0 0 0) = false →
      let fault : State := ((Work.begin σ).trapNow 21 none).commit
      (∀ ts wd we a, Reads σ ts a → exec (.deq n ts wd we) σ = .next fault ∧ exec (.deqT n ts wd we) σ = .next fault ∧
        exec (.qpeek n ts wd we) σ = .next fault) ∧
      ∀ wd we, exec (.deqS n wd we) σ = .next fault) ∧
    (mayConsume b.role (.ctx 0 0 0) = true →
    let sent (form : Nat) (a : Word) : QueueOp :=
      { id := (me σ).seq, form := form, bnd := BitVec.toNat n, handle := b.handle, cb := b.cb, home := b.home,
        elog := b.elog, pc := σ.dev.issue.pc, slot := σ.dev.issue.slot, ld := σ.dev.issue.ld, arg := a, elem := 0,
        land := some (me σ).seq, seq := (me σ).seq, stale := b.stale }
    let after (form : Nat) (a : Word) (wd : BitVec 6) (we : BitVec 1) : Ctx :=
      { loaded 3 (BitVec.setWidth 64 n) (me σ) with
        seq := (me σ).seq + 1, qops := (me σ).qops ++ [sent form a]
        outs := (me σ).outs ++ [outEntry σ .queue 3 (dest we wd.toNat) a 0 40 none] }
    (∀ p ∈ ([(Instr.deq, 0x44), (Instr.deqT, 0x46), (Instr.qpeek, 0x47)] :
        List ((BitVec 3 → BitVec 7 → BitVec 6 → BitVec 1 → Instr) × Nat)),
      ∀ ts wd we a, Reads σ ts a → a.toNat % min (2 ^ b.elog) 32 = 0 → (me σ).declares a.toNat (2 ^ b.elog) = true →
        Leaves σ (exec (p.1 n ts wd we) σ) (after p.2 a wd we)) ∧
    (∀ wd we, b.elog = 3 → Leaves σ (exec (.deqS n wd we) σ) (after 0x45 0 wd we))))

/-- R112, R309 and R310: `qbind` on a binding that is not pending, with B from 3 to 12, of a handle A that is 64-byte
aligned, below 2^56 and translates for reading, makes the binding pending and asks the home that the block names;
`qstat` of a bound or an unbound binding lands the binding word in `q.r` and sWD after two cycles, 0 for an unbound
one; `qdrain` of a bound binding with no enqueue of it outstanding and no enqueue fault of its queue to report only
loads its port, and of an unbound one raises cause 21. -/
def Obligations.QueueBindings : Prop :=
  (∀ σ om os ts n a b x, Takes σ → On σ → Reads σ ts a → Port σ 3 om os b →
    ((me σ).qb.get (BitVec.toNat n) {}).st ≠ .pending → 3 ≤ b.toNat → b.toNat ≤ 12 → a.toNat % 64 = 0 →
    a.toNat < 2 ^ 56 → Translates σ [.read] a.toNat 8 false x →
    let bd : Binding := { st := .pending, handle := a.toNat, cb := x.pa, home := ((Work.begin σ).block x.pa).home,
                          elog := b.toNat }
    Leaves σ (exec (.qbind om os ts n) σ) { loaded 3 b (me σ) with
      seq := (me σ).seq + 1, qb := (me σ).qb.set (BitVec.toNat n) bd
      qops := (me σ).qops ++ [{ id := (me σ).seq, form := 0x40, bnd := BitVec.toNat n, handle := a.toNat, cb := x.pa,
                                home := bd.home, elog := b.toNat, pc := σ.dev.issue.pc, slot := σ.dev.issue.slot,
                                ld := σ.dev.issue.ld, arg := a, elem := 0, land := none, seq := (me σ).seq }] }) ∧
  (∀ σ n wd we, Takes σ → On σ →
    let b := (me σ).qb.get (BitVec.toNat n) {}
    b.st = .unbound ∨ b.st = .bound →
    exec (.qstat n wd we) σ = .next (withMe σ (inFlight σ 2
      (.scalar 3 (BitVec.ofNat 64 (if b.st = .bound then
          1 + 2 * b.role + 16 * (b.elog - 3) +
            256 * ((me σ).qops.filter fun q => decide (q.bnd = BitVec.toNat n ∧ q.handle = b.handle ∧
              (q.form = 0x41 ∨ q.form = 0x42 ∨ q.form = 0x43))).length +
            (if (me σ).qops.any fun q => decide (q.bnd = BitVec.toNat n ∧ q.handle = b.handle ∧ q.form ≠ 0x40) &&
              q.waiting.isSome then 2048 else 0) + 2 ^ 32 * (b.free % 2 ^ 32)
        else 0)) (dest we (BitVec.toNat wd)) 0)
      (loaded 3 (BitVec.setWidth 64 n) (me σ))))) ∧
  (∀ σ n, Takes σ → On σ →
    let b := (me σ).qb.get (BitVec.toNat n) {}
    (b.st = .bound → (∀ q ∈ (me σ).qops, q.bnd = BitVec.toNat n → q.form ≠ 0x41 ∧ q.form ≠ 0x42 ∧ q.form ≠ 0x43) →
      (∀ f ∈ (me σ).qlate, f.2.1 ≠ b.handle) →
      exec (.qdrain n) σ = .next (withMe σ (loaded 3 (BitVec.setWidth 64 n) (me σ)))) ∧
    (b.st = .unbound → exec (.qdrain n) σ = .next ((Work.begin σ).trapNow 21 none).commit))

-- Branches and loops

/-- R311 and R312: outside a loop body and outside the delay bundles of another branch, a branch form of a core alone or
of a lead leaves its branch pending, two delay bundles before the target that R311 gives, taken as R311 says; `call`
and `callr` put here + 96 in flight to `br.r` and sWD, one cycle on. In a follower the branch that its lead's form
made stands, whatever the follower's own registers hold. R312 and R221: a branch form inside a loop body raises cause
7, and one outside a body whose bundle is a delay bundle of a pending branch raises cause 1, whatever its guard;
elsewhere one whose guard is false has no effect. -/
def Obligations.Branches : Prop :=
  ((∀ σ lead ts om os q, Takes σ → On σ → inBody (Work.begin σ) = false → (me σ).br = none → σ.dev.issue.follows = true →
    σ.dev.issue.leadBr = some lead →
    (∀ i ∈ ([Instr.jr ts, .ret ts] : List Instr), exec i σ = .next (withMe σ { me σ with br := some lead })) ∧
    ∀ i ∈ ([Instr.j om os, .br om os ts q] : List Instr), ∃ t, exec i σ = .next t ∧ (me t).br = some lead ∧ SameBytes σ t) ∧
  (∀ σ, Takes σ → On σ → inBody (Work.begin σ) = false → (me σ).br = none → σ.dev.issue.follows = false →
    let here (b : Word) : Nat := (σ.dev.issue.pc + 32 * b.toNat) % 2 ^ 64
    let goes (t : Nat) (k : Bool) (c : Ctx) : Ctx :=
      { c with br := some { target := t, left := 3, taken := k, pc := σ.dev.issue.pc } }
    let link (wd : BitVec 6) (we : BitVec 1) (c : Ctx) : Ctx :=
      inFlight σ 1 (.scalar 4 (BitVec.ofNat 64 (σ.dev.issue.pc + 96)) (dest we wd.toNat) 0) c
    (∀ om os b, Port σ 4 om os b → exec (.j om os) σ = .next (withMe σ (goes (here b) true (loaded 4 b (me σ))))) ∧
    (∀ om os wd we b, Port σ 4 om os b →
      exec (.call om os wd we) σ = .next (withMe σ (link wd we (goes (here b) true (loaded 4 b (me σ)))))) ∧
    (∀ ts a, Reads σ ts a →
      exec (.jr ts) σ = .next (withMe σ (goes a.toNat true (me σ))) ∧
      exec (.ret ts) σ = .next (withMe σ (goes a.toNat true (me σ))) ∧
      (∀ wd we, exec (.callr ts wd we) σ = .next (withMe σ (link wd we (goes a.toNat true (me σ))))) ∧
      (∀ om os b, Port σ 4 om os b →
        exec (.br om os ts 0) σ = .next (withMe σ (goes (here b) (decide (a.toNat = 0)) (loaded 4 b (me σ)))) ∧
        exec (.br om os ts 1) σ = .next (withMe σ (goes (here b) (decide (a.toNat ≠ 0)) (loaded 4 b (me σ)))) ∧
        exec (.br om os ts 2) σ = .next (withMe σ (goes (here b) (decide (a.toInt < 0)) (loaded 4 b (me σ)))) ∧
        exec (.br om os ts 3) σ = .next (withMe σ (goes (here b) (decide (0 ≤ a.toInt)) (loaded 4 b (me σ)))))))) ∧
  (∀ σ om os ts wd we q, Takes σ →
    ∀ i ∈ ([Instr.j om os, .jr ts, .call om os wd we, .callr ts wd we, .ret ts, .br om os ts q] : List Instr),
      (inBody (Work.begin σ) = true → exec i σ = .next ((Work.begin σ).trapNow 7 none).commit) ∧
      (inBody (Work.begin σ) = false → (me σ).br ≠ none → exec i σ = .next ((Work.begin σ).trapNow 1 none).commit) ∧
      (Off σ → inBody (Work.begin σ) = false → (me σ).br = none → exec i σ = .next (same σ)))

/-- R313 and R314: `loop` of a nest register that will be valid when the writes in flight have landed, outside a body,
loads its port and binds its counters two cycles later; of one that will not be valid it raises cause 37, and of a
valid one inside a body cause 7. `lexit` inside an open body marks the loop as left, and elsewhere raises cause 7. -/
def Obligations.Loops : Prop :=
  (∀ σ k, Takes σ → On σ → nestValid ((me σ).nestSoon (BitVec.toNat k)) = true → inBody (Work.begin σ) = false →
    exec (.loop k) σ = .next (withMe σ (inFlight σ 2 (.loopBind (BitVec.toNat k))
      (loaded 4 (BitVec.setWidth 64 k) (me σ))))) ∧
  (∀ σ k, Takes σ → On σ → nestValid ((me σ).nestSoon (BitVec.toNat k)) = false →
    exec (.loop k) σ = .next ((Work.begin σ).trapNow 37 none).commit) ∧
  (∀ σ k, Takes σ → On σ → nestValid ((me σ).nestSoon (BitVec.toNat k)) = true → inBody (Work.begin σ) = true →
    exec (.loop k) σ = .next ((Work.begin σ).trapNow 7 none).commit) ∧
  (∀ σ, Takes σ → On σ → inBody (Work.begin σ) = true →
    exec .lexit σ = .next (withMe σ { me σ with loop := { (me σ).loop with leaving := true } })) ∧
  (∀ σ, Takes σ → On σ → inBody (Work.begin σ) = false →
    exec .lexit σ = .next ((Work.begin σ).trapNow 7 none).commit)

-- Task control

/-- R315, R316, R317: in a flood with nothing of the task outstanding and no fault to report, `task.done` retires the task
and makes the bank idle, and so does `task.next` at the lead where R136 gives the quire no next task of the launch, or
one whose extents do not translate; in an ebb both raise cause 1. Where there is a next task whose extents translate,
`task.next` at the lead goes on with it, its first bundle four cycles on. R316 and R317: in an ebb with no posted
operation and no copy command outstanding and no fault to report, `tide` makes the core report; in a flood it raises
cause 1. `yield` of a core alone or of a lead hands the cores of the quire to the other bank where ALT is 1, every
member holds a runnable context of the launch there and no member's forwarding window is open, and has no effect where
that is not so. -/
def Obligations.TaskEnds : Prop :=
  (∀ σ, Takes σ → On σ →
    ((me σ).ebb = true → exec .taskDone σ = .next ((Work.begin σ).trapNow 1 none).commit ∧
      exec .taskNext σ = .next ((Work.begin σ).trapNow 1 none).commit) ∧
    ((me σ).ebb = false → (me σ).accs = [] → (∀ q ∈ (me σ).qops, q.form ≠ 0x41 ∧ q.form ≠ 0x42 ∧ q.form ≠ 0x43) →
      (∀ x ∈ (myCore σ).cmds, x.ctx ≠ σ.dev.issue.bank) → (∀ x ∈ (myCore σ).strm, x.ctx ≠ σ.dev.issue.bank) →
      (∀ x ∈ (myCore σ).passes, x.ctx ≠ σ.dev.issue.bank) → (me σ).late = [] → (me σ).qlate = [] →
      (exec .taskDone σ =
        .next ((Work.begin σ).retireMember σ.dev.issue.core σ.dev.issue.bank σ.dev.issue.follows).commit) ∧
      (((Work.begin σ).retireMember σ.dev.issue.core σ.dev.issue.bank σ.dev.issue.follows).dev.ctx
        σ.dev.issue.core σ.dev.issue.bank).st = .idle ∧
      (σ.dev.issue.follows = false → nextHere (Work.begin σ) σ.dev.issue.core σ.dev.issue.bank = none →
        exec .taskNext σ = .next ((Work.begin σ).retireMember σ.dev.issue.core σ.dev.issue.bank false).commit) ∧
      (∀ n c w, σ.dev.issue.follows = false → nextHere (Work.begin σ) σ.dev.issue.core σ.dev.issue.bank = some n →
        (launchExtents (Work.begin σ) (me σ).ix (coreDie σ.dev.issue.core) n = (.missing c, w) ∨
          launchExtents (Work.begin σ) (me σ).ix (coreDie σ.dev.issue.core) n = (.fails c, w)) →
        exec .taskNext σ = .next (w.retireMember σ.dev.issue.core σ.dev.issue.bank false).commit) ∧
      (∀ n es, σ.dev.issue.follows = false →
        nextHere (Work.begin σ) σ.dev.issue.core σ.dev.issue.bank = some n →
        (launchExtents (Work.begin σ) (me σ).ix (coreDie σ.dev.issue.core) n).1 = .ok es →
        ∃ t, exec .taskNext σ = .next t ∧ (me t).task = BitVec.ofNat 64 n ∧ (me t).st = .ready ∧
          (myCore t).goAt = (myCore σ).raw + 4))) ∧
  (∀ σ, Takes σ → On σ →
    ((me σ).ebb = false → exec .tide σ = .next ((Work.begin σ).trapNow 1 none).commit) ∧
    ((me σ).ebb = true → (me σ).accs = [] → (∀ q ∈ (me σ).qops, q.form ≠ 0x41 ∧ q.form ≠ 0x42 ∧ q.form ≠ 0x43) →
      (∀ x ∈ (myCore σ).cmds, x.ctx ≠ σ.dev.issue.bank) → (me σ).late = [] → (me σ).qlate = [] →
      ∃ t, exec .tide σ = .next t ∧ (me t).st = .reported ∧ (me t).ebb = true) ∧
    (let q := quireOf σ.dev σ.dev.issue.core σ.dev.issue.bank
     let may : Prop := σ.dev.issue.follows = false ∧ (σ.dev.launch (me σ).ix).alt = true ∧
       otherRunnable (Work.begin σ) q σ.dev.issue.bank (me σ).ix = true ∧
       (∀ k ∈ q, windowOpen (Work.begin σ) k σ.dev.issue.bank = false)
     (may → exec .yield σ = .next ((Work.begin σ).handOver q σ.dev.issue.bank).commit ∧
       ∀ k ∈ q, (((Work.begin σ).handOver q σ.dev.issue.bank).dev.core k).cur = 1 - σ.dev.issue.bank) ∧
     (¬ may → exec .yield σ = .next (same σ))))

-- Exceptions

/-- R227 step 6, R228 and R229: completing a trap entry that is no park sets cw.cause, cw.tval, cw.epc, LVL and PLVL, and
resumes issue at the handler of the level, with no branch pending and registers, masks and latches as they were;
RESUME stands at the frame's offset 0, and no byte outside the frame's 16 KiB changes. -/
def Obligations.TrapEntry : Prop :=
  ∀ (w : Work) core bank lvl (e : Entry), e.park = none →
    let c := w.ctx core bank
    let t := w.completeEntry core bank lvl e
    let d := t.ctx core bank
    d.cause = e.cause + e.extra ∧ d.tval = BitVec.ofNat 64 e.tval ∧ d.epc = bits e.epc 55 5 * 32 ∧ d.plvl = c.lvl ∧
      d.lvl = lvl ∧ d.pc = (if lvl = 1 then bits c.tdel.toNat 55 5 * 32 else c.tvec) ∧ d.st = .ready ∧ d.br = none ∧
      d.s = c.s ∧ d.p = c.p ∧ d.vm = c.vm ∧ d.v = c.v ∧ d.lat = c.lat ∧ d.vlat = c.vlat ∧ d.nest = c.nest ∧
      t.readN (Key.ls core (c.frameAt lvl)) 8 = e.resume % 2 ^ 64 ∧
      (c.replay.length ≤ 8 → c.requeue.length ≤ 12 →
        ∀ a, (a < Key.ls core (c.frameAt lvl) ∨ Key.ls core (c.frameAt lvl) + 16384 ≤ a) → t.byte a = w.byte a)

/-- R229 and R231: at level 2, or where no frame exists, a trap is taken at no level; a delegable cause raised at level 0
goes to level 1 if its bit of DEL is set; any other trap goes to level 2 where the partition names a supervisor
handler, and to none where it does not. A settled context takes a trap of no level by ending its task with the cause,
and one of a level, with no queue operation left at its home, by completing the entry. -/
def Obligations.TrapLevels : Prop :=
  (∀ (c : Ctx) cause, (c.lvl = 2 ∨ c.lssz < 32768) → c.trapLevel cause = none) ∧
  (∀ p ∈ [(16, 0), (17, 1), (24, 2), (25, 3), (56, 4)], ∀ (c : Ctx), 32768 ≤ c.lssz →
    (c.lvl = 0 → bit c.tdel.toNat p.2 = true → c.trapLevel p.1 = some 1) ∧
    (c.lvl = 0 → bit c.tdel.toNat p.2 = false → c.handler = true → c.trapLevel p.1 = some 2) ∧
    (c.lvl = 1 → c.handler = true → c.trapLevel p.1 = some 2)) ∧
  (∀ (c : Ctx) cause, cause ∉ [16, 17, 24, 25, 56] → 32768 ≤ c.lssz → c.lvl ≠ 2 →
    (c.handler = true → c.trapLevel cause = some 2) ∧ (c.handler = false → c.trapLevel cause = none)) ∧
  (∀ (w : Work) core bank (e : Entry), e.park = none → e.watch = none → (w.ctx core bank).trapLevel e.cause = none →
    w.enter core bank e = (w.withdrawAll core bank).endTask core bank e.cause) ∧
  (∀ (w : Work) core bank (e : Entry) lvl, e.park = none → e.watch = none → (w.ctx core bank).trapLevel e.cause = some lvl →
    (w.ctx core bank).qops = [] → w.enter core bank e = w.completeEntry core bank lvl e)

/-- R318, R230: `trap` raises cause 56 with cw.tval := B at its own bundle, resuming at the next; `eret` above level 0
returns to PLVL, at RESUME of the frame of its level and with the latches the frame holds, and at level 0 raises cause
5; `halt` at level 2 ends the task with cw.cause[5:0], or 56, and elsewhere raises cause 5. -/
def Obligations.TrapReturnHalt : Prop :=
  (∀ σ om os b, Takes σ → On σ → Port σ 5 om os b →
    exec (.trap om os) σ = .next (((Work.begin σ).setPort 5 b).raise σ.dev.issue.core σ.dev.issue.bank
      { cause := 56, tval := b.toNat, epc := σ.dev.issue.pc, resume := (me σ).pc, extra := 64,
        begun := (myCore σ).raw }).commit) ∧
  (∀ σ, Takes σ → On σ → (me σ).lvl = 0 → exec .eret σ = .next ((Work.begin σ).trapNow 5 none).commit) ∧
  (∀ σ, Takes σ → On σ → (me σ).lvl ≠ 0 →
    let f (off n : Nat) : Nat :=
      (Work.begin σ).readN (Key.ls σ.dev.issue.core ((me σ).frameAt (me σ).lvl + off)) n
    ∃ t, exec .eret σ = .next t ∧ SameBytes σ t ∧ (me t).lvl = (me σ).plvl ∧ (me t).plvl = bits (f 0x28 8) 5 4 ∧
      (me t).pc = bits (f 0 8) 55 5 * 32 ∧ (me t).s = (me σ).s ∧ (me t).v = (me σ).v ∧ (me t).p = (me σ).p ∧
      (∀ n, n < 9 → (me t).latch n = BitVec.ofNat 64 (f (0x140 + 8 * n) 8)) ∧
      (∀ n, n < 4 → (me t).vlatch n = BitVec.ofNat 2048 (f (0x400 + 256 * n) 256))) ∧
  (∀ σ, Takes σ → On σ → (me σ).lvl ≠ 2 → exec .halt σ = .next ((Work.begin σ).trapNow 5 none).commit) ∧
  (∀ σ, Takes σ → On σ → (me σ).lvl = 2 →
    exec .halt σ = .next ((Work.begin σ).endTask σ.dev.issue.core σ.dev.issue.bank
      (if (me σ).cause % 64 = 0 then 56 else (me σ).cause % 64)).commit)

-- Fences and control words

/-- R194, R195, R319: a fence of a valid kind and scope with nothing outstanding and no fault to report raises cw.lts
above it and above the times of the engine commands or enqueues of its kind; the encodings with a scope above 5 or a
kind above 3 raise cause 2, whatever the guard; `fence.e` with every posted operation and publish performed and no
fault to report changes nothing. -/
def Obligations.Fences : Prop :=
  (∀ σ k c, Takes σ → On σ → BitVec.toNat k ≤ 3 → BitVec.toNat c ≤ 5 → (me σ).accs = [] →
    (∀ q ∈ (me σ).qops, q.form ≠ 0x41 ∧ q.form ≠ 0x42 ∧ q.form ≠ 0x43) →
    (∀ x ∈ (myCore σ).cmds, x.ctx ≠ σ.dev.issue.bank) → (∀ x ∈ (myCore σ).strm, x.ctx ≠ σ.dev.issue.bank) →
    (me σ).late = [] → (me σ).plate = [] → (me σ).qlate = [] →
    let e := if BitVec.toNat k = 0 ∨ BitVec.toNat k = 3 then (me σ).engLts else 0
    let q := if BitVec.toNat k = 1 ∨ BitVec.toNat k = 3 then (me σ).enqLts else 0
    exec (.fenceInstruction k c) σ = .next (withMe σ { me σ with lts := max (me σ).lts (max e q) + 1 })) ∧
  (∀ σ k c, Takes σ → 3 < BitVec.toNat k ∨ 5 < BitVec.toNat c →
    exec (.fenceInstruction k c) σ = .next ((Work.begin σ).trapNow 2 none).commit) ∧
  (∀ σ, Takes σ → On σ → (∀ a ∈ (me σ).accs, a.kind.isPosted = false ∧ a.kind.isPublish = false) → (me σ).late = [] →
    exec .fenceE σ = .next (same σ))

/-- R322: `rdcw` of an assigned word that is open puts the word's value in flight to `sys.r` and sWD, landing after two
cycles; its port receives B. R322, Tables 11.8 and 9.2: `wrcw` of a word that may be written, at the level that may
write it, with a frame address that is declared and no staging claim to wait for, takes effect after two cycles; a
write of a read-only word, or of cw.tvec below level 2, raises cause 5; a number of no word or of more than 12 bits
raises cause 2, for `rdcw` too, and a debug word that is not open cause 60. What cw.tvec, cw.frz, cw.split, cw.mmode
and the bound limit take is as their tables say. -/
def Obligations.ControlWords : Prop :=
  (∀ σ om os wd we b, Takes σ → On σ → Port σ 5 om os b → b.toNat < 2 ^ 12 → cwAssigned b.toNat = true →
    (∀ k, cwOpenBit b.toNat = some k → bit (σ.dev.launch (me σ).ix).opens k = true) →
    exec (.rdcw om os wd we) σ = .next (withMe σ (inFlight σ 2
      (.scalar 5 (cwValue (Work.begin σ) σ.dev.issue.core σ.dev.issue.bank b.toNat) (dest we wd.toNat) 0)
      (loaded 5 b (me σ))))) ∧
  ((∀ σ om os ts a b, Takes σ → On σ → Reads σ ts a → Port σ 5 om os b → b.toNat < 2 ^ 12 → cwAssigned b.toNat = true →
    (∀ k, cwOpenBit b.toNat = some k → bit (σ.dev.launch (me σ).ix).opens k = true) →
    (cwReadOnly b.toNat = true ∨ b.toNat = 0x014 ∧ (me σ).lvl ≠ 2 →
      exec (.wrcw om os ts) σ = .next ((Work.begin σ).trapNow 5 none).commit) ∧
    (cwReadOnly b.toNat = false → (b.toNat = 0x014 → (me σ).lvl = 2) →
      (b.toNat = 0x016 → (me σ).declares (bits a.toNat 19 5 * 32) 32768 = true) →
      (b.toNat = 0x040 → l2divBusy (Work.begin σ) a.toNat = false) →
      exec (.wrcw om os ts) σ = .next (withMe σ (inFlight σ 2 (.control b.toNat a) (loaded 5 b (me σ)))))) ∧
  (∀ σ om os ts wd we a b, Takes σ → On σ → Reads σ ts a → Port σ 5 om os b →
    (2 ^ 12 ≤ b.toNat ∨ cwAssigned b.toNat = false →
      exec (.wrcw om os ts) σ = .next ((Work.begin σ).trapNow 2 none).commit ∧
      exec (.rdcw om os wd we) σ = .next ((Work.begin σ).trapNow 2 none).commit) ∧
    (∀ k, b.toNat < 2 ^ 12 → cwAssigned b.toNat = true → cwOpenBit b.toNat = some k →
      bit (σ.dev.launch (me σ).ix).opens k = false →
      exec (.wrcw om os ts) σ = .next ((Work.begin σ).trapNow 60 none).commit ∧
      exec (.rdcw om os wd we) σ = .next ((Work.begin σ).trapNow 60 none).commit)) ∧
  (∀ (w : Work) core bank (v : Word),
    ((controlWrite w core bank 0x014 v).ctx core bank).tvec = bits v.toNat 55 5 * 32 ∧
    ((controlWrite w core bank 0x020 v).ctx core bank).frz = v ∧
    ((controlWrite w core bank 0x030 v).ctx core bank).split = v.toNat % 16 ∧
    ((controlWrite w core bank 0x032 v).ctx core bank).mmode = v.toNat % 2 ∧
    ((controlWrite w core bank 0x031 v).ctx core bank).bndlim = v.toNat % 2 ^ 32))

/-- R326: the nest forms write the register K names two cycles later: `nest.set` from the 128 local-store bytes at A + B,
`nest.dim` the count or stride of the dimension B names, `nest.blk` the eight bytes B names. A misaligned or
undeclared image raises 13 or 10, a bad B 37. -/
def Obligations.NestForms : Prop :=
  ∀ σ om os ts k a b, Takes σ → On σ → Reads σ ts a → Port σ 5 om os b →
    let kn := BitVec.toNat k
    ((a + b).toNat % 32 = 0 → (me σ).declares (a + b).toNat 128 = true →
      exec (.nestSet om os ts k) σ = .next (withMe σ (inFlight σ 2
        (.nestSet kn (BitVec.ofNat 1024
          ((Work.begin σ).lsRead σ.dev.issue.core ((me σ).relocate (a + b).toNat) 128))) (loaded 5 b (me σ))))) ∧
    ((a + b).toNat % 32 ≠ 0 → exec (.nestSet om os ts k) σ = .next ((Work.begin σ).trapNow 13 none).commit) ∧
    ((a + b).toNat % 32 = 0 → (me σ).declares (a + b).toNat 128 = false →
      exec (.nestSet om os ts k) σ = .next ((Work.begin σ).trapNow 10 none).commit) ∧
    (b.toNat ≤ 5 → exec (.nestDim om os ts k) σ = .next (withMe σ (inFlight σ 2
      (.nestField kn (32 + 16 * b.toNat) 4 (a.toNat % 2 ^ 32)) (loaded 5 b (me σ))))) ∧
    (8 ≤ b.toNat → b.toNat ≤ 13 → exec (.nestDim om os ts k) σ = .next (withMe σ (inFlight σ 2
      (.nestField kn (36 + 16 * (b.toNat - 8)) 5 (a.toNat % 2 ^ 40)) (loaded 5 b (me σ))))) ∧
    ((b.toNat = 6 ∨ b.toNat = 7 ∨ 14 ≤ b.toNat) →
      exec (.nestDim om os ts k) σ = .next ((Work.begin σ).trapNow 37 none).commit) ∧
    (b.toNat ≤ 3 → exec (.nestBlk om os ts k) σ = .next (withMe σ (inFlight σ 2
      (.nestField kn (8 * b.toNat) 8 a.toNat) (loaded 5 b (me σ))))) ∧
    (3 < b.toNat → exec (.nestBlk om os ts k) σ = .next ((Work.begin σ).trapNow 37 none).commit)

/-- R329: `ctx.park` in a drain bundle, on an address that passes its checks, takes the steps of R224 and parks the
context, with the deadline that B gives; with nothing in flight or outstanding it is then parked on the line, with
cw.cause 0 and REC = 1 for the S slot. In a bundle with D = 0 it raises cause 2, whatever its guard; in a drain bundle
with its guard false it has no effect. -/
def Obligations.ContextPark : Prop :=
  (∀ σ om os ts, Takes σ → σ.dev.issue.d = false →
    exec (.ctxPark om os ts) σ = .next ((Work.begin σ).trapNow 2 none).commit) ∧
  (∀ σ om os ts, Takes σ → σ.dev.issue.d = true → Off σ → exec (.ctxPark om os ts) σ = .next (same σ)) ∧
  (∀ σ om os ts a b line, Takes σ → On σ → σ.dev.issue.d = true → Reads σ ts a → Port σ 5 om os b →
    parkLine (Work.begin σ) a = .ok line →
    exec (.ctxPark om os ts) σ = .next (((Work.begin σ).setPort 5 b).parkOn σ.dev.issue.core σ.dev.issue.bank line
      (if b.toNat % 2 ^ 32 = 0 then none else some (σ.dev.now + b.toNat % 2 ^ 32))).commit ∧
    ((me σ).qops = [] → (me σ).outs = [] → (me σ).accs = [] → (me σ).flights = [] → (myCore σ).passes = [] →
      let d := (((Work.begin σ).setPort 5 b).parkOn σ.dev.issue.core σ.dev.issue.bank line
        (if b.toNat % 2 ^ 32 = 0 then none else some (σ.dev.now + b.toNat % 2 ^ 32))).dev.ctx
          σ.dev.issue.core σ.dev.issue.bank
      d.cause = 1024 + 64 ∧ d.s = (me σ).s ∧ d.pc = (me σ).pc ∧
        d.st = .parked (.line line (if b.toNat % 2 ^ 32 = 0 then none else some (σ.dev.now + b.toNat % 2 ^ 32)) false)))

-- The vector ALUs

/-- R336, R332: `vadd`, `vsub`, `vmul`, `vmin` and `vmax` compute element by element the exact result rounded once to the
format Q names, or the element that the rule picks; the result lands after four cycles in the slot's latch and, under
the lane mask, in vWD. R336: the fused forms round a × b + c, a × b - c or c - a × b once, where c is the element of
vWD; the result lands after four cycles. R339: `vround` rounds each element to an integral value by the mode B gives
it, `vscale` scales it by 2 to the signed element of B; B's elements are read as bare integers, and a constant as B in
the form's format. -/
def Obligations.VectorFloatForms : Prop :=
  (∀ p ∈ ([(Instr.vadd, fun f x y => rne f (Real.add (floatValue f x) (floatValue f y))),
      (Instr.vsub, fun f x y => rne f (Real.add (floatValue f x) (Real.neg (floatValue f y)))),
      (Instr.vmul, fun f x y => rne f (Real.mul (floatValue f x) (floatValue f y))),
      (Instr.vmin, fun f x y => if (value f x).isNan ∨ (value f y).isNan then f.nan
        else if (value f y).before (value f x) then y else x),
      (Instr.vmax, fun f x y => if (value f x).isNan ∨ (value f y).isNan then f.nan
        else if (value f x).before (value f y) then y else x)] :
      List ((BitVec 2 → BitVec 7 → BitVec 7 → BitVec 5 → BitVec 1 → BitVec 2 → Instr) × (Fmt → Nat → Nat → Nat))),
  ∀ σ om os ts wd we q a b, Takes σ → VReads σ (.fmt (floatOf q)) ts a → VPort σ (.fmt (floatOf q)) om os b →
    exec (p.1 om os ts wd we q) σ =
      .next (withMe σ (vFlight σ 4 (alu σ) (zipElems (floatOf q).bits (p.2 (floatOf q)) a b) (lanes σ)
        (dest we wd.toNat) 0 (vloaded σ b (me σ))))) ∧
  (∀ p ∈ ([(Instr.vfma, fun x y z => Real.add (Real.mul x y) z), (Instr.vfms, fun x y z => Real.add (Real.mul x y) (Real.neg z)),
      (Instr.vfnma, fun x y z => Real.add z (Real.neg (Real.mul x y)))] :
      List ((BitVec 2 → BitVec 7 → BitVec 7 → BitVec 5 → BitVec 1 → BitVec 2 → Instr) ×
        (Machine.Real → Machine.Real → Machine.Real → Machine.Real))),
  ∀ σ om os ts wd we q a b c, Takes σ → VReads σ (.fmt (floatOf q)) ts a → VPort σ (.fmt (floatOf q)) om os b →
    VReads σ (.fmt (floatOf q)) (wd.setWidth 7) c →
    let n := (floatOf q).bits
    let go (i : Nat) : Nat := rne (floatOf q) (p.2 (floatValue (floatOf q) ((elements n a).getD i 0))
      (floatValue (floatOf q) ((elements n b).getD i 0)) (floatValue (floatOf q) ((elements n c).getD i 0)))
    exec (p.1 om os ts wd we q) σ =
      .next (withMe σ (vFlight σ 4 (alu σ) (packVec n ((List.range (2048 / n)).map go)) (lanes σ)
        (dest we wd.toNat) 0 (vloaded σ b (me σ))))) ∧
  (∀ p ∈ ([(Instr.vround, fun f x m => rne f ((floatValue f x).roundInt (m % 4))),
      (Instr.vscale, fun f x k => rne f ((floatValue f x).scale (clampInt (-1000) 1000 (sx f.bits k))))] :
      List ((BitVec 2 → BitVec 7 → BitVec 7 → BitVec 5 → BitVec 1 → BitVec 2 → Instr) × (Fmt → Nat → Nat → Nat))),
  ∀ σ om os ts wd we q a b, Takes σ → VReads σ (.fmt (floatOf q)) ts a → VPort σ (if om = 1 ∧ 0x60 ≤ os.toNat then .fmt (floatOf q) else .bare (floatOf q).bits) om os b →
    exec (p.1 om os ts wd we q) σ =
      .next (withMe σ (vFlight σ 4 (alu σ) (zipElems (floatOf q).bits (p.2 (floatOf q)) a b) (lanes σ)
        (dest we wd.toNat) 0 (vloaded σ b (me σ)))))

/-- R336 and R344: the forms of A alone in a float format: `vabs` and `vneg` after four cycles, the function forms after
eight. Table 13.4 and R344: the special values of the function forms, in each of the three formats that Q names. -/
def Obligations.VectorFunctions : Prop :=
  (∀ p ∈ ([(Instr.vabs, 4, fun f x => if (floatValue f x).isNan then f.nan else x % 2 ^ (f.bits - 1)),
      (Instr.vneg, 4, fun f x => if (floatValue f x).isNan then f.nan else x ^^^ 2 ^ (f.bits - 1)),
      (Instr.vexp2, 8, fun f x => fnExp2 f (floatValue f x)), (Instr.vlog2, 8, fun f x => fnLog2 f (floatValue f x)),
      (Instr.vrcp, 8, fun f x => fnRcp f (floatValue f x)), (Instr.vrsqrt, 8, fun f x => fnRsqrt f (floatValue f x)),
      (Instr.vsigm, 8, fun f x => fnSigm f (floatValue f x)), (Instr.vtanh, 8, fun f x => fnTanh f (floatValue f x))] :
      List ((BitVec 7 → BitVec 5 → BitVec 1 → BitVec 2 → Instr) × Nat × (Fmt → Nat → Nat))),
  ∀ σ ts wd we q a, Takes σ → VReads σ (.fmt (floatOf q)) ts a →
    exec (p.1 ts wd we q) σ =
      .next (withMe σ (vFlight σ p.2.1 (alu σ) (mapElems (floatOf q).bits (p.2.2 (floatOf q)) a) (lanes σ)
        (dest we wd.toNat) 0 (me σ)))) ∧
  (∀ f ∈ [Fmt.fp32, .bf16, .fp16], ∀ (s : Bool) (e : Int),
    let inf (neg : Bool) : Nat := overflowCode f neg .infinity
    let zero (neg : Bool) : Nat := if neg then 2 ^ (f.bits - 1) else 0
    (∀ g ∈ [fnExp2, fnLog2, fnRcp, fnRsqrt, fnSigm, fnTanh], g f .nan = f.nan) ∧
    fnExp2 f (.inf true) = 0 ∧ fnExp2 f (.inf false) = inf false ∧ fnExp2 f (.fin s 0 e) = rne f (.ofInt 1) ∧
    fnLog2 f (.fin s 0 e) = inf true ∧ fnLog2 f (.inf true) = f.nan ∧ fnLog2 f (.inf false) = inf false ∧
    fnLog2 f (.fin false 1 0) = 0 ∧ (∀ m, m ≠ 0 → fnLog2 f (.fin true m e) = f.nan) ∧
    fnRcp f (.fin s 0 e) = inf s ∧ fnRcp f (.inf s) = zero s ∧
    fnRsqrt f (.fin s 0 e) = inf s ∧ (∀ m, m ≠ 0 → fnRsqrt f (.fin true m e) = f.nan) ∧ fnRsqrt f (.inf true) = f.nan ∧
    fnRsqrt f (.inf false) = 0 ∧
    fnSigm f (.inf true) = 0 ∧ fnSigm f (.inf false) = rne f (.ofInt 1) ∧ fnSigm f (.fin s 0 e) = rne f (.fin false 1 (-1)) ∧
    fnTanh f (.fin s 0 e) = zero s ∧ fnTanh f (.inf s) = rne f (.fin s 1 0))

/-- R337 and R338: a comparison lands n / 8 equal mask bits for each element in vmWD under the lane mask; `vsel` takes A's
bytes where the mask is set and B's elsewhere, and lands in every byte. -/
def Obligations.VectorComparesAndSelect : Prop :=
  (∀ p ∈ ([(Instr.vcmpEq, fun x y => x.eq y), (Instr.vcmpNe, fun x y => !(x.eq y)), (Instr.vcmpLt, fun x y => x.lt y),
        (Instr.vcmpLe, fun x y => x.lt y || x.eq y)] :
        List ((BitVec 2 → BitVec 7 → BitVec 7 → BitVec 3 → BitVec 1 → BitVec 2 → Instr) ×
          (Machine.Real → Machine.Real → Bool))),
    ∀ σ om os ts wd we q a b, Takes σ → VReads σ (.fmt (floatOf q)) ts a → VPort σ (.fmt (floatOf q)) om os b →
      let n := (floatOf q).bits
      let act := elementMask n (lanes σ)
      let m := cmpMask n (List.zipWith (fun x y => p.2 (floatValue (floatOf q) x) (floatValue (floatOf q) y))
        (elements n a) (elements n b))
      exec (p.1 om os ts wd we q) σ =
        .next (withMe σ (inFlight σ 4 (.mask (alu σ) (spreadMask (m &&& act)) m act (dest we wd.toNat))
          (vloaded σ b (me σ))))) ∧
  (∀ σ om os ts wd we q a b, Takes σ → VReads σ (.fmt (floatOf q)) ts a → VPort σ (.fmt (floatOf q)) om os b →
    exec (.vsel om os ts wd we q) σ =
      .next (withMe σ (vFlight σ 4 (alu σ) (blend (elementMask (floatOf q).bits (lanes σ)) a b) (BitVec.allOnes 256)
        (dest we wd.toNat) 0 (vloaded σ b (me σ)))))

/-- R340: the integer forms wrap to the element width and the logical forms act on all 2,048 bits; both land after two
cycles. -/
def Obligations.VectorIntegerForms : Prop :=
  (∀ p ∈ ([(Instr.vaddI, fun n x y => (x + y) % 2 ^ n), (Instr.vsubI, fun n x y => (x + 2 ^ n - y) % 2 ^ n),
        (Instr.vmulI, fun n x y => x * y % 2 ^ n),
        (Instr.vmulhI, fun n x y => wrap n (sx n x * sx n y / 2 ^ n)),
        (Instr.vminI, fun n x y => if sx n x ≤ sx n y then x else y),
        (Instr.vmaxI, fun n x y => if sx n x ≤ sx n y then y else x),
        (Instr.vshl, fun n x y => x * 2 ^ (y % n) % 2 ^ n), (Instr.vshr, fun n x y => x / 2 ^ (y % n)),
        (Instr.vsra, fun n x y => wrap n (sx n x / 2 ^ (y % n)))] :
        List ((BitVec 2 → BitVec 7 → BitVec 7 → BitVec 5 → BitVec 1 → BitVec 2 → Instr) × (Nat → Nat → Nat → Nat))),
    ∀ σ om os ts wd we q a b, Takes σ → VReads σ (.fmt (intOf q)) ts a → VPort σ (.fmt (intOf q)) om os b →
      exec (p.1 om os ts wd we q) σ =
        .next (withMe σ (vFlight σ 2 (alu σ) (zipElems (intOf q).bits (p.2 (intOf q).bits) a b) (lanes σ)
          (dest we wd.toNat) 0 (vloaded σ b (me σ))))) ∧
  (∀ σ ts wd we q a, Takes σ → VReads σ (.fmt (intOf q)) ts a →
    exec (.vabsI ts wd we q) σ =
      .next (withMe σ (vFlight σ 2 (alu σ)
        (mapElems (intOf q).bits (fun x => (sx (intOf q).bits x).natAbs % 2 ^ (intOf q).bits) a) (lanes σ)
        (dest we wd.toNat) 0 (me σ)))) ∧
  (∀ p ∈ ([(Instr.vand, fun x y => x &&& y), (Instr.vor, fun x y => x ||| y), (Instr.vxor, fun x y => x ^^^ y)] :
        List ((BitVec 2 → BitVec 7 → BitVec 7 → BitVec 5 → BitVec 1 → Instr) × (Vec → Vec → Vec))),
    ∀ σ om os ts wd we a b, Takes σ → VReads σ .groups ts a → VPort σ .groups om os b →
      exec (p.1 om os ts wd we) σ =
        .next (withMe σ (vFlight σ 2 (alu σ) (p.2 a b) (lanes σ) (dest we wd.toNat) 0 (vloaded σ b (me σ)))))

/-- R341 to R343: with a legal descriptor `vcvt` converts part PART of the wider side by the scale that the descriptor
holds, and `vrq` requantises 64 elements into part PART of the destination; both land after four cycles, in the bytes
written and under the lane mask. A descriptor with an illegal format or part raises cause 29. -/
def Obligations.VectorConversions : Prop :=
  (∀ σ om os ts wd we a b src dst, Takes σ → VPort σ .groups om os b →
    let d := (lane0 b).toNat
    let part := bits d 12 10
    let wide := max src.bits dst.bits
    let e := 2048 / wide
    let s : Machine.Real := if bits d 63 32 = 0 then .fin false 1 0 else floatValue .fp32 (bits d 63 32)
    let xs := elements src.bits a
    let go (i : Nat) : Nat :=
      convert dst (bit d 8) (Real.mul (value src (xs.getD (if src.bits ≤ dst.bits then part * e + i else i) 0)) s)
    let off := if src.bits ≤ dst.bits then 0 else part * e
    Fmt.ofCode (d % 16) = some src → Fmt.ofCode (bits d 7 4) = some dst → d % 16 ≠ 0 → bits d 7 4 ≠ 0 →
    part < wide / min src.bits dst.bits → VReads σ (.fmt src) ts a →
    exec (.vcvt om os ts wd we) σ =
      .next (withMe σ (vFlight σ 4 (alu σ)
        (BitVec.ofNat 2048 (packN dst.bits ((List.range e).map go) * 2 ^ (off * dst.bits)))
        (lanes σ &&& byteRange (off * dst.bits / 8) (e * dst.bits / 8)) (dest we wd.toNat) 0 (vloaded σ b (me σ))))) ∧
  (∀ σ om os ts wd we a b, Takes σ → VPort σ .groups om os b →
    let d := (lane0 b).toNat
    let part := bits d 12 10
    let src : Fmt := if bits d 7 4 = 10 then .fp32 else .int32
    let dst : Fmt := if d % 16 = 2 then .int8 else if d % 16 = 3 then .uint8 else .int16
    let go (x : Nat) : Nat :=
      let v : Int := if bits d 7 4 = 10 then sx 32 (convert .int32 false (floatValue .fp32 x)) else sx 32 x
      let r := rna (v * sx 32 (bits d 63 32)) (bits d 21 16) + sx 8 (bits d 31 24)
      wrap dst.bits (max dst.intRange.1 (min dst.intRange.2 r))
    (d % 16 = 2 ∨ d % 16 = 3 ∨ d % 16 = 4) → (bits d 7 4 = 5 ∨ bits d 7 4 = 10) →
    part < (if d % 16 = 4 then 2 else 4) → VReads σ (.fmt src) ts a →
    exec (.vrq om os ts wd we) σ =
      .next (withMe σ (vFlight σ 4 (alu σ)
        (BitVec.ofNat 2048 (packN dst.bits ((elements 32 a).map go) * 2 ^ (part * 64 * dst.bits)))
        (lanes σ &&& byteRange (part * 64 * dst.bits / 8) (64 * dst.bits / 8)) (dest we wd.toNat) 0
        (vloaded σ b (me σ))))) ∧
  (∀ σ om os ts wd we b, Takes σ → VPort σ .groups om os b →
    let d := (lane0 b).toNat
    (d % 16 = 0 ∨ 10 < d % 16 ∨ bits d 7 4 = 0 ∨ 10 < bits d 7 4 →
      exec (.vcvt om os ts wd we) σ = .next ((Work.begin σ).trapNow 29 none).commit) ∧
    (∀ src dst : Fmt, Fmt.ofCode (d % 16) = some src → Fmt.ofCode (bits d 7 4) = some dst →
      max src.bits dst.bits / min src.bits dst.bits ≤ bits d 12 10 →
      exec (.vcvt om os ts wd we) σ = .next ((Work.begin σ).trapNow 29 none).commit) ∧
    (d % 16 < 2 ∨ 4 < d % 16 ∨ (bits d 7 4 ≠ 5 ∧ bits d 7 4 ≠ 10) ∨
        (if d % 16 = 4 then 2 else 4) ≤ bits d 12 10 →
      exec (.vrq om os ts wd we) σ = .next ((Work.begin σ).trapNow 29 none).commit))

/-- R345: the movement forms: element i of the result is the element of A, or of A and W, that the rule names. R346: a
reduction lands its one value in every element of `vred.r` and vWD after six cycles, unmasked: the exact sum of the
active elements rounded once, or the largest of them, -infinity where none is active. -/
def Obligations.VectorMovesAndReductions : Prop :=
  ((∀ σ ts wd we q a, Takes σ → VReads σ (.bare (8 * 2 ^ BitVec.toNat q)) ts a →
    exec (.vmov ts wd we q) σ =
      .next (withMe σ (vFlight σ 2 (alu σ) (mapElems (8 * 2 ^ BitVec.toNat q) id a) (lanes σ) (dest we wd.toNat) 0 (me σ)))) ∧
  (∀ σ om os ts wd we q a b, Takes σ →
    let n := 8 * 2 ^ BitVec.toNat q
    let e := 2048 / n
    VReads σ (.bare n) ts a → VPort σ .groups om os b →
    exec (.vbc om os ts wd we q) σ =
      .next (withMe σ (vFlight σ 2 (alu σ)
        (packVec n ((List.range e).map fun _ => (elements n a).getD ((lane0 b).toNat % 256 % e) 0)) (lanes σ)
        (dest we wd.toNat) 0 (vloaded σ b (me σ))))) ∧
  (∀ σ om os ts wd we q a b, Takes σ →
    let n := 8 * 2 ^ BitVec.toNat q
    VReads σ (.bare n) ts a → VPort σ (.bare n) om os b →
    exec (.vperm om os ts wd we q) σ =
      .next (withMe σ (vFlight σ 3 (alu σ) (mapElems n (fun k => (elements n a).getD (k % (2048 / n)) 0) b) (lanes σ)
        (dest we wd.toNat) 0 (vloaded σ b (me σ))))) ∧
  (∀ σ om os ts wd we q a b c, Takes σ →
    let n := 8 * 2 ^ BitVec.toNat q
    let e := 2048 / n
    let d := (lane0 b).toNat
    let x (k : Nat) : Nat := (elements n a).getD k 0
    let y (k : Nat) : Nat := (elements n c).getD k 0
    let xy (k : Nat) : Nat := if k < e then x k else y (k - e)
    VReads σ (.bare n) ts a → VPort σ .groups om os b → VReads σ (.bare n) (BitVec.setWidth 7 wd) c →
    exec (.vshuf om os ts wd we q) σ =
      .next (withMe σ (vFlight σ 3 (alu σ) (packVec n ((List.range e).map fun i =>
          if d % 256 = 0 then (if i % 2 = 0 then x (i / 2) else y ((i - 1) / 2))
          else if d % 256 = 1 then (if i % 2 = 0 then x (e / 2 + i / 2) else y (e / 2 + (i - 1) / 2))
          else if d % 256 = 2 then xy (2 * i) else if d % 256 = 3 then xy (2 * i + 1)
          else if d % 256 = 4 then x (e - 1 - i) else if d % 256 = 5 then x ((i + bits d 15 8) % e) else x i)) (lanes σ)
        (dest we wd.toNat) 0 (vloaded σ b (me σ)))))) ∧
  (∀ σ ts wd we q a, Takes σ → VReads σ (.fmt (floatOf q)) ts a →
    let f := floatOf q
    let xs := actives (elements f.bits a) (activeList f.bits (lanes σ))
    exec (.vredAdd ts wd we q) σ =
      .next (withMe σ (vFlight σ 6 2 (splat f.bits (rne f (sumReals (xs.map (floatValue f))))) (BitVec.allOnes 256)
        (dest we wd.toNat) 0 (me σ))) ∧
    exec (.vredMax ts wd we q) σ =
      .next (withMe σ (vFlight σ 6 2 (splat f.bits (largest f xs)) (BitVec.allOnes 256) (dest we wd.toNat) 0 (me σ))) ∧
    (xs = [] → largest f xs = overflowCode f true .infinity))

/-- R347 to R349: with a valid walk of KIND 3 whose active elements are aligned and declared, `vld` lands the elements
after eight cycles and `vst` stores them, of two elements at one byte the one of higher index, changing no byte but
theirs; `vacc.rd` lands 64 columns of a declared unit as FP32 after six cycles, and `vacc.wr` reaches the unit after
four. -/
def Obligations.VectorMemoryAndAccumulators : Prop :=
  (∀ σ k ts wd we a i, Takes σ → VReads σ .groups ts a → (me σ).nest.get (BitVec.toNat k) 0 = i → nestValid i = true →
    nestKind i = 3 →
    let n := nestUnit i
    let es := walkElems i (lanes σ) (lane0 a).toNat
    let at_ (e : Nat × Int) : Nat := (me σ).relocate e.2.toNat
    (∀ e ∈ es, e.2 % (n : Int) = 0) → (∀ e ∈ es, 0 ≤ e.2 ∧ (me σ).declares e.2.toNat n = true) →
    exec (.vld k ts wd we) σ =
      .next (withMe σ (vFlight σ 8 (alu σ)
        (BitVec.ofNat 2048 (es.foldl (fun x e =>
          x + (Work.begin σ).lsRead σ.dev.issue.core (at_ e) n * 2 ^ (8 * n * e.1)) 0))
        (lanes σ &&& elemBytes n es) (dest we (BitVec.toNat wd))
        (if es.any fun e => lsMark (Work.begin σ) (at_ e) n ≠ 0 then 41 else 0)
        (vloaded σ (splat 64 (BitVec.toNat k)) (me σ)))) ∧
    (∀ c, VReads σ .groups (BitVec.setWidth 7 wd) c →
      ∃ t, exec (.vst k ts wd) σ = .next t ∧ me t = vloaded σ (splat 64 (BitVec.toNat k)) (me σ) ∧
        (∀ x, (∀ e ∈ es, x < Key.ls σ.dev.issue.core (at_ e) ∨ Key.ls σ.dev.issue.core (at_ e) + n ≤ x) →
          t.mem.read x = σ.mem.read x) ∧
        (∀ e ∈ es, ∀ j, j < n →
          (∀ f ∈ es, e.1 < f.1 → ¬ (at_ f ≤ at_ e + j ∧ at_ e + j < at_ f + n)) →
          t.mem.read (Key.ls σ.dev.issue.core (at_ e) + j) =
            BitVec.ofNat 8 (c.toNat / 256 ^ (n * e.1 + j))))) ∧
  (∀ σ om os ts wd we av bv u v, Takes σ → VReads σ .groups ts av → VPort σ .groups om os bv →
    let a := (lane0 av).toNat
    let b := (lane0 bv).toNat
    bits b 4 3 ≠ 3 → (bits b 4 3 = 2 → b % 2 = 0) → (me σ).unit (b % 8) = some u →
    (me σ).unit (if bits b 4 3 = 2 then b % 8 + 1 else b % 8) = some v →
    exec (.vaccRd om os ts wd we) σ =
      .next (withMe σ (vFlight σ 6 3 (packVec 32 ((List.range 64).map fun l =>
          rne .fp32 (floatValue (accFmt (bits b 4 3)) ((myCore σ).tile (accFmt (bits b 4 3)) u v (a % 64)
            (64 * bits a 7 6 + l))))) (lanes σ) (dest we (BitVec.toNat wd)) 0 (vloaded σ bv (me σ)))) ∧
    (∀ c, VReads σ .groups (BitVec.setWidth 7 wd) c →
      exec (.vaccWr om os ts wd) σ =
        .next (withMe σ (inFlight σ 4 (.accWrite (bits b 4 3) u v (a % 64) (64 * bits a 7 6) c (lanes σ))
          (vloaded σ bv (me σ))))))

/-- R351 and R352: `vmrow` lands the tag of the forwarding latch, `vmcnt` the number of set bits of the slot's mask,
`vmand`, `vmor` and `vmnot` a mask; the mask forms with a lane mask field other than 0 raise cause 2. -/
def Obligations.VectorMaskForms : Prop :=
  (∀ σ wd we, Takes σ →
    exec (.vmrow wd we) σ = .next (withMe σ (vFlight σ 2 (alu σ) (splat 64 ((me σ).mrowRow % 64 +
      (if (me σ).mrowHv then 64 else 0) + (if (me σ).mrowNf then 128 else 0) + 2 ^ 16 * ((me σ).mrowSer % 2 ^ 16)))
      (lanes σ) (dest we (BitVec.toNat wd)) 0 (me σ))) ∧
    exec (.vmcnt wd we) σ = .next (withMe σ (vFlight σ 2 (alu σ)
      (splat 64 ((List.range 256).filter fun i => (lanes σ).getLsbD i).length) (BitVec.allOnes 256)
      (dest we (BitVec.toNat wd)) 0 (me σ)))) ∧
  (∀ σ b a wd we, Takes σ →
    let x := (me σ).vmreg (BitVec.toNat a)
    let y := (me σ).vmreg (BitVec.toNat b)
    let lands (r : Mask) : State := withMe σ (inFlight σ 2
      (.mask (alu σ) (r.setWidth 2048) r (BitVec.allOnes 256) (dest we (BitVec.toNat wd))) (me σ))
    (laneSel (Work.begin σ) = 0 →
      exec (.vmand b a wd we) σ = .next (lands (x &&& y)) ∧ exec (.vmor b a wd we) σ = .next (lands (x ||| y)) ∧
      exec (.vmnot a wd we) σ = .next (lands (~~~x))) ∧
    (laneSel (Work.begin σ) ≠ 0 →
      exec (.vmand b a wd we) σ = .next ((Work.begin σ).trapNow 2 none).commit ∧
      exec (.vmor b a wd we) σ = .next ((Work.begin σ).trapNow 2 none).commit ∧
      exec (.vmnot a wd we) σ = .next ((Work.begin σ).trapNow 2 none).commit))

-- The matrix engine

/-- R359 to R362, R374: with room in the core's weight-load stream, `mwld` of a valid nest register of the weight class's
positions on an unbound bank, with a word and a walk that pass their checks, is appended to the stream with the word's
address; `mwld.b` of a quire of one likewise, a lead's as a broadcast of its own, and a follower's with its lead's
nest image, joined to the lead's. `mcal` of an unbound bank appends a calibration, which starts at once on an empty
stream. For `mwld` an invalid nest register raises 37, and a bound bank 28, as for `mcal`. -/
def Obligations.WeightLoads : Prop :=
  (∀ σ ts b k a pa, Takes σ → Reads σ ts a → (myCore σ).strm.length < 2 →
    let i := (me σ).nest.get (BitVec.toNat k) 0
    let w := Work.begin σ
    let core := σ.dev.issue.core
    let size := (quireOf σ.dev core σ.dev.issue.bank).length
    let sent (form : Nat) (img : NestImage) (grp : Option (Nat × Nat)) : State :=
      (w.pushStream form (BitVec.toNat b) img a pa grp).commit
    (wordCheck w a = .ok pa → (myCore σ).bound (BitVec.toNat b) = false → nestValid i = true →
      walkCheck w i 0 false = .ok () →
      (∃ x, passClass (nestFormat i) = some x ∧ nestPositions i = if x.is16 then 131072 else 262144) →
      exec (.mwld ts b k) σ = .next (sent 0 i none) ∧
      (size = 1 → exec (.mwldB ts b k) σ = .next (sent 1 i none)) ∧
      (size ≠ 1 → (me σ).lead = core → exec (.mwldB ts b k) σ = .next (sent 1 i (some (core, 0))))) ∧
    (∀ y, wordCheck w a = .ok pa → (myCore σ).bound (BitVec.toNat b) = false → size ≠ 1 → (me σ).lead ≠ core →
      leadLoad w = some y →
      exec (.mwldB ts b k) σ = .next (sent 1 y.img (some ((me σ).lead, y.id)))) ∧
    (nestValid i = false → exec (.mwld ts b k) σ = .next (w.trapNow 37 none).commit) ∧
    (∀ x, nestValid i = true → passClass (nestFormat i) = some x → nestPositions i = loadPositions x →
      (myCore σ).bound (BitVec.toNat b) = true → exec (.mwld ts b k) σ = .next (w.trapNow 28 none).commit)) ∧
  (∀ σ b, Takes σ → (myCore σ).strm.length < 2 →
    exec (.mcal b) σ = .next (if (myCore σ).bound (BitVec.toNat b) then (Work.begin σ).trapNow 28 none
      else (Work.begin σ).pushStream 2 (BitVec.toNat b) 0 0 0 none).commit) ∧
  (∀ (w : Work) form b i a pa grp, (∀ x ∈ w.myCore.strm, x.form = 2 → x.started = true) → ∃ cmd : WCmd,
    (w.pushStream form b i a pa grp).myCore.strm = w.myCore.strm ++ [cmd] ∧ cmd.form = form ∧ cmd.wbank = b ∧
    cmd.ctx = w.dev.issue.bank ∧ cmd.img = i ∧ cmd.word = BitVec.toNat a ∧ cmd.wordPa = pa ∧
    cmd.started = decide (form = 2 ∧ w.myCore.strm = []) ∧
    (w.pushStream form b i a pa grp).dev.ctxs = w.dev.ctxs ∧ (w.pushStream form b i a pa grp).log = w.log ∧
    (w.pushStream form b i a pa grp).myCore.passes = w.myCore.passes)

/-- R253, R365 to R368: where no third pass waits and the active bank is not under load, `mrun` and `mrun.f` with a
well-formed descriptor, a loaded bank, formats that pair, declared units, a bank not stale under its split and a walk
that passes its checks trigger the pass that the descriptor and the slot word name: it starts when the pass before it
has streamed, on the bank active at t, under the effective split. A reserved bit or WIN = 3 raises 2; bad rows 29; a
bad walk 37. -/
def Obligations.Passes : Prop :=
  ∀ σ ts f add win sp a, Takes σ → Reads σ ts a → passHold (Work.begin σ) = .ok () →
    let w := Work.begin σ
    let c := me σ
    let cr := myCore σ
    let n := a.toNat
    let rows := bits n 22 16
    let i := c.nest.get (bits n 3 0) 0
    let bank := cr.wb.get cr.active {}
    let fields : Prop := bit n 7 = false ∧ bits n 15 14 = 0 ∧ bit n 23 = false ∧ n < 2 ^ 25 ∧ BitVec.toNat win ≠ 3
    let tile : Prop := 1 ≤ rows ∧ rows ≤ 64 ∧ bits n 13 8 + rows ≤ 64
    let walk : Prop := nestValid i = true ∧ nestKind i = 3 ∧
      nestPositions i = rows * (if nestFormat i = .int4 then 512 else 1024)
    let s := c.effSplit (BitVec.toNat sp)
    let pass (fwd : Bool) (u0 u1 : Nat) : Pass :=
      { ctx := σ.dev.issue.bank, fwd := fwd, img := i, u0 := u0, u1 := u1, row0 := bits n 13 8, rows := rows,
        ch := bits n 24 24, split := s, win := 64 * 2 ^ BitVec.toNat win, add := decide (BitVec.toNat add = 1), af := BitVec.toNat f,
        wbank := cr.active, pc := σ.dev.issue.pc, seq := cr.pser, start := max cr.clk cr.streamEnd,
        snap := w.lsSnap σ.dev.issue.core, reloc := c.reloc, fser := c.mrowCnt + 1 }
    (∀ k wf u0 u1, fields → tile → walk → bank.st = .loaded → Fmt.ofCode bank.fmt = some wf → passClass wf = some k →
      classPair (nestFormat i) wf = true → classAcc k (BitVec.toNat f) = true → BitVec.toNat sp ≤ k.maxSplit →
      (classPairs k (BitVec.toNat f) = true → bits n 6 4 % 2 = 0) → (bits n 24 24 = 0 ∨ k.is16 = true) →
      c.unit (bits n 6 4) = some u0 →
      c.unit (if classPairs k (BitVec.toNat f) then bits n 6 4 + 1 else bits n 6 4) = some u1 →
      (s = 0 ∨ bankStale σ.dev bank = false) → walkCheck w i 0 false = .ok () →
      exec (.mrun ts f add win sp) σ = .next (w.trigger (pass false u0 u1) k false).commit ∧
      (k.isInt4 = false →
        exec (.mrunF ts f add win sp) σ = .next (w.trigger (pass true u0 u1) k true).commit) ∧
      (∀ fwd, let t := w.trigger (pass fwd u0 u1) k fwd
        t.myCore.passes = cr.passes ++ [pass fwd u0 u1] ∧ t.log = [] ∧
        t.myCore.streamEnd = max cr.clk cr.streamEnd + rows * k.cadence ∧
        t.me = { c with mrowCnt := c.mrowCnt + if fwd then 1 else 0 })) ∧
    (¬ fields → exec (.mrun ts f add win sp) σ = .next (w.trapNow 2 none).commit ∧
      exec (.mrunF ts f add win sp) σ = .next (w.trapNow 2 none).commit) ∧
    (fields → ¬ tile → exec (.mrun ts f add win sp) σ = .next (w.trapNow 29 none).commit ∧
      exec (.mrunF ts f add win sp) σ = .next (w.trapNow 29 none).commit) ∧
    (fields → tile → ¬ walk → exec (.mrun ts f add win sp) σ = .next (w.trapNow 37 none).commit ∧
      exec (.mrunF ts f add win sp) σ = .next (w.trapNow 37 none).commit)

/-- R364, R369 to R373: `mswap` of a permitted kind and `mzero` of declared units that no pass writes act one cycle later,
and `mswap` of kind 1 and `mzero` of no unit raise 2, of an undeclared one 30; `mbound` reads the bound of a declared
unit's row into `m.r` after two cycles and with `set` replaces it after one, and reserved bits of its operand raise 2;
`mstat` and `mclip` land their words in `m.r`, `mmode` writes cw.mmode, each after two cycles. -/
def Obligations.MatrixStateForms : Prop :=
  (∀ σ x, Takes σ → exec (.mswap x) σ = .next (if BitVec.toNat x = 1 then ((Work.begin σ).trapNow 2 none).commit
    else withMe σ (inFlight σ 1 (.bankSwap (BitVec.toNat x)) (me σ)))) ∧
  (∀ σ u m, Takes σ → BitVec.toNat u ≠ 0 →
    writableUnits (Work.begin σ) ((List.range 8).filter fun k => bit (BitVec.toNat u) k) = .ok m →
    exec (.mzero u) σ = .next (withMe σ (inFlight σ 1 (.unitsZero m) (me σ)))) ∧
  (∀ σ, Takes σ → exec (.mzero 0) σ = .next ((Work.begin σ).trapNow 2 none).commit) ∧
  (∀ σ u r, Takes σ → r < 8 → bit (BitVec.toNat u) r = true → (me σ).unit r = none →
    (∀ j, j < r → bit (BitVec.toNat u) j = false) → exec (.mzero u) σ = .next ((Work.begin σ).trapNow 30 none).commit) ∧
  (∀ σ ts a u, Takes σ → Reads σ ts a → bits a.toNat 7 3 = 0 → a.toNat < 2 ^ 14 → (me σ).unit (a.toNat % 8) = some u →
    exec (.mbound ts) σ = .next (withMe σ (inFlight σ 2
      (.scalar 6 (BitVec.ofNat 64 ((myCore σ).bnd.get (64 * u + bits a.toNat 13 8) 0)) none 0) (me σ))) ∧
    (∀ om os b, Port σ 6 om os b → b.toNat < 2 ^ 32 → (myCore σ).writes u = false →
      exec (.mboundSet om os ts) σ = .next (withMe σ (inFlight σ 1
        (.boundSet u (bits a.toNat 13 8) b.toNat) (loaded 6 b (me σ)))))) ∧
  (∀ σ ts a, Takes σ → Reads σ ts a → bits a.toNat 7 3 ≠ 0 ∨ 2 ^ 14 ≤ a.toNat →
    exec (.mbound ts) σ = .next ((Work.begin σ).trapNow 2 none).commit) ∧
  (∀ σ, Takes σ → exec .mstat σ = .next (withMe σ (inFlight σ 2
    (.scalar 6 (BitVec.ofNat 64 (mstatWord (Work.begin σ))) none 0) (me σ)))) ∧
  (∀ σ ts a, Takes σ → Reads σ ts a →
    exec (.mclip ts) σ = .next (if 4 < a.toNat then ((Work.begin σ).trapNow 2 none).commit
      else withMe σ (inFlight σ 2 (.scalar 6 (BitVec.ofNat 64
        (if a.toNat = 4 then (myCore σ).clipLo + 256 * (myCore σ).clipHi + (if (myCore σ).clipAny then 65536 else 0)
         else (myCore σ).clipMask.toNat / 2 ^ (64 * a.toNat) % 2 ^ 64)) none 0) (me σ)))) ∧
  (∀ σ (g : BitVec 1), Takes σ →
    exec (.mmode g) σ = .next (withMe σ (inFlight σ 2 (.control 0x032 (g.setWidth 64)) (me σ))))

-- The copy engines

/-- R375 to R383, R389: with fewer than 16 commands on its engine, a copy, reduction, gather, scatter or bank form that
passes its form's checks, its word's and its walks' is accepted at the end of its engine's queue with both operands,
its word and the images of the nest registers X names, and its port receives B; `cp.pub` is accepted with no check.
Nest registers that do not fit raise cause 37. R384 to R388: past its checks `cp.q` sends its packet to the home in
the cycle that asks for it, and, once the home has answered, has no further effect or raises the home's cause; a role
or element size that does not fit raises 21 or 19. `cp.fence` stands behind the commands before it, and leaves nothing
where no command is outstanding; commands change in nothing but their times. `cp.stat` lands the engine's counts, or
an armed word's count with bit 63, after four cycles. `cp.quiesce` raises 13 or 10 for a bad record; while a command
of the context runs it begins the quiesce and then waits; else it drops the context's commands of the engine and
writes their number at the head of the record. `cp.abort` ends the commands of a word, or all, with cause 32. -/
def Obligations.CopyForms : Prop :=
  ((∀ p ∈ ([(Instr.cp, 1), (Instr.cpSh, 2), (Instr.cpRed, 3), (Instr.cpG, 4), (Instr.cpS, 5), (Instr.bk, 6),
        (Instr.bkRed, 7)] : List ((BitVec 2 → BitVec 7 → BitVec 7 → BitVec 4 → BitVec 4 → Instr) × Nat)),
    ∀ σ om os ts y z a b, Takes σ → Reads σ ts a →
      let w := Work.begin σ
      let e := w.engine
      Port σ (7 + e) om os b → ((myCore σ).engineCmds e).length < 16 →
      let i := σ.dev.issue
      let n1 := (me σ).nest.get (BitVec.toNat z) 0
      let n2 := (me σ).nest.get (BitVec.toNat y) 0
      let n3 := if p.2 = 6 then (me σ).nest.get (b.toNat % 16) 0 else 0
      (∀ pa, nestsOk p.2 b.toNat n1 n2 n3 = true → copyOperation p.2 b.toNat n1 n2 n3 = .ok () → wordCheck w a = .ok pa →
        copyWalks w p.2 b n1 n2 n3 = .ok () →
        exec (p.1 om os ts y z) σ =
          .next ((w.setPort (7 + e) b).acceptCopy i.core i.bank e p.2 i.pc i.word a b pa n1 n2 n3).commit) ∧
      (nestsOk p.2 b.toNat n1 n2 n3 = false → exec (p.1 om os ts y z) σ = .next (w.trapNow 37 none).commit)) ∧
  (∀ σ om os ts a b, Takes σ → Reads σ ts a →
    let e := (Work.begin σ).engine
    Port σ (7 + e) om os b → ((myCore σ).engineCmds e).length < 16 →
    let i := σ.dev.issue
    exec (.cpPub om os ts) σ =
      .next (((Work.begin σ).setPort (7 + e) b).acceptCopy i.core i.bank e 13 i.pc i.word a b 0 0 0 0).commit) ∧
  (∀ (w : Work) core bank eng form pc word a b pa n1 n2 n3, ∃ cmd : CopyCmd,
    let t := w.acceptCopy core bank eng form pc word a b pa n1 n2 n3
    (t.core core).ce.get eng [] = (w.core core).ce.get eng [] ++ [.cmd cmd] ∧
    (∀ k, k ≠ eng → (t.core core).ce.get? k = (w.core core).ce.get? k) ∧
    cmd.form = form ∧ cmd.ctx = bank ∧ cmd.a = a ∧ cmd.b = b ∧ cmd.wordPa = pa ∧ cmd.n1 = n1 ∧ cmd.n2 = n2 ∧
    cmd.n3 = n3 ∧ cmd.word = word ∧ cmd.running = false ∧ cmd.order = (w.core core).cmdSer ∧
    t.dev.ctxs = w.dev.ctxs ∧ t.log = w.log)) ∧
  ((∀ σ ts n a b, Takes σ → Reads σ ts a → boundTo (Work.begin σ) n = .ok b → (b.role = 1 ∨ b.role = 3 ∨ b.role = 4) →
    b.elog = 6 → a.toNat % 32 = 0 → (me σ).declares a.toNat 64 = true →
    let i := σ.dev.issue
    ((me σ).packetOf i.pc i.slot = none → i.asks = true → Leaves σ (exec (.cpQ ts n) σ) { me σ with
      seq := (me σ).seq + 1
      packets := (me σ).packets ++ [({ pc := i.pc, slot := i.slot, lvl := (me σ).lvl, op := (me σ).seq } : Packet)]
      qops := (me σ).qops ++ [{ id := (me σ).seq, form := 8, bnd := BitVec.toNat n, handle := b.handle, cb := b.cb,
                                home := b.home, elog := b.elog, pc := i.pc, slot := i.slot, ld := i.ld, arg := a,
                                elem := (Work.begin σ).lsRead i.core ((me σ).relocate a.toNat) 64, land := none,
                                seq := (me σ).seq, stale := b.stale }] }) ∧
    (∀ p, (me σ).packetOf i.pc i.slot = some p → p.ans = some 0 → exec (.cpQ ts n) σ = .next (same σ)) ∧
    (∀ p cause, (me σ).packetOf i.pc i.slot = some p → p.ans = some cause → cause ≠ 0 →
      let gone : Ctx → Ctx := fun c => { c with packets := c.packets.filter fun x => decide (x ≠ p) }
      exec (.cpQ ts n) σ = .next (((Work.begin σ).updMe gone).trapNow cause none).commit)) ∧
  (∀ σ ts n a b, Takes σ → Reads σ ts a → boundTo (Work.begin σ) n = .ok b →
    (b.role ≠ 1 → b.role ≠ 3 → b.role ≠ 4 → exec (.cpQ ts n) σ = .next ((Work.begin σ).trapNow 21 none).commit) ∧
    ((b.role = 1 ∨ b.role = 3 ∨ b.role = 4) → b.elog ≠ 6 →
      exec (.cpQ ts n) σ = .next ((Work.begin σ).trapNow 19 none).commit)) ∧
  (∀ σ b, Takes σ → ∃ t, exec (.cpFence b) σ = .next t ∧ SameBytes σ t ∧ t.dev.ctxs = σ.dev.ctxs ∧
    (∀ e, (Machine.engineCmds ((myCore t).ce.get e [])).map (fun c => { c with lts := 0 }) =
      (Machine.engineCmds ((myCore σ).ce.get e [])).map fun c => { c with lts := 0 }) ∧
    ((myCore σ).cmds = [] → ∀ e, e < 2 → (myCore t).ce.get e [] = []) ∧
    (∀ x ∈ (myCore σ).engineCmds (Work.begin σ).engine, x.order < (myCore σ).cmdSer →
      EngineItem.fence (myCore σ).cmdSer (decide (b = 1)) ∈ (myCore t).ce.get (Work.begin σ).engine [])) ∧
  (∀ σ ts a, Takes σ → Reads σ ts a →
    let e := (Work.begin σ).engine
    (a = 0 → exec (.cpStat ts) σ = .next (withMe σ (inFlight σ 4
      (.scalar (7 + e) (BitVec.ofNat 64 (((myCore σ).engineCmds e).length % 32 +
        32 * (((myCore σ).engineCmds e).filter fun x => x.running && !x.stopped).length +
        (if (myCore σ).qui.any fun x => decide (x.1 = e) then 256 else 0))) none 0) (me σ)))) ∧
    (∀ n, a ≠ 0 → armedCount (me σ) (myCore σ).clk a.toNat = some n →
      exec (.cpStat ts) σ = .next (withMe σ (inFlight σ 4
        (.scalar (7 + e) (BitVec.ofNat 64 (n % 2 ^ 40 + 2 ^ 63)) none 0) (me σ)))) ∧
    (a ≠ 0 → armedCount (me σ) (myCore σ).clk a.toNat = none →
      exec (.cpStat ts) σ = .next (withMe σ (inFlight σ 4 (.timeSeen ((me σ).freed.get a.toNat 0))
        (inFlight σ 4 (.scalar (7 + e) 0 none 0) (me σ)))))) ∧
  (∀ σ ts a, Takes σ → Reads σ ts a →
    (a.toNat % 32 ≠ 0 → exec (.cpQuiesce ts) σ = .next ((Work.begin σ).trapNow 13 none).commit) ∧
    (a.toNat % 32 = 0 → (me σ).declares a.toNat 5152 = false →
      exec (.cpQuiesce ts) σ = .next ((Work.begin σ).trapNow 10 none).commit) ∧
    (a.toNat % 32 = 0 → (me σ).declares a.toNat 5152 = true →
      runsOn (myCore σ) (Work.begin σ).engine σ.dev.issue.bank = true →
      ((myCore σ).qui.contains ((Work.begin σ).engine, σ.dev.issue.bank) = false → σ.dev.issue.asks = true →
        exec (.cpQuiesce ts) σ = .next (withCore σ { myCore σ with
          qui := ((Work.begin σ).engine, σ.dev.issue.bank) :: (myCore σ).qui })) ∧
      ((myCore σ).qui.contains ((Work.begin σ).engine, σ.dev.issue.bank) = true →
        exec (.cpQuiesce ts) σ = .next (noteVerdict σ (.hold .limited)))) ∧
    (a.toNat % 32 = 0 → (me σ).declares a.toNat 5152 = true →
      runsOn (myCore σ) (Work.begin σ).engine σ.dev.issue.bank = false →
      let e := (Work.begin σ).engine
      let mine := ((myCore σ).engineCmds e).filter fun c => decide (c.ctx = σ.dev.issue.bank)
      ∃ t, exec (.cpQuiesce ts) σ = .next t ∧ t.dev.ctxs = σ.dev.ctxs ∧
        (myCore t).engineCmds e = ((myCore σ).engineCmds e).filter (fun c => decide (c.ctx ≠ σ.dev.issue.bank)) ∧
        (mine.length ≤ 16 → (Work.begin t).readN (Key.ls σ.dev.issue.core ((me σ).relocate a.toNat)) 8 = mine.length ∧
          ∀ k, k < Key.ls σ.dev.issue.core ((me σ).relocate a.toNat) ∨
            Key.ls σ.dev.issue.core ((me σ).relocate a.toNat) + 5152 ≤ k → t.mem.read k = σ.mem.read k))) ∧
  (∀ σ ts a, Takes σ → Reads σ ts a →
    let e := (Work.begin σ).engine
    ∃ t, exec (.cpAbort ts) σ = .next t ∧ SameBytes σ t ∧ t.dev.ctxs = σ.dev.ctxs ∧
      (myCore t).engineCmds e = ((myCore σ).engineCmds e).map fun c =>
        if (a = 0 ∨ c.form ≠ 13 ∧ c.a = a) ∧ c.err = none then { c with left := [], err := some (32, 1) } else c))

-- Encodings

/-- R264, R267 to R279: decode and encode agree. A word that a slot's map gives an instruction is the word of that
well-formed instruction, bit for bit; and the word of every well-formed slot form, with every operand at every value
its encoding admits, is read back by some slot as that form. V0 and V1 share a map, and so do C0 and C1. -/
def Obligations.EncodingRoundTrip : Prop :=
  (∀ sl w i, readWord sl w = some i → i.wf = true ∧ encode i = [w]) ∧
  (∀ i w, i.wf = true → encode i = [w] → ∃ sl, readWord sl w = some i) ∧
  (∀ w, decodeSlot .v0 w = decodeSlot .v1 w ∧ decodeSlot .c0 w = decodeSlot .c1 w)

/-- R268, R274 to R277, R279: a nop word is all zeros; an opcode that a slot's table does not list is refused as
unassigned, whatever the rest of the word; the two refusals raise causes 1 and 2. -/
def Obligations.UnassignedWords : Prop :=
  (∀ sl, decodeSlot sl 0 = .ok none) ∧
  (∀ sl (w : Word32), w ≠ 0 → w.extractLsb' 25 7 = 0 → decodeSlot sl w = .error .reservedField) ∧
  (∀ w : Word32, (w.extractLsb' 25 7).toNat ∈ [0x1E, 0x1F, 0x27, 0x3B, 0x3C, 0x3D, 0x3E, 0x3F] ++
      (List.range 6).map (· + 0x4A) ++ (List.range 4).map (· + 0x5C) ++ (List.range 15).map (· + 0x71) →
    decodeSlot .s w = .error .unassignedOpcode) ∧
  (∀ w : Word32, (w.extractLsb' 25 7).toNat ∈ [0x0E, 0x0F] ++ (List.range 28).map (· + 0x14) ++
      (List.range 11).map (· + 0x3D) ++ (List.range 6).map (· + 0x4A) ++ (List.range 10).map (· + 0x56) ++
      [0x66, 0x67, 0x6D, 0x6E, 0x6F] ++ (List.range 12).map (· + 0x74) →
    decodeSlot .v0 w = .error .unassignedOpcode) ∧
  (∀ w : Word32, 0x0C ≤ (w.extractLsb' 25 7).toNat → decodeSlot .m w = .error .unassignedOpcode) ∧
  (∀ w : Word32, 0x0E ≤ (w.extractLsb' 25 7).toNat → decodeSlot .c0 w = .error .unassignedOpcode) ∧
  DecodeError.unassignedOpcode.cause = 1 ∧ DecodeError.reservedField.cause = 2

/-- Words that the spec writes out (Example 11.1, Tables of files 15 and 16) decode to the forms it writes them for. -/
def Obligations.SampleWords : Prop :=
  readWord .s 0x037D082C = some (.add 2 0x7D 4 5 1) ∧
  readWord .v1 0x02820225 = some (.vadd 1 2 1 4 1 1) ∧
  readWord .s 0x1108C8C4 = some (.shl 2 8 0x64 24 1) ∧
  readWord .v0 0xD5106804 = some (.vaccRd 2 0x10 0x34 0 1) ∧
  readWord .v0 0x90B9084C = some (.vcvt 1 0x39 4 9 1) ∧
  readWord .v0 0xD3017048 = some (.vst 1 0x38 9) ∧
  readWord .c0 0x0D053264 = some (.bk 2 5 0x19 6 4) ∧
  readWord .s 0xC9802800 = some (.cleanR 3 0 0x14) ∧
  readWord .s 0xC41B0000 = some (.fenceInstruction 3 3) ∧
  readWord .m 0x10000000 = some (.mcal 0) ∧
  readWord .m 0x02000013 = some (.mwld 0 1 3) ∧
  readWord .m 0x08001954 = some (.mrun 0x0C 2 1 1 4) ∧
  readWord .s 0xAD050000 = some (.loop 5) ∧
  readWord .s 0xD3151200 = some (.wrcw 2 0x15 9) ∧
  readWord .m 0x1200E800 = some (.mclip 0x74) ∧
  readWord .m 0x16000000 = some (.mbound 0)

-- A step

/-- A step runs the decoded instruction. Where the bundle at the program counter of a core that issues alone holds one
slot word that decodes to i, and nothing holds or stops the bundle, the step is exec of i at the issue of that slot,
then the next bundle's address and the end of the cycle; the forms that end, leave or enter a task act when the
program counter stands at the next bundle. A slot word that decodes to nothing raises the cause of its refusal. A
cycle that would meet a line it has to wait for issues nothing. What waits outside a tripped part, and is bound to no
time, is executed as it is, and with nothing waiting the part stops for good. -/
def Obligations.StepRunsDecoded : Prop :=
  (∀ σ core bank rest b n i r w t, AboutToIssue σ core bank rest b n i r w → controls b = false →
    exec i (w.setIssue (issueFor core bank r false n)).commit = .next t →
    Settled (endCycle (onward (Work.begin t) core bank r) core bank) →
    step σ = .next (endCycle (onward (Work.begin t) core bank r) core bank)) ∧
  (∀ σ core bank rest b i r w t, AboutToIssue σ core bank rest b 1 i r w → controls b = true →
    exec i ((onward w core bank r).setIssue { issueFor core bank r false 1 with sure := true }).commit = .next t →
    Settled (endCycle (Work.begin t) core bank) →
    step σ = .next (endCycle (Work.begin t) core bank)) ∧
  (∀ w : Work, w.dev.issue.probe = false → ∀ e, decodeSlot (slotOf w.dev.issue.slot) w.dev.issue.word = .error e →
    w.runSlot = w.trapNow e.cause none) ∧
  (∀ σ core rest, σ.dev.mode = .running → σ.dev.turn = core :: rest → misaligned σ.dev core = false →
    let w := (Work.begin σ).mapDev fun d => { d with turn := rest }
    let q := unitOf w.dev core
    misaligned w.dev core = false → (w.coreCycle q).dev.coh.waits ≠ [] →
    step σ = .next (q.foldl (fun x k => (x.updCore k fun c => { c with raw := c.raw + 1 }).restCycle k)
      (w.settled (w.coreCycle q))).commit) ∧
  (∀ σ i rest t, σ.dev.mode = .tripped → σ.dev.inputs = i :: rest → encode i = [] → isTimed i = false →
    exec i { σ with dev := { σ.dev with inputs := rest } } = .next t → Settled t → step σ = .next t) ∧
  (∀ σ, σ.dev.mode = .tripped → σ.dev.inputs = [] → step σ = .fault .thermalTrip)

/-- R1, R9: the memory keeps its canonical form. Every step from a state whose list of bytes has strictly rising addresses
and lists no byte equal to what an unlisted address reads as leads to such a state, whatever the rest of the state is. -/
def Obligations.StepKeepsMemoryForm : Prop :=
  ∀ s t, Safety.Inv s → Machine.step s = .next t → Safety.Inv t

/-- R38, R80: the part goes on. No step is refused, and the one fault of a step is that of a part that has tripped while
nothing waits outside; the execution of an instruction is neither refused nor a fault in any state. -/
def Obligations.EveryStepGoesOn : Prop :=
  (∀ i s, ∃ t, exec i s = .next t) ∧
  (∀ s, s.dev.mode = .tripped ∧ s.dev.inputs = [] ∨ GoesOn s) ∧
  (∀ s, s.dev.mode = .tripped → s.dev.inputs = [] → Machine.step s = .fault .thermalTrip)

/-- What State.reset holds: bring-up at its first step (R38), no partition configured, no launch, an absent guest, idle
contexts at level 0, and the registers that read as constants; no byte of memory is listed. The zeros of the scalar
registers are the model's (log entry 2). -/
def Obligations.ResetState : Prop :=
  Safety.Inv State.reset ∧ State.reset.mem = {} ∧ State.reset.dev.mode = .bringUp ∧ State.reset.dev.sock.st = 0 ∧ State.reset.dev.sock.dv = false ∧
  (∀ k, (State.reset.dev.partOf k).st = 0) ∧ (∀ k, State.reset.dev.launches.get? k = none) ∧
  (∀ core bank, let c := State.reset.dev.ctx core bank
    c.st = .idle ∧ c.lvl = 0 ∧ c.preg 0 = true ∧ c.vmreg 0 = BitVec.allOnes 256 ∧ (∀ n, c.sreg n = 0) ∧ c.outs = [] ∧ c.accs = [])

-- The package (file 01) and bring-up

/-- R34, R37, R38, R17: the host sets the envelope of a running part to a multiple of 25 W from 900 to 1,500, or is told
that it cannot; an estimate above the envelope lowers every running launch's operating point a step, one in the band
between 97 and 100 % ends the count, and one below raises it when every estimate of 100 us has been below; a change of
operating point ends with the island's busy contexts having been frozen for 1,200 cycles, and not before its time. R31
to R33: a sample of the sensors takes the readings given, sets cw.therm of a cluster with no layer in the 95 C action
from its junction and its hottest layer, and at 115 C anywhere trips the part and interrupts the host. -/
def Obligations.PowerAndSensors : Prop :=
  ((∀ σ w, exec (.setEnvelope w) σ = .next (withDev σ
    (if σ.dev.mode = .running ∧ 900 ≤ w ∧ w ≤ 1500 ∧ w % 25 = 0 ∧ σ.dev.envHeld = false then
      { σ.dev with envelope := w, host := { σ.dev.host with reply := .done } }
     else { σ.dev with host := { σ.dev.host with reply := .unsupported } }))) ∧
  (∀ σ draw, 97 * σ.dev.envelope ≤ 100 * draw → draw ≤ σ.dev.envelope →
    exec (.powerEstimate draw) σ = .next (withDev σ { σ.dev with lowSince := none })) ∧
  (∀ σ draw, 100 * draw < 97 * σ.dev.envelope →
    (σ.dev.lowSince = none →
      exec (.powerEstimate draw) σ = .next (withDev σ { σ.dev with lowSince := some σ.dev.now })) ∧
    (∀ t, σ.dev.lowSince = some t → σ.dev.now < t + 60000 → exec (.powerEstimate draw) σ = .next (same σ))) ∧
  (∀ σ draw, σ.dev.envelope < draw ∨
      100 * draw < 97 * σ.dev.envelope ∧ (∃ t, σ.dev.lowSince = some t ∧ t + 60000 ≤ σ.dev.now) →
    ∃ t, exec (.powerEstimate draw) σ = .next t ∧ SameBytes σ t ∧ t.dev.ctxs = σ.dev.ctxs ∧
      t.dev.lowSince = (if σ.dev.envelope < draw then none else some σ.dev.now) ∧
      t.dev.launches = σ.dev.launches.map fun p => (p.1, if p.2.live then
        { p.2 with op := if σ.dev.envelope < draw then max 12 (p.2.op - 1) else min 24 (p.2.op + 1) } else p.2)) ∧
  (∀ σ cl u, (σ.dev.island cl).until_ = some u → u ≤ σ.dev.now →
    ∃ t, exec (.operatingPointChangeDone cl) σ = .next t ∧ SameBytes σ t ∧
      t.dev.islands = σ.dev.islands.set cl { σ.dev.island cl with until_ := none } ∧
      ∀ k, k < 16 →
        let core := 16 * cl + k
        let bank := (σ.dev.core core).cur
        let c := σ.dev.ctx core bank
        (t.dev.ctx core bank).frz = if c.busy then c.frz + 1200 else c.frz) ∧
  (∀ σ cl u, (σ.dev.island cl).until_ = some u → σ.dev.now < u →
    exec (.operatingPointChangeDone cl) σ = .next (same σ))) ∧
  (∀ σ xs, ∃ t, exec (.sensorSample xs) σ = .next t ∧ SameBytes σ t ∧
    (∀ k, k < 32 → t.dev.junc.get k 180 = xs.getD k (σ.dev.junc.get k 180)) ∧
    (∀ k, k < 256 → t.dev.layer.get k 180 = xs.getD (32 + k) (σ.dev.layer.get k 180)) ∧
    (∀ cl, cl < 32 → (∀ n, n < 8 → σ.dev.zero95.get (8 * cl + n) false = false ∧ t.dev.layer.get (8 * cl + n) 180 < 380) →
      t.dev.therm.get cl 255 = thermOf (t.dev.junc.get cl 180) (hottestLayer t.dev cl)) ∧
    (∀ cl n, cl < 32 → n < 8 → 380 ≤ t.dev.layer.get (8 * cl + n) 180 → t.dev.therm.get cl 255 = 0) ∧
    ((∃ x ∈ xs, 460 ≤ x) → t.dev.mode = .tripped ∧ t.dev.host.irq = true) ∧
    ((∀ x ∈ xs, x < 460) → t.dev.mode = σ.dev.mode ∧ t.dev.host = σ.dev.host))

/-- R23 to R30: the first lane of a group to fail steers its spare in and retrains the bus for 1,200 cycles of the core's
clock, a second leaves the bus at half width where a half is whole and fails the column where none is; a retrain ends
when its time has come. A boundary loses a lane bundle, and fails with the last of its 16; a peer port goes down with
the 33rd replay within a millisecond, and with it the translations through its link, and comes up under a new tag.
R69, R166, R193: a peer's request through a port that is down, or to memory that is not powered and reachable, private
or secure, gets an error completion; a read within a line of clean memory returns the bytes, a write is done as its
agent's, and a request that meets a line it has to wait for waits. -/
def Obligations.Links : Prop :=
  ((∀ σ col g, (σ.dev.column col).bus ≠ 3 →
    let c := σ.dev.column col
    let c1 : Column := { c with lost := c.lost.set g (c.lost.get g 0 + 1) }
    let until_ := σ.dev.now + retrainTime σ.dev (coreCluster col)
    let c2 : Column := if c.lost.get g 0 = 0 then { c1 with bus := if c.bus = 0 then 1 else c.bus, retrain := some until_ }
      else if halfWhole c1 0 ∨ halfWhole c1 32 then { c1 with bus := 2, retrain := some until_ }
      else { c1 with bus := 3, retrain := none }
    exec (.laneFailure col g) σ = .next (withDev σ { σ.dev with cols := σ.dev.cols.set col c2 })) ∧
  (∀ σ col u, (σ.dev.column col).retrain = some u → u ≤ σ.dev.now →
    exec (.verticalBusRetrainDone col) σ =
      .next (withDev σ { σ.dev with cols := σ.dev.cols.set col { σ.dev.column col with retrain := none } })) ∧
  (∀ σ b, σ.dev.bounds.get b 0 ≠ 15 → exec (.laneBundleFailure b) σ =
    .next (withDev σ { σ.dev with bounds := σ.dev.bounds.set b (min 16 (σ.dev.bounds.get b 0 + 1)) })) ∧
  (∀ σ b, σ.dev.bounds.get b 0 = 15 →
    let d : Dev := { σ.dev with bounds := σ.dev.bounds.set b 16 }
    let newly := (List.range 4).filter fun k => dieCut d k && !d.isolated.contains k
    exec (.laneBundleFailure b) σ = .next (newly.foldl Work.failOnDie
      (({ Work.begin σ with dev := { d with isolated := d.isolated ++ newly } } : Work).cutQueues).failSteals).commit) ∧
  (∀ σ p, let x := σ.dev.ports.get p {}
    let recent := σ.dev.now :: x.replays.filter fun t => decide (σ.dev.now < t + 600000)
    let y : Machine.Port := { x with replays := recent }
    (recent.length ≤ 32 ∨ x.up = false →
      exec (.peerFlitCrcFail p) σ = .next (withDev σ { σ.dev with ports := σ.dev.ports.set p y })) ∧
    (32 < recent.length → x.up = true → ∃ t, exec (.peerFlitCrcFail p) σ = .next t ∧ SameBytes σ t ∧
      (t.dev.ports.get p {}).up = false)) ∧
  (∀ σ p, ∃ t, exec (.peerPortDown p) σ = .next t ∧ SameBytes σ t ∧ t.dev.ctxs = σ.dev.ctxs ∧
    t.dev.ports = σ.dev.ports.set p { σ.dev.ports.get p {} with up := false } ∧
    ∀ c ∈ t.dev.cores, ∀ e ∈ c.2.tlb,
      ¬ (regionOf e.frame = .peer ∧ σ.dev.routes.get? (bits e.frame 49 38) = some p)) ∧
  (∀ σ p, (σ.dev.ports.get p {}).up = false → 
    let y : Machine.Port := { up := true, tag := (σ.dev.ports.get p {}).tag + 1, replays := [] }
    exec (.peerPortUp p) σ = .next (withDev σ { σ.dev with ports := σ.dev.ports.set p y }))) ∧
  (∀ σ p q,
    ((σ.dev.ports.get p {}).up = false ∨ rangeFault σ.dev (portDie p) q.addr q.len false ≠ 0 ∨
        anyPrivate σ.dev q.addr q.len = true ∨ anySecure σ.dev q.addr q.len = true →
      exec (.peerRequest p q) σ = .next (withDev σ { σ.dev with host := { σ.dev.host with reply := .linkError } })) ∧
    ((σ.dev.ports.get p {}).up = true → rangeFault σ.dev (portDie p) q.addr q.len false = 0 → anyPrivate σ.dev q.addr q.len = false →
      anySecure σ.dev q.addr q.len = false → outsideWaits σ.dev q.addr q.len (decide (q.kind = 1)) = false →
      (q.kind = 0 → 0 < q.len → q.addr % 64 + q.len ≤ 64 → anyPoison (Work.begin σ) q.addr q.len = false →
        ∃ t, exec (.peerRequest p q) σ = .next t ∧ SameBytes σ t ∧
          t.dev.host.reply = .value ((Work.begin σ).pread q.addr q.len)) ∧
      (q.kind = 1 → exec (.peerRequest p q) σ = .next ((Work.agentWrite (portAgent p) (q.len / 64 + 2) q.addr q.len q.data
        (Work.begin σ)).reply .done).commit)) ∧
    ((σ.dev.ports.get p {}).up = true → rangeFault σ.dev (portDie p) q.addr q.len false = 0 →
      anyPrivate σ.dev q.addr q.len = false → anySecure σ.dev q.addr q.len = false →
      outsideWaits σ.dev q.addr q.len (decide (q.kind = 1)) = true →
      exec (.peerRequest p q) σ = .next (((Work.begin σ).snoopLines q.addr q.len).askAgain 2 p q).commit))

/-- R37, R38, R80: a reset with accepted records of kinds 1 to 3 and an accepted image brings the part up at step 255 in
the running mode with an empty part state; without the records it stops at step 1, without an image at step 2, in
recovery (and, by the model's choice of log entry 94, at step 6 where the record of kind 2 describes neither part of
Table 0.1). The envelope is 900 W where both copies of record kind 4 were rejected. The error ring holds nothing but
the columns whose remap tables had a bad copy (R181). The recovery window and staging buffer read zero afterwards, and
no other byte of a part without partitions changes. R80, R81: a recovery command that finds the interface busy is
ignored. Otherwise commands 2 and 3 begin a store of what is staged, or are refused with WHY 3 where nothing is; 4
resets; 5 appends the window's bytes, or is refused with WHY 5 past the buffer's end; 6 empties the buffer. A store
that is accepted ends done with the stored version as the new minimum, or, where the flash itself fails, with WHY 4. -/
def Obligations.ResetAndRecovery : Prop :=
  (∀ σ, ∃ t, exec .deviceReset σ = .next t ∧ (σ.dev.mode = .bringUp → step σ = .next t) ∧
    (∀ k, (Key.recBuf 0 ≤ k ∧ k < Key.recBuf 0 + 0x100000) ∨ (Key.recWin 0 ≤ k ∧ k < Key.recWin 0 + 0x10000) →
      t.mem.read k = 0) ∧
    (σ.dev.parts = [] → ∀ k, ¬ (Key.recBuf 0 ≤ k ∧ k < Key.recBuf 0 + 0x100000) →
      ¬ (Key.recWin 0 ≤ k ∧ k < Key.recWin 0 + 0x10000) → t.mem.read k = σ.mem.read k) ∧
    t.dev.flash = σ.dev.flash ∧ t.dev.inputs = σ.dev.inputs ∧ t.dev.ctxs = [] ∧ t.dev.cores = [] ∧ t.dev.launches = [] ∧
    t.dev.parts = [] ∧ t.dev.streams = [] ∧ t.dev.coh = {} ∧ (∀ e ∈ t.dev.errRing, e.cause = 44 ∧ e.part = 16) ∧
    (let ok (k : Nat) : Prop := (recordInForce σ.dev k).isSome = true
     let fits : Prop := ∀ x, recordInForce σ.dev 2 = some x → enablementOk x = true
     (ok 1 ∧ ok 2 ∧ ok 3 ∧ (usedCopy σ.dev 0 none).isSome = true ∧ fits →
       t.dev.mode = .running ∧ t.dev.step = 255 ∧ t.dev.failed = 0 ∧
       t.dev.envelope = (if (recordInForce σ.dev 4).isNone then 900 else 1500)) ∧
     (¬ (ok 1 ∧ ok 2 ∧ ok 3) → t.dev.mode = .recovery ∧ t.dev.failed = 1) ∧
     (ok 1 ∧ ok 2 ∧ ok 3 ∧ (usedCopy σ.dev 0 none).isSome = false → t.dev.mode = .recovery ∧ t.dev.failed = 2) ∧
     (ok 1 ∧ ok 2 ∧ ok 3 ∧ (usedCopy σ.dev 0 none).isSome = true ∧ ¬ fits → t.dev.mode = .recovery ∧ t.dev.failed = 6))) ∧
  ((∀ σ, σ.dev.recovery.st = 1 → ∀ i ∈ [Instr.storeFirmwareImage, .storeConfigurationRecord, .resetDevice, .appendStaging,
    .emptyStagingBuffer], exec i σ = .next (same σ)) ∧
  (∀ σ, σ.dev.recovery.st ≠ 1 →
    let r := σ.dev.recovery
    let ended (why : Nat) : State :=
      withDev σ { σ.dev with recovery := { r with st := if why = 0 then 2 else 3, why := why, storing := none } }
    (∀ p ∈ [(Instr.storeFirmwareImage, 2), (Instr.storeConfigurationRecord, 3)],
      (r.slen = 0 → exec p.1 σ = .next (ended 3)) ∧
      (r.slen ≠ 0 → let x : Recovery := { r with st := 1, why := 0, storing := some (p.2, (Work.begin σ).readN (Key.recBuf 0) r.slen) }
        exec p.1 σ = .next (withDev σ { σ.dev with recovery := x }))) ∧
    exec .resetDevice σ = exec .deviceReset σ ∧
    (0x100000 < r.off + r.len → exec .appendStaging σ = .next (ended 5)) ∧
    (r.off + r.len ≤ 0x100000 → ∃ t, exec .appendStaging σ = .next t ∧
      t.dev = { σ.dev with recovery := { r with slen := max r.slen (r.off + r.len), st := 2, why := 0, storing := none } } ∧
      (∀ k, k < min r.len 65536 → t.mem.read (Key.recBuf (r.off + k)) = σ.mem.read (Key.recWin k)) ∧
      ∀ k, k < Key.recBuf r.off ∨ Key.recBuf (r.off + min r.len 65536) ≤ k → t.mem.read k = σ.mem.read k) ∧
    (∃ t, exec .emptyStagingBuffer σ = .next t ∧
      t.dev = { σ.dev with recovery := { r with slen := 0, st := 2, why := 0, storing := none } } ∧
      ∀ k, k < 0x100000 → t.mem.read (Key.recBuf k) = 0)) ∧
  (∀ σ obj, σ.dev.recovery.storing = some (2, obj) → ∃ t, exec .recoveryStoreDone σ = .next t ∧
    t.dev.recovery.slen = 0 ∧ t.dev.recovery.storing = none ∧
    (imageRefused σ.dev obj ≠ 0 → t.dev.recovery.st = 3 ∧ t.dev.recovery.why = imageRefused σ.dev obj ∧
      t.dev.flash = σ.dev.flash) ∧
    (imageRefused σ.dev obj = 0 →
      (t.dev.recovery.st = 2 ∧ t.dev.recovery.why = 0 ∧ t.dev.minVer = σ.dev.minVer.set 0 (Config.imageVersion obj)) ∨
      (t.dev.recovery.st = 3 ∧ t.dev.recovery.why = 4 ∧ t.dev.flash = σ.dev.flash))))

-- The memory system's events (files 07 and 08)

/-- R163, R169, R191: every millisecond the package floor rises to the largest cw.lts less 2^61 and no lower, and every
lower cw.lts to it; a write to a page-table line, or a publish, is performed where a context's oldest access is one
and may be performed, and changes nothing otherwise. R180 to R182: a row is remapped with its table's three copies
whole or mended, or the column fails with none; a further layer is powered on in two events where the allocated
granules need it, and the top one is powered off, when its lines are written back, where they need fewer. -/
def Obligations.FloorsRowsAndLayers : Prop :=
  ((∀ σ, let top := σ.dev.ctxs.foldl (fun m p => max m p.2.lts) 0
    let floor := max σ.dev.coh.floor (top - 2 ^ 61)
    exec .ltsFloorRaise σ = .next (withDev σ { σ.dev with
      coh := { σ.dev.coh with floor := floor, floorAt := σ.dev.now }
      ctxs := σ.dev.ctxs.map fun p => (p.1, { p.2 with lts := max p.2.lts floor }) })) ∧
  (∀ σ l, exec (.pageTableLineWrite l) σ = .next (match writerOf (Work.begin σ) l with
    | none => same σ
    | some x => ((Work.begin σ).performAccess x.1 x.2).commit)) ∧
  (∀ σ core bank, exec (.publishPerformed core bank) σ =
    .next (if (σ.dev.ctx core bank).publishes = true ∧ (Work.begin σ).accessReady core bank = true then
      ((Work.begin σ).performAccess core bank).commit else same σ))) ∧
  ((∀ σ col row, ∃ t, exec (.rowRemap col row) σ = .next t ∧ SameBytes σ t ∧ t.dev.ctxs = σ.dev.ctxs ∧
    (∀ k, k ≠ col → t.dev.cols.get? k = σ.dev.cols.get? k) ∧
    (t.dev.column col = { σ.dev.column col with
        rbad := 0, remapped := row :: (σ.dev.column col).remapped.filter fun x => decide (x ≠ row) } ∨
      t.dev.column col = { σ.dev.column col with rbad := 3, rfail := true } ∧
        t.dev.errRing.head? = some { cause := 44, part := 16, agent := col, time := σ.dev.now, value := row })) ∧
  (∀ σ col, exec (.layerPowerOn col) σ = .next
    (if neededLayers σ.dev col ≤ (σ.dev.column col).layers ∨ (σ.dev.column col).powering.isSome then same σ
     else withDev σ { σ.dev with cols := σ.dev.cols.set col { σ.dev.column col with powering := some σ.dev.now } })) ∧
  (∀ σ col, let c : Column := { σ.dev.column col with layers := (σ.dev.column col).layers + 1, powering := none }
    exec (.layerPoweredOn col) σ = .next (if (σ.dev.column col).powering.isNone then same σ
      else withDev σ { σ.dev with cols := σ.dev.cols.set col c })) ∧
  (∀ σ col, (σ.dev.column col).layers ≤ neededLayers σ.dev col → exec (.layerPowerDown col) σ = .next (same σ)) ∧
  (∀ σ col n, (σ.dev.column col).layers = n + 1 → neededLayers σ.dev col ≤ n →
    exec (.layerPowerDown col) σ = .next (((Work.begin σ).sweepLines (col * 2 ^ 29 + n * 2 ^ 26) (2 ^ 26)).updColumn col
      fun x => { x with layers := x.layers - 1, powering := none }).commit) ∧
  (∀ (d : Dev) col, 1 ≤ neededLayers d col ∧ neededLayers d col ≤ 8 ∧
    ∀ p ∈ d.parts, ∀ r ∈ p.2.granules, ∀ g, r.1 ≤ g → g < r.1 + r.2 → g / 256 = col →
      g % 256 / 32 < neededLayers d col))

/-- R178, R179, R28: an exchange that the engine takes is entered with its first chunk in flight, and one that it does not
has no effect; when the last chunk in flight is done each frame has got the other's bytes, as the owner of each reads
them, and the exchange stands finished until it is released (while no route joins the frames the chunk waits). The
release ends it, and what contexts watch follows its data; where a page, an object or a control block could not be
named in its new place it stays, and a swap of a die with none under way changes nothing. -/
def Obligations.SwapEvents : Prop :=
  (∀ σ die f1 f2 size, exchangeOk (Work.begin σ) die f1 f2 size = false →
    exec (.swapExchange die f1 f2 size) σ = .next (same σ)) ∧
  (∀ σ die f1 f2 size, exchangeOk (Work.begin σ) die f1 f2 size = true → ∃ t, exec (.swapExchange die f1 f2 size) σ = .next t ∧
    t.dev.coh.swaps = σ.dev.coh.swaps ++ [{ die := die, f1 := f1, f2 := f2, size := size, done := 0, inFlight := true }] ∧
    t.dev.ctxs = σ.dev.ctxs) ∧
  (∀ σ die, (∀ x ∈ σ.dev.coh.swaps, x.die = die → x.inFlight = false) →
    exec (.swapChunkDone die) σ = .next (same σ)) ∧
  (∀ σ x rest, σ.dev.coh.swaps = x :: rest → x.inFlight = true → (∀ y ∈ rest, y.die ≠ x.die) → x.size = 4096 * (x.done + 1) →
    joined σ.dev x.die (homeDie σ.dev x.f2) = true →
    let off := 4096 * x.done
    ∃ t, exec (.swapChunkDone x.die) σ = .next t ∧ t.dev.ctxs = σ.dev.ctxs ∧
      t.dev.coh = { σ.dev.coh with swaps := { x with done := x.done + 1, inFlight := false } :: rest } ∧
      (x.f2 + off + 4096 ≤ 0x10000000000000 → x.f1 + off + 4096 ≤ 0x10000000000000 →
        (x.f1 + x.size ≤ x.f2 ∨ x.f2 + x.size ≤ x.f1) → ∀ k, k < 4096 →
        (Work.begin t).seen (Key.phys (x.f2 + off + k)) = (Work.begin σ).seen (Key.swapBuf x.die 0 k) ∧
        (Work.begin t).seen (Key.phys (x.f1 + off + k)) = (Work.begin σ).seen (Key.swapBuf x.die 1 k))) ∧
  (∀ σ die x, (σ.dev.coh.swaps.find? fun y => decide (y.die = die) && decide (y.done = y.size / 4096)) = some x →
    let w := Work.begin σ
    (movable w x = false ∨ holdsBlock w x.f1 x.size = true ∨ holdsBlock w x.f2 x.size = true →
      exec (.swapRelease die) σ = .next (same σ)) ∧
    (movable w x = true → holdsBlock w x.f1 x.size = false → holdsBlock w x.f2 x.size = false →
      ∃ t, exec (.swapRelease die) σ = .next t ∧
        t.dev.coh.swaps = (σ.dev.coh.swaps.filter fun y => decide (y.die ≠ die)) ∧
        (σ.dev.parts = [] → t.dev.ctxs = σ.dev.ctxs.map fun p => (p.1, p.2.exchange x)))) ∧
  (∀ σ x, σ.dev.coh.swaps = [x] → x.inFlight = true → joined σ.dev x.die (homeDie σ.dev x.f2) = false →
    exec (.swapChunkDone x.die) σ = .next (same σ)) ∧
  (∀ σ die, (∀ x ∈ σ.dev.coh.swaps, x.die = die → x.done ≠ x.size / 4096) → exec (.swapRelease die) σ = .next (same σ))

-- The scheduler's events (file 06)

/-- R91, R129, R133, R147: a running policy core admits a queued launch whose header, sizes and variant pass, and ends one
that does not with its code, a bad header before what its size record gives, or waits for a line that a read of it
meets; the dependence test opens the flood where the launch names no word or the word has reached the tide's value,
and where it has not it is due again after 1 us; the test waits while the partition does not run and for a CALIBRATE. -/
def Obligations.AdmissionAndDependence : Prop :=
  (∀ σ ix, let l := σ.dev.launch ix
    l.st = 1 → l.ended = false → l.admitted = false → σ.dev.policy.get l.die 0 = 0 → σ.dev.mode = .running → σ.dev.partRuns l.part = true →
    (∀ x, admitted (Work.begin σ) l = .ok x →
      exec (.launchAdmission ix) σ = .next (x.2.updLaunch ix fun _ => x.1).commit) ∧
    (∀ code, admitted (Work.begin σ) l = .error (.ends code) →
      exec (.launchAdmission ix) σ = .next ((Work.begin σ).endLaunch ix code).commit) ∧
    (∀ line, admitted (Work.begin σ) l = .error (.waits line) →
      exec (.launchAdmission ix) σ = .next ((Work.begin σ).waitFor true line).commit)) ∧
  (∀ σ ix, (σ.dev.launch ix).st ≠ 1 ∨ (σ.dev.launch ix).admitted = true ∨ (σ.dev.launch ix).ended = true ∨ σ.dev.mode ≠ .running ∨
      σ.dev.partRuns (σ.dev.launch ix).part = false →
    exec (.launchAdmission ix) σ = .next (same σ)) ∧
  (∀ (w : Work) l hdr, w.devRecords l.part l.die 64 l.hdrVa 4 = .ok hdr →
    headerBusy hdr.2 { l with hdr := hdr.1 } = none →
    headerOk hdr.2 { l with hdr := hdr.1 } (l.sizes.isSome || l.sizeErr.isSome) = false →
    admitted w l = .error (.ends 0x101)) ∧
  (∀ σ ix, let l := σ.dev.launch ix
    (l.dependsSince = none → exec (.dependenceTest ix) σ = .next (same σ)) ∧
    (∀ m, l.dependsSince = some m →
      ((l.quarantine = true ∧ l.began = false) ∨ σ.dev.partRuns l.part = false ∨ calWaits σ.dev l = true →
        exec (.dependenceTest ix) σ = .next (same σ)) ∧
      ((l.quarantine = true → l.began = true) → σ.dev.partRuns l.part = true → calWaits σ.dev l = false →
        (l.din = 0 → exec (.dependenceTest ix) σ = .next ((Work.begin σ).openTide ix).commit) ∧
        (∀ x, l.din ≠ 0 → (Work.begin σ).devRead l.part l.die l.din 8 = .ok x →
          exec (.dependenceTest ix) σ = .next (if (l.dinbase + l.tide * l.dinstep) % 2 ^ 64 ≤ x.1 then
              (x.2.openTide ix).commit
            else ((x.2.updLaunch ix fun y => { y with
              phase := .dependence none, recheck := σ.dev.now + 600 }).watchWord ix l).commit))))) ∧
  (∀ (w : Work) ix, (w.openTide ix).log = w.log ∧ ((w.openTide ix).dev.launch ix).st = 2 ∧
    ((w.openTide ix).dev.launch ix).phase = .flood)

/-- R131, R136, R140, R142, R143, R150: a die serves the ready launch of smallest priority number, and among those of
smallest service value, with the task and the quire that the rules pick, at most once every 4 cc, or does nothing; a
task whose extents translate starts on every member with its argument address, extent and launch index in s1 to s3 at
the flood entry and level 0, and is charged; a thief's request sets out for the largest range it reaches, and when it
arrives takes the upper half of it. -/
def Obligations.Dispatches : Prop :=
  (∀ σ die, exec (.dispatch die) σ = .next (match pickLaunch σ.dev die with
    | none => same σ
    | some ix => if mayDispatch σ.dev die = true then (((Work.begin σ).placeNext ix die).dispatched die).commit else same σ)) ∧
  (∀ (w : Work) die, let t := w.dispatched die
    t.log = w.log ∧ t.dev = { w.dev with dispatchAt := w.dev.dispatchAt.set die (w.dev.now + 4) }) ∧
  (∀ (w w1 : Work) ix die t bank q es, launchExtents w ix die t = (.ok es, w1) → reservedCore (q.headD 0) = false →
    w.dispatchTask ix die t bank q = ((w1.updLaunch ix fun l => l.take die t).startTask ix t bank q es).updLaunch ix
      fun l => { l with serv := l.serv.set die (l.serv.get die 0 + 65536 / l.weight) }) ∧
  (∀ (w : Work) ix t bank lead rank core ext,
    let l := w.dev.launch ix
    let c := (w.startMember ix t bank lead rank core ext).ctx core bank
    c.st = .ready ∧ c.lvl = 0 ∧ c.pc = bits l.flood 55 5 * 32 ∧ c.task = BitVec.ofNat 64 t ∧ c.rank = rank ∧ c.lead = lead ∧
    c.s.get 1 0 = BitVec.ofNat 64 l.args ∧ c.s.get 2 0 = BitVec.ofNat 64 l.extent ∧ c.s.get 3 0 = BitVec.ofNat 64 ix ∧
    c.br = none ∧ c.part = l.part ∧ c.lsb = l.lsb ∧ c.lssz = l.lssz ∧ c.ebb = false) ∧
  (∀ σ die ix q bank s, (σ.dev.launch ix).floods = true → pickQuire σ.dev ix die = some (q, bank) →
    lowestSaved (σ.dev.launch ix) = some s → σ.dev.partRuns (σ.dev.launch ix).part = true → mayDispatch σ.dev die = true →
    exec (.taskResume die ix) σ = .next (((Work.begin σ).resumeTask ix die bank q s).dispatched die).commit) ∧
  (∀ σ die ix, (σ.dev.launch ix).floods = false ∨ σ.dev.partRuns (σ.dev.launch ix).part = false ∨ mayDispatch σ.dev die = false → exec (.taskResume die ix) σ = .next (same σ)) ∧
  (∀ σ ix die v, let l := σ.dev.launch ix
    (∀ s ∈ l.steals, s.thief ≠ die) → l.floods = true → (l.ranges.get die (0, 0)).2 ≤ (l.ranges.get die (0, 0)).1 →
    (pickQuire σ.dev ix die).isSome = true → victimOf σ.dev l die = some v →
    let l1 : Launch := { l with steals := l.steals ++ [{ thief := die, victim := v }] }
    exec (.stealRequest ix die) σ = .next (withDev σ { σ.dev with launches := σ.dev.launches.set ix l1 })) ∧
  (∀ σ ix s rest, let l := σ.dev.launch ix
    let r := l.ranges.get s.victim (0, 0)
    l.steals = s :: rest → s ∉ rest →
    let mid := r.1 + (r.2 - r.1 + 1) / 2
    let l1 : Launch := if r.2 - r.1 < 2 then { l with steals := rest }
      else { l with ranges := (l.ranges.set s.victim (r.1, mid)).set s.thief (mid, r.2), steals := rest }
    exec (.stealRequest ix s.thief) σ = .next (withDev σ { σ.dev with launches := σ.dev.launches.set ix l1 }))

/-- R99, R100, R144 to R147, R262: a barrier that may be released starts every gang core at the ebb entry; the last report
of a tide's ebb opens the next tide's test, or after the last tide ends the launch; an audit on another core that
matches is logged, and one in which an element or a core has erred enters cause 46 in the error ring and fails the
launch; a held translation is tried again, and failed after 100 ms; a quarantine-class launch begins on the reserved
cluster when it is free and fails with LAUNCH_TIME_LIMIT after 1 s. -/
def Obligations.TideAndQuarantineEvents : Prop :=
  (∀ σ ix, mayRelease σ.dev ix = false → exec (.tideBarrierRelease ix) σ = .next (same σ)) ∧
  (∀ σ ix, mayRelease σ.dev ix = true →
    let l := σ.dev.launch ix
    let opens := (σ.dev.host.policies.get l.part {}).open_
    exec (.tideBarrierRelease ix) σ = .next (l.gang.flatten.foldl (fun a k => a.startEbb ix k)
      (((Work.begin σ).updLaunch ix fun x => { x with phase := .ebb, opens := opens }).dropHolds ix opens)).commit) ∧
  (∀ σ ix, let l := σ.dev.launch ix
    let reports : Prop := l.st = 2 ∧ l.phase = .ebb ∧ l.gang.flatten.all (hasReported σ.dev ix) = true
    (¬ reports → exec (.ebbEnd ix) σ = .next (same σ)) ∧
    (reports → l.dout = 0 → l.tides ≤ l.tide + 1 →
      exec (.ebbEnd ix) σ = .next (((Work.begin σ).clearReports ix).endLaunch ix 0).commit) ∧
    (reports → l.dout = 0 → l.tide + 1 < l.tides → exec (.ebbEnd ix) σ =
      .next (testDependence ix (((Work.begin σ).clearReports ix).updLaunch ix fun x => { x with
        tide := x.tide + 1, phase := .dependence none, doutSince := none, recheck := 0 })).commit)) ∧
  (∀ σ ix ok a rest, (σ.dev.launch ix).audits = a :: rest → (σ.dev.launch ix).st = 2 →
    (∀ k ∈ (σ.dev.launch ix).gang.flatten, k = a.core) →
    exec (.auditReplay ix ok) σ = .next (withDev σ { σ.dev with
      launches := σ.dev.launches.set ix { σ.dev.launch ix with audits := rest } })) ∧
  (∀ σ ix ok a rest, (σ.dev.launch ix).audits = a :: rest → (σ.dev.launch ix).st = 2 → (a.ok && ok) = false →
    (∃ k ∈ (σ.dev.launch ix).gang.flatten, k ≠ a.core) →
    ∃ (w : Work) (other : Nat), other ∈ (σ.dev.launch ix).gang.flatten ∧ other ≠ a.core ∧ w.log = [] ∧ w.dev.ctxs = σ.dev.ctxs ∧
      exec (.auditReplay ix ok) σ =
        .next ((w.logError 46 (σ.dev.launch ix).part other a.subject).failLaunch ix 0x105).commit) ∧
  (∀ σ ix a rest, (σ.dev.launch ix).audits = a :: rest → (σ.dev.launch ix).st = 2 → a.ok = true →
    (∃ k ∈ (σ.dev.launch ix).gang.flatten, k ≠ a.core) →
    ∃ t, exec (.auditReplay ix true) σ = .next t ∧ SameBytes σ t ∧ t.dev.ctxs = σ.dev.ctxs ∧
      t.dev.launches = σ.dev.launches.set ix { σ.dev.launch ix with audits := rest } ∧
      (t.dev.host.alog.get (σ.dev.launch ix).part []).length =
        min 64 ((σ.dev.host.alog.get (σ.dev.launch ix).part []).length + 1)) ∧
  (∀ σ ix h, let l := σ.dev.launch ix
    l.doutSince = none → l.dependsSince = none → l.held.find? (fun x => decide (x.task = h.task)) = some h →
    exec (.extentTranslationRetry ix h.task) σ = .next ((Work.begin σ).retryHeld ix h false).commit ∧
    exec (.extentTranslationTimeout ix h.task) σ =
      .next (if h.since + 60000000 ≤ σ.dev.now then ((Work.begin σ).retryHeld ix h true).commit else same σ)) ∧
  (∀ σ, nextQuarantined σ.dev = none ∨ reservedFree σ.dev = false → exec .quarantineLaunchStart σ = .next (same σ)) ∧
  (∀ σ ix, nextQuarantined σ.dev = some ix → reservedFree σ.dev = true →
    exec .quarantineLaunchStart σ = .next (testDependence ix (((Work.begin σ).claimReserved (σ.dev.launch ix).part).updLaunch ix
      fun x => { x with began := true, since := σ.dev.now })).commit) ∧
  (∀ σ ix, let l := σ.dev.launch ix
    l.quarantine = true → l.began = true → l.ended = false → (l.st = 1 ∨ l.st = 2 ∨ l.st = 4) → l.since + 600000000 ≤ σ.dev.now →
    exec (.quarantineTimeLimit ix) σ =
      .next ((((Work.begin σ).cancelRunning ix).clearReports ix).failLaunch ix 0x104).commit)

-- The cores' events (file 09)

/-- R119, R216, R217, R219, R223, R225, R329: a request pending for 65,536 bundles ends the launch with cause 51; a freeze
or a SYNC hold at its limit raises 50 or 49 at the bundle that waits; a barrier that every core of the mask has
reached is released; a queue wait at cw.qwait parks the quire and hands the sequencer over; a park on a line ends at
its limit or by a write to its line; a translation-fault park ends the launch. Short of the limit each changes
nothing. R113, R215, R232, R233, R253, R259, R357, R360, R374: the oldest access of a context, if it lands and may be
performed, is performed; a pass whose last row leaves the array completes; a load, a calibration or a copy command
that has ended leaves its queue, the load with its bank loaded; a queue operation is performed at its home; an entry
whose queue operations are performed completes; an honoured pre-emption saves every member and frees the quire; a hold
takes effect at a drain point. -/
def Obligations.CoreEvents : Prop :=
  (∀ σ core bank,
    let c := σ.dev.ctx core bank
    let w := Work.begin σ
    let woken : State := withDev σ { σ.dev with ctxs := σ.dev.ctxs.set (2 * core + bank) { c with st := .parked (.woken false) } }
    exec (.drainDistanceLimit core bank) σ = .next (if c.busy = true ∧ c.ppend ≠ 0 ∧ 65536 ≤ c.dist then
      (w.endTask core bank 51).commit else same σ) ∧
    exec (.freezeLimit core bank) σ =
      .next (if frozenOut c = true then (w.raiseHere core bank 50).commit else same σ) ∧
    (∀ n l, c.freeze = some (.limited, n) ∨ c.freeze = some (.sequencer, n) ∨ c.freeze = some (.walk l, n) →
      frozenOut c = decide (c.frzlim ≤ n)) ∧
    (c.sync = none → exec (.barrierRelease core bank) σ = .next (same σ) ∧
      exec (.barrierTimeLimit core bank) σ = .next (same σ)) ∧
    (∀ n mask t, c.sync = some (n, mask, t) →
      let held := (maskCores core mask).all (heldAt w c.ix n mask)
      (held = false → exec (.barrierRelease core bank) σ = .next (same σ)) ∧
      (held = true → ∃ u, exec (.barrierRelease core bank) σ = .next u ∧ SameBytes σ u ∧ u.dev.cores = σ.dev.cores ∧
        (runsNow w c.ix core = some bank → core ∈ maskCores core mask → (u.dev.ctx core bank).syncGo = some σ.dev.now)) ∧
      exec (.barrierTimeLimit core bank) σ = .next
        (if c.syncGo = none ∧ t + 600 * (σ.dev.launch c.ix).barlim < σ.dev.now then (w.raiseHere core bank 49).commit
         else same σ)) ∧
    (waitedOut c = none → exec (.qwaitLimit core bank) σ = .next (same σ)) ∧
    (∀ ops, waitedOut c = some ops → exec (.qwaitLimit core bank) σ =
      .next (((quireOf σ.dev core bank).foldl (fun a k => a.parkMember k bank (if k = core then ops else [])
        (waitCause c ops)) w).handOver (quireOf σ.dev core bank) bank).commit) ∧
    (∀ l t x, c.st = .parked (.line l (some t) x) →
      exec (.ctxParkLimit core bank) σ = .next (if t ≤ σ.dev.now then woken else same σ)) ∧
    (∀ l t x, c.st = .parked (.line l t x) →
      exec (.ctxParkWake core bank) σ = .next (if x = true then woken else same σ)) ∧
    (∀ l t cause, c.st = .parked (.walk l t cause) →
      exec (.translationParkLimit core bank) σ =
        .next (if t ≤ σ.dev.now then (w.endTask core bank cause).commit else same σ))) ∧
  ((∀ σ core bank a rest, (σ.dev.ctx core bank).accs = a :: rest →
    ((∃ n s i, a.kind = .load n s i) ∨ (∃ x n o v f i, a.kind = .atomic x n o v f i)) →
    exec (.landing core bank) σ = .next (if (Work.begin σ).accessReady core bank = true then
      ((Work.begin σ).performAccess core bank).commit else same σ)) ∧
  (∀ σ core n, let b := (σ.dev.core core).cur
    (σ.dev.ctx core b).freeze = some (.sequencer, n) →
    exec (.passTriggerRelease core) σ = .next (if (σ.dev.core core).streaming < 2 then
      withDev σ { σ.dev with ctxs := σ.dev.ctxs.set (2 * core + b) { σ.dev.ctx core b with freeze := none } }
      else same σ)) ∧
  (∀ σ core, let c := σ.dev.core core
    (duePass c c.clk = none → exec (.passComplete core) σ = .next (same σ)) ∧
    (∀ p, duePass c c.clk = some p → p.done + 1 = p.rows → exec (.passComplete core) σ =
      .next (((Work.begin σ).cycle core c.clk).raiseAfter core p.ctx).commit)) ∧
  (∀ σ core x, loadEnded (Work.begin σ) core = some x → exec (.weightLoadComplete core) σ =
    .next (((loadMembers core x).foldl (fun a k => a.endLoad x k) (Work.begin σ)).auditCommand core x.ctx 1 x.word).commit) ∧
  (∀ (w : Work) x k y rest, (w.core k).strm = y :: rest →
    let t := w.endLoad x k
    (t.core k).strm = (Core.startCal { w.core k with strm := rest }).strm ∧
    (x.err = none → (t.core k).wb.get y.wbank {} = loadedBank x ((w.core k).wb.get y.wbank {}) ∧
      ((t.core k).wb.get y.wbank {}).st = .loaded) ∧
    (x.err ≠ none → ((t.core k).wb.get y.wbank {}).st = .empty)) ∧
  (∀ σ core x rest, (σ.dev.core core).strm = x :: rest → x.form = 2 → x.started = true → x.due ≤ (σ.dev.core core).raw →
    ∃ t, exec (.calibrationComplete core) σ = .next t ∧ SameBytes σ t ∧ t.dev.ctxs = σ.dev.ctxs ∧
      (t.dev.core core).strm = (Core.startCal { σ.dev.core core with strm := rest }).strm ∧
      ((t.dev.core core).wb.get x.wbank {}).stale = false ∧
      ((t.dev.core core).wb.get x.wbank {}).calAt = σ.dev.now) ∧
  (∀ σ core b, let k := (σ.dev.core core).wb.get b {}
    k.calAt + 300000000 ≤ σ.dev.now → ∃ t, exec (.calibrationStaleTimer core b) σ = .next t ∧ SameBytes σ t ∧
      t.dev.ctxs = σ.dev.ctxs ∧ ((t.dev.core core).wb.get b {}) = { k with stale := true }) ∧
  (∀ σ core eng id c, ((σ.dev.core core).engineCmds eng).find? (fun x => decide (x.id = id)) = some c →
    (copyEnded (Work.begin σ) core c = false → exec (.copyCommandComplete core eng id) σ = .next (same σ)) ∧
    (copyEnded (Work.begin σ) core c = true →
      let w1 := (Work.begin σ).updCore core fun k => ({ k with
        ceLts := k.ceLts.set eng (max (k.ceLts.get eng 0) (max c.lts c.wts))
        ce := k.ce.set eng ((k.ce.get eng []).filter fun x => match x with
          | .cmd y => decide (y.id ≠ id)
          | .fence _ _ => true) }.dropFences 0).dropFences 1
      exec (.copyCommandComplete core eng id) σ = .next (if c.form = 13 then w1 else
        (w1.actOnWord core c.ctx c.a.toNat c.wordPa (max c.lts c.wts) c.bytes c.err).auditCommand core c.ctx 1
          c.a.toNat).commit)) ∧
  (∀ σ core bank, exec (.queueOpAtHome core bank) σ = .next (match (σ.dev.ctx core bank).nextQueueOp with
    | none => same σ
    | some q => ((Work.begin σ).performQueueOp core bank q).commit)) ∧
  (∀ σ core bank e lvl, let c := σ.dev.ctx core bank
    c.st = .entering e → c.qops = [] → e.park = none → e.watch = none → c.trapLevel e.cause = some lvl →
    let w1 := (landReady core bank c.outs.length (Work.begin σ)).completeEntry core bank lvl e
    exec (.trapEntry core bank) σ = .next (takeSecond core bank (w1.ctx core bank).second.length w1).commit) ∧
  (∀ σ core bank e, let c := σ.dev.ctx core bank
    c.st = .entering e → (∃ q ∈ c.qops, q.form ≠ 0x40) → (σ.dev.core core).raw < e.begun + c.frzlim →
    exec (.trapEntry core bank) σ = .next (same σ)) ∧
  (∀ σ core bank, preemptNow (Work.begin σ) (quireOf σ.dev core bank) bank = false →
    exec (.preemption core bank) σ = .next (same σ)) ∧
  (∀ σ core bank areas, let q := quireOf σ.dev core bank
    let c := σ.dev.ctx (q.headD core) bank
    let cl := coreCluster (q.headD core)
    preemptNow (Work.begin σ) q bank = true →
    placeAreas (σ.dev.partOf c.part) (areaSize (σ.dev.launch c.ix)) q.length (areasInUse σ.dev c.part) = some areas →
    let w0 := q.foldl (fun a k => a.drainMember k bank) (Work.begin σ)
    ((∃ k ∈ q, faultLanded w0 k bank = true) → exec (.preemption core bank) σ = .next w0.commit) ∧
    ((∀ k ∈ q, faultLanded w0 k bank = false) →
    exec (.preemption core bank) σ = .next (((((w0.saveMembers bank (q.zip areas)).releaseQuire q bank).updLaunch
      c.ix fun x => { x with
        saved := x.saved ++ [{ task := c.task.toNat, cluster := cl, areas := areas }]
        disp := x.disp.set cl (x.disp.get cl 0 - 1) }).settleLaunch c.ix).commit))) ∧
  (∀ σ core bank, let c := σ.dev.ctx core bank
    exec (.debugHoldTakesEffect core bank) σ =
      .next (if c.halt = 1 ∧ c.st = .ready ∧ atDrain (Work.begin σ) core bank = true then
        ((Work.performAll core bank c.accs.length (Work.begin σ)).updCtx core bank fun x =>
          { x with halt := 2, freeze := none }).commit else same σ)))

-- The command front end (file 04)

/-- R85, R88, R98: a fetcher that may not fetch does nothing; one that may reads the head slot of a sound block, and halts
or quarantines the queue of one that is not, freeing nothing, at a further read and at the end of a stall as at the
first. A slot with V = 0 starts the 10 ms of a stalled producer, one that fails its check or carries another SEQ is
read again up to four times, 64 cycles apart, and one that passes is freed and its packet accepted; a packet that is
malformed is discarded with the lowest reason. -/
def Obligations.PacketFetching : Prop :=
  (∀ σ q, mayFetch (Work.begin σ) q = false ∨ (σ.dev.stream q).retryAt.isSome = true →
    exec (.packetFetch q) σ = .next (same σ)) ∧
  (∀ σ q, mayFetch (Work.begin σ) q = true → (σ.dev.stream q).retryAt = none →
    exec (.packetFetch q) σ =
      .next (((Work.begin σ).updHome q fun h => { h with notice := false }).ifSound q (readHead q)).commit) ∧
  (∀ (w : Work) q go,
    (blockReason w q = 0 → w.ifSound q go = go w) ∧
    (blockReason w q = 8 → w.ifSound q go = (w.policyWait (feDie w q)).poisonQueue q) ∧
    (blockReason w q = 9 → w.ifSound q go = w.queueEvent q 0 20 9) ∧
    (blockReason w q = 10 → w.ifSound q go = w.queueEvent q 0 19 10) ∧
    blockReason w q ∈ [0, 8, 9, 10]) ∧
  (∀ (w : Work) q, (w.block q).used ≠ 0 → headFault w q = 0 →
    let s := w.dev.stream q
    let r := Work.agentRead (feAgent (feDie w q)) 2 (headSlot w q) 64 w
    (pkV r.1 = false → s.stallAt = none →
      readHead q w = r.2.updStream q fun x => { x with stallAt := some (w.dev.now + 6000000) }) ∧
    (pkV r.1 = true → (pkCheck r.1 = false ∨ pkSeq r.1 ≠ s.seq) → s.tries < 4 →
      readHead q w = r.2.updStream q fun x => { x with tries := x.tries + 1, retryAt := some (w.dev.now + 64) }) ∧
    (pkV r.1 = true → (pkCheck r.1 = false ∨ pkSeq r.1 ≠ s.seq) → 4 ≤ s.tries → readHead q w = r.2.discard q 1) ∧
    (pkV r.1 = true → pkCheck r.1 = true → pkSeq r.1 = s.seq →
      let p := r.1 - 2 ^ 15
      readHead q w = if packetReason r.2 q p = 0 then (r.2.freeSlot q).updStream q fun x => x.accept p
        else r.2.discard q (packetReason r.2 q p))) ∧
  (∀ σ q t, (σ.dev.stream q).retryAt = some t → t ≤ σ.dev.now → mayFetch (Work.begin σ) q = true →
    exec (.fetchRetry q) σ = .next ((Work.begin σ).ifSound q fun w =>
      readHead q (w.updStream q fun x => { x with retryAt := none })).commit) ∧
  (∀ σ q t, (σ.dev.stream q).stallAt = some t → t ≤ σ.dev.now → mayFetch (Work.begin σ) q = true →
    exec (.stalledProducerTimeout q) σ = .next ((Work.begin σ).ifSound q fun w =>
      if pkV (w.pread (headSlot w q) 2) = true then w.updStream q fun x => { x with stallAt := none }
      else w.discard q 6).commit)

/-- R90 to R94, R101: a packet that its stream may carry out is carried out: a launch takes the lowest free entry of the
launch table, with the size record of a LAUNCH_IND read then, and waits where there is none; a WAIT evaluates its test
now, at each recheck and at its limit, which halts the queue where it is still false; a SIGNAL stores or adds at its
word; a COND that is false skips packets; a loop opens and goes round; a FENCE lets the stream go on; the oldest event
record of a partition goes into its event queue, and with the record of a launch its entry is freed. What the policy
core does waits while that core restarts. R77, R79, R83, R95 to R98, R102, R127: the packets that a service carries
out start it, and its completions end it: a COPY takes a place in its die's service queue; a graph in order gets an
instance, and a node's end releases or blocks those that wait for it; a CALIBRATE lists the enabled sites of its
clusters; a BIAS_FLIP's granules flip one by one; a SUMMARY is written and completes; a QCLEAR of another partition's
queue is refused, of a queue in order has no effect. A watchdog's expiry, 1 ms after the core's start, restarts a
delegate, or for the master puts the part in recovery. -/
def Obligations.Packets : Prop :=
  ((∀ x ∈ [(Instr.launch, 0x80), (Instr.launchInd, 0x81)], ∀ σ q p, current (Work.begin σ) q x.2 = some p →
    (freeLaunch σ.dev = none → exec (x.1 q) σ = .next (same σ)) ∧
    (∀ ix, freeLaunch σ.dev = some ix → policyRuns (Work.begin σ) q = true →
      exec (x.1 q) σ = .next (((Work.begin σ).asyncStart q).startLaunch ix p (ticketOf (Work.begin σ) q p)
        (decide ((σ.dev.stream q).st = 1))).commit) ∧
    (∀ ix, freeLaunch σ.dev = some ix → policyRuns (Work.begin σ) q = false →
      ∃ t, exec (x.1 q) σ = .next t ∧ ¬ Settled t)) ∧
  (∀ (w : Work) ix p t qr,
    (pkKind p = 0x80 → w.startLaunch ix p t qr = w.enterLaunch ix p t qr none none) ∧
    (∀ r, pkKind p = 0x81 → w.feRead (feDie w t.q) t.part (packedBytes p 32 8) 16 = .ok r →
      w.startLaunch ix p t qr = r.2.enterLaunch ix p t qr (some r.1) none) ∧
    (∀ e, pkKind p = 0x81 → w.feRead (feDie w t.q) t.part (packedBytes p 32 8) 16 = .error e →
      w.startLaunch ix p t qr = (w.awaits e).enterLaunch ix p t qr none (some (e.cause 8)))) ∧
  (∀ (w : Work) ix p t sizes sizeErr, let u := w.enterLaunch ix p t false sizes sizeErr
    u.log = w.log ∧ u.dev.ctxs = w.dev.ctxs ∧ (∀ k, k ≠ ix → u.dev.launches.get? k = w.dev.launches.get? k) ∧
    (u.dev.launch ix).st = 1 ∧ (u.dev.launch ix).part = t.part ∧ (u.dev.launch ix).hdrVa = packedBytes p 8 8 ∧
    (u.dev.launch ix).args = packedBytes p 16 8 ∧ (u.dev.launch ix).cword = t.cword ∧ (u.dev.launch ix).sizes = sizes ∧
    (u.dev.launch ix).sizeErr = sizeErr ∧ (u.dev.launch ix).admitted = false) ∧
  (∀ σ q p, current (Work.begin σ) q 0x82 = some p →
    let us := packedBytes p 28 4
    let lim := if us = 0 then none else some (σ.dev.now + 600 * us)
    ((σ.dev.stream q).waiting = false → exec (.wait q) σ = .next (((Work.begin σ).updStream q fun s =>
      { s with waiting := true, limit := lim }).tryWait q p).commit) ∧
    ((σ.dev.stream q).waiting = true → exec (.waitRecheck q) σ = .next ((Work.begin σ).tryWait q p).commit) ∧
    (∀ t e, (σ.dev.stream q).limit = some t → t ≤ σ.dev.now → evalTest (Work.begin σ) q p = .ok e →
      exec (.waitLimit q) σ = .next (if e.1 = true then e.2.syncDone q p 0 else e.2.queueEvent q (pkSeq p) 0 7).commit)) ∧
  (∀ (w : Work) q p, (∀ e, evalTest w q p = .error e → w.tryWait q p = w.wordFailed q p e) ∧
    (∀ r, evalTest w q p = .ok r → w.tryWait q p = if r.1 then r.2.syncDone q p 0
      else r.2.updStream q fun s => { s with recheck := w.dev.now + 600, watch := wordLine w q p })) ∧
  (∀ x op, testWord 0 x op = decide (op ≤ x) ∧ testWord 1 x op = decide (x = op) ∧ testWord 2 x op = decide (x ≠ op) ∧
    testWord 3 x op = decide (x &&& op = op)) ∧
  (∀ σ q p, current (Work.begin σ) q 0x83 = some p →
    (∀ u, signalWord (Work.begin σ) (feDie (Work.begin σ) q) p = .ok u → exec (.signal q) σ = .next (u.syncDone q p 0).commit) ∧
    (∀ e, signalWord (Work.begin σ) (feDie (Work.begin σ) q) p = .error e →
      exec (.signal q) σ = .next ((Work.begin σ).wordFailed q p e).commit)) ∧
  (∀ σ q p r, current (Work.begin σ) q 0x86 = some p → evalTest (Work.begin σ) q p = .ok r →
    exec (.cond q) σ = .next (if r.1 = true then (r.2.syncDone q p 0).commit
      else ((r.2.syncDone q p 0).updStream q fun s => { s with skip := packedBytes p 25 1 }).commit)) ∧
  (∀ σ q p, current (Work.begin σ) q 0x84 = some p → exec (.loopBegin q) σ =
    .next (((Work.begin σ).syncDone q p 0).updStream q fun s => s.openLoop (packedBytes p 8 4)).commit) ∧
  (∀ σ q p, current (Work.begin σ) q 0x85 = some p →
    exec (.loopEnd q) σ = .next (((Work.begin σ).syncDone q p 0).updStream q Stream.closeLoop).commit) ∧
  (∀ σ q p, current (Work.begin σ) q 0x88 = some p → exec (.fence q) σ =
    .next (((Work.begin σ).raiseAgent (feAgent (feDie (Work.begin σ) q)) (releaseTime σ.dev)).syncDone q p 0).commit) ∧
  (∀ σ q k x, (x, k) ∈ [(Instr.launch q, 0x80), (.launchInd q, 0x81), (.wait q, 0x82), (.waitRecheck q, 0x82), (.signal q, 0x83),
      (.cond q, 0x86), (.loopBegin q, 0x84), (.loopEnd q, 0x85), (.fence q, 0x88)] →
    current (Work.begin σ) q k = none → exec x σ = .next (same σ)) ∧
  (∀ σ part, oldestRecord σ.dev.events part = none → exec (.eventRecordPlaced part) σ = .next (same σ)) ∧
  (∀ σ part e x r die, let p := σ.dev.partOf part
    oldestRecord σ.dev.events part = some e → (∀ q, e.stream = some q → die = feDie (Work.begin σ) q) →
    (e.stream = none → die = 0) → σ.dev.policy.get die 0 = 0 →
    translate (Work.begin σ) (deviceAsker σ.dev part die) [.read] p.evq = .ok x →
    reachFault σ.dev die x.pa = 0 → reachable σ.dev die (queueSlice (Work.begin σ) x.pa) = true →
    p.evq ≠ 0 → ((Work.begin σ).block x.pa).role = 2 →
    (Work.begin σ).atHome x.pa (queueSlice (Work.begin σ) x.pa) p.evq (σ.dev.agentTime (feAgent die)) .device
      (.enqueue (recordBytes e p.evSeq) false) = r →
    (r.1 = .full → exec (.eventRecordPlaced part) σ = .next r.2.commit) ∧
    (∀ a b c, r.1 = .done a b c → ∃ t, exec (.eventRecordPlaced part) σ = .next t ∧ SameBytes r.2.commit t ∧
      t.dev.events = dropRecord r.2.dev.events part ∧
      t.dev.launches = (match e.frees with
        | some ix => r.2.dev.launches.del ix
        | none => r.2.dev.launches) ∧
      (t.dev.partOf part).evSeq = ((r.2.dev.partOf part).evSeq + 1) % 2 ^ 32))) ∧
  ((∀ σ q p, current (Work.begin σ) q 0x87 = some p →
    let w := Work.begin σ
    let die := feDie w q
    exec (.copy q) σ = .next (if 1024 ≤ serviceLoad w die then same σ
      else ((w.asyncStart q).addCopy die (ticketOf w q p) p (σ.dev.agentTime (feAgent die))).commit)) ∧
  (∀ (w : Work) die t p lts, ∃ j : CopyJob, (w.addCopy die t p lts).dev.copies die = w.dev.copies die ++ [j] ∧ j.tk = t ∧
    j.src = packedBytes p 8 8 ∧ j.dst = packedBytes p 16 8 ∧ j.len = packedBytes p 24 8 ∧ j.running = false ∧
    j.lts = lts ∧ (w.addCopy die t p lts).log = w.log ∧ (w.addCopy die t p lts).dev.ctxs = w.dev.ctxs) ∧
  (∀ σ id die j, ((List.range 4).find? fun d => (σ.dev.copies d).any fun x => decide (x.id = id) && x.ended) = some die →
    (σ.dev.copies die).find? (fun x => decide (x.id = id)) = some j →
    exec (.copyServiceComplete id) σ = .next ((((Work.begin σ).updCopies die fun js => js.filter fun x =>
      decide (x.id ≠ id)).complete j.tk (j.err.getD 0)).commit)) ∧
  (∀ σ q p r, let w := Work.begin σ
    let obj := r.1
    current w q 0x89 = some p → policyRuns w q = true → (liveGraphs σ.dev (pkPart p)).length < 16 →
    readGraph w (pkPart p) (feDie w q) (packedBytes p 8 8) = .ok r →
    (graphOk σ.dev (pkPart p) obj = false → exec (.graphRun q) σ = .next (w.queueEvent q (pkSeq p) 0 11).commit) ∧
    (graphOk σ.dev (pkPart p) obj = true → ∃ t g, exec (.graphRun q) σ = .next t ∧ SameBytes σ t ∧
      t.dev.fe.graphs = σ.dev.fe.graphs ++ [(σ.dev.fe.serial, g)] ∧ g.snap = obj ∧ g.tk = ticketOf w q p ∧
      g.nodes = List.replicate (graphCount obj) .waiting ∧
      g.after = if bit (packedBytes p 24 1) 0 then [] else
        ((liveGraphs σ.dev (pkPart p)).filter fun y => decide (y.2.addr = packedBytes p 8 8)).map fun y => y.1)) ∧
  (∀ σ g node code x, σ.dev.fe.graphs.get? g = some x → σ.dev.nodeEnds.contains (g, node, code) = true →
    let ns := x.nodes.set node (if code = 0 then .done else .failed)
    let y : Graph := { x with
      nodes := blockNodes x.snap ns.length 0 ns
      limits := x.limits.del node
      checks := x.checks.del node
      watch := x.watch.del node }
    let d : Dev := { σ.dev with nodeEnds := σ.dev.nodeEnds.erase (g, node, code) }
    (y.over = false → exec (.graphNodeComplete g node code) σ =
      .next (withDev σ { d with fe := { d.fe with graphs := d.fe.graphs.set g y } })) ∧
    (y.over = true → exec (.graphNodeComplete g node code) σ =
      .next (({ Work.begin σ with dev := { d with fe := { d.fe with graphs := d.fe.graphs.del g } } } : Work).complete y.tk
        (if y.nodes.all fun s => decide (s = .done) then 0 else 0x107)).commit)) ∧
  (∀ σ q p, let w := Work.begin σ
    current w q 0x8A = some p → policyRuns w q = true → ∃ t c, exec (.calibrate q) σ = .next t ∧ SameBytes σ t ∧
      t.dev.fe.calibs = σ.dev.fe.calibs ++ [c] ∧ c.tk = ticketOf w q p ∧ c.all = decide (packedBytes p 12 1 = 1) ∧
      c.cores = ((List.range 32).filter fun k => bit (packedBytes p 8 4) k).flatMap (sitesOf σ.dev)) ∧
  (∀ σ q p, let w := Work.begin σ
    current w q 0x8B = some p → policyRuns w q = true → ∃ t f, exec (.biasFlip q) σ = .next t ∧ SameBytes σ t ∧
      t.dev.fe.flips = σ.dev.fe.flips ++ [f] ∧ f.next = packedBytes p 8 8 / 4096 ∧
      f.last = packedBytes p 8 8 / 4096 + packedBytes p 16 8 / 4096 - 1 ∧ f.toDevice = decide (packedBytes p 24 1 = 1)) ∧
  (∀ σ g x, σ.dev.fe.flips.find? (fun f => decide (f.gran = some g)) = some x →
    let w1 := if x.toDevice = true then Work.begin σ else (Work.begin σ).sweepLines (4096 * g) 4096
    (policyRuns (Work.begin σ) x.tk.q = false ∨ (x.toDevice = true ∧ ∃ l ∈ σ.dev.host.dir, l.line / 64 = g) →
      exec (.granuleFlipDone g) σ = .next (same σ)) ∧
    (policyRuns (Work.begin σ) x.tk.q = true → (x.toDevice = false ∨ ∀ l ∈ σ.dev.host.dir, l.line / 64 ≠ g) → exec (.granuleFlipDone g) σ = .next ((w1.updCoh fun c => { c with
      flipping := c.flipping.filter fun k => decide (k ≠ g)
      devBias := if x.toDevice then g :: c.devBias else c.devBias.filter fun k => decide (k ≠ g) }).nextGranule x).commit)) ∧
  (∀ σ q p, let w := Work.begin σ
    let w1 := (w.asyncStart q).mapDev fun d => { d with host := { d.host with sumCount := d.host.sumCount + 1 } }
    current w q 0x8C = some p → policyRuns w q = true →
    exec (.summary q) σ = .next (match w1.writeLines (feDie w q) (pkPart p) (packedBytes p 8 8)
        (summaryRecord w1.dev (pkPart p)) 64 with
      | .error e => (w1.awaits e).complete (ticketOf w q p) (e.cause 9)
      | .ok u => u.complete (ticketOf w q p) 0).commit) ∧
  (∀ σ q p cb, let w := Work.begin σ
    let h := packedBytes p 8 8
    let done (y : Work) (code : Nat) : State := ((y.writeCompletion (pkPart p) (feDie w q) (pkWord p) code).syncDone q p code).commit
    current w q 0x8D = some p → policyRuns w q = true → h % 64 = 0 → pkWord p ≠ 0 →
    clearedBlock w (pkPart p) (feDie w q) h = .ok cb →
    (clearRefused w q (pkPart p) cb = true → exec (.qclear q) σ = .next (done w 0x106)) ∧
    (clearRefused w q (pkPart p) cb = false → queueNormal w cb = true → exec (.qclear q) σ = .next (done w 0)) ∧
    (clearRefused w q (pkPart p) cb = false → queueNormal w cb = false →
      exec (.qclear q) σ = .next (done (w.clearQueue q cb h (packedBytes p 24 4)) 0))) ∧
  (∀ σ die, let e : ErrEntry := { cause := 61, part := 16, agent := feAgent die, time := σ.dev.now, value := die }
    let ring := (e :: σ.dev.errRing).take 64
    exec (.policyWatchdog die) σ = .next (if mayExpire σ.dev die = false then same σ else withDev σ (if die = 0 then
        { σ.dev with errRing := ring, mode := .recovery, policy := σ.dev.policy.set 0 2 }
      else { σ.dev with errRing := ring, policy := σ.dev.policy.set die 1 }))) ∧
  (∀ σ die, exec (.delegateRestartDone die) σ = .next (if σ.dev.policy.get die 0 = 1 then
    withDev σ { σ.dev with
      policyCores := σ.dev.policyCores.set die (σ.dev.policyCores.get 0 {})
      policy := σ.dev.policy.set die 0, policyAt := σ.dev.policyAt.set die σ.dev.now } else same σ)))

-- The host interface (file 03)

/-- R61, R63 to R66: while the device runs, an entry of the partition table takes a field from the host driver unless it
is in Error or Scrubbing, is a running one of a resource, or would share a resource; a confidential one that is
locked, or of which a function is locked, enters Error instead when a frozen item changes, what a locked function is
configured with among them. Enabling makes a configured entry Running, deleting it begins its scrub, whose end frees
it with its granules zeroed (but for the blocks of the guest's queues, where these lie in one). Outside the running
state no entry changes. R63 to R65: while the device runs, LOCK_INTERFACE of a function of a configured confidential
partition locks it, with the last function the whole partition, and reports its resources; START_INTERFACE of a locked
one starts it, with its IDE stream where a secure session has carried the keys, with the last function the partition
runs; STOP_INTERFACE begins the scrub; a Function Level Reset, the failure of an IDE stream and a lost key put the
partitions concerned into Error, whose queues halt. -/
def Obligations.Partitions : Prop :=
  ((∀ σ part field val, σ.dev.mode ≠ .running →
    ∀ i ∈ [Instr.partitionEntryWrite part field val, .partitionEnable part, .partitionDelete part],
    exec i σ = .next (withDev σ { σ.dev with host := { σ.dev.host with reply := .unsupported } })) ∧
  (∀ σ part field val, let p := σ.dev.partOf part
    field ≠ 14 → field ≠ 15 → (p.st = 4 ∨ p.st = 5 ∨ p.conf = false ∧ p.st = 3 ∧ (field ≤ 5 ∨ field = 13)) →
    exec (.partitionEntryWrite part field val) σ =
      .next (withDev σ { σ.dev with host := { σ.dev.host with reply := .unsupported } })) ∧
  (∀ σ part field val, let p := σ.dev.partOf part
    σ.dev.mode = .running → field ≠ 14 → field ≠ 15 → p.conf = true → p.changesFrozen (p.put field val) field = true →
    p.st = 2 ∨ p.st = 3 ∨ p.st = 1 ∧ p.locked ≠ [] →
    exec (.partitionEntryWrite part field val) σ =
      .next (((Work.begin σ).partError part).reply .unsupported).commit) ∧
  (∀ σ part field val, let p := σ.dev.partOf part
    let q : Part := { p.put field val with st := if p.st = 0 then 1 else p.st }
    σ.dev.mode = .running → field ≤ 12 → p.st ≤ 1 → p.conf = false ∨ p.locked = [] →
      (entryOk σ.dev part q = false → exec (.partitionEntryWrite part field val) σ =
        .next (withDev σ { σ.dev with host := { σ.dev.host with reply := .unsupported } })) ∧
      (entryOk σ.dev part q = true → exec (.partitionEntryWrite part field val) σ =
        .next ((((if p.st = 0 then ((Work.begin σ).updPart part fun _ => q).mapDev fun d => { d with
            keyGen := d.keyGen.set part (d.keyGen.get part 0 + 1) } else (Work.begin σ).updPart part fun _ => q).newGranules
          part p q).assignWorlds).reply .done).commit)) ∧
  (∀ σ part val, σ.dev.mode = .running →
    exec (.partitionEntryWrite part 14 val) σ = .next ((Work.begin σ).configure part val).commit ∧
    exec (.partitionEntryWrite part 15 val) σ = .next ((Work.begin σ).setWorld (val / 2) (decide (val % 2 = 1))).commit) ∧
  (∀ (w : Work) part val, let fn := val % 64
    let p := w.dev.partOf part
    let c := (w.dev.fnConfig fn).put (val / 64 % 4) (val / 256 % 4096) (val / 2 ^ 20)
    (p.conf = true → fn ∈ p.locked → fn ∈ p.vfs → c ≠ w.dev.fnConfig fn →
      w.configure part val = (w.partError part).reply .unsupported) ∧
    (fn ∈ p.vfs → p.conf = false ∨ fn ∉ p.locked → (w.configure part val).dev.fnConfig fn = c)) ∧
  (∀ σ part, let p := σ.dev.partOf part
    σ.dev.mode = .running → exec (.partitionEnable part) σ = .next (if p.st = 1 ∧ p.conf = false ∧ p.clusters ≠ 0 then
      withDev σ { σ.dev with parts := σ.dev.parts.set part { p with st := 3 }, host := { σ.dev.host with reply := .done } }
    else withDev σ { σ.dev with host := { σ.dev.host with reply := .unsupported } })) ∧
  (∀ σ part, let p := σ.dev.partOf part
    σ.dev.mode = .running → exec (.partitionDelete part) σ = .next (if p.st = 0 ∨ p.st = 5 then
      withDev σ { σ.dev with host := { σ.dev.host with reply := .unsupported } }
    else (((Work.begin σ).beginScrub part).reply .done).commit)) ∧
  (∀ (w : Work) part, (w.dev.partOf part).st ≠ 0 → (w.dev.partOf part).st ≠ 5 →
    ((w.beginScrub part).dev.partOf part).st = 5 ∧ (w.beginScrub part).dev.host.policies.get? part = none) ∧
  (∀ σ part, (σ.dev.partOf part).st ≠ 5 → exec (.scrubComplete part) σ = .next (same σ)) ∧
  (∀ σ part, (σ.dev.partOf part).st = 5 → ∃ t, exec (.scrubComplete part) σ = .next t ∧ t.dev.partOf part = {} ∧
    (scrubsQueues σ.dev part = false → σ.dev.coh.swaps = [] → ∀ g a, g ∈ scrubGranules σ.dev part → g * 2 ^ 21 ≤ a → a < (g + 1) * 2 ^ 21 → t.mem.read (Key.phys a) = 0))) ∧
  ((∀ σ fn, σ.dev.mode ≠ .running ∨ vfOwner σ.dev fn = none → ∀ i ∈ [Instr.lockInterface fn, .startInterface fn, .stopInterface fn],
    exec i σ = .next (withDev σ { σ.dev with host := { σ.dev.host with reply := .unsupported } })) ∧
  (∀ σ fn k, σ.dev.mode = .running → vfOwner σ.dev fn = some k →
    let p := σ.dev.partOf k
    let l := if p.locked.contains fn then p.locked else fn :: p.locked
    let s := if p.started.contains fn then p.started else fn :: p.started
    let p2 : Part := { p with locked := l, st := if p.vfs.all l.contains then 2 else 1 }
    let p3 : Part := { p with started := s, st := if p.vfs.all s.contains then 3 else 2 }
    (p.st = 1 → p.conf = true → p.clusters ≠ 0 → exec (.lockInterface fn) σ = .next (withDev σ { σ.dev with
      parts := σ.dev.parts.set k p2
      host := { σ.dev.host with
        reply := .report p.clusters p.granules p.vfs p.world p.keys (σ.dev.fnConfig fn) (windowHandles σ.dev p.vfs) p.evq } })) ∧
    (p.st = 2 → exec (.startInterface fn) σ = .next (withDev σ { σ.dev with
      parts := σ.dev.parts.set k p3
      host := { σ.dev.host with
        ide := if (σ.dev.spdmOf fn).session = 2 then fn :: σ.dev.host.ide.filter fun f => decide (f ≠ fn) else σ.dev.host.ide
        reply := .done } })) ∧
    (p.st ≠ 2 → exec (.startInterface fn) σ =
      .next (withDev σ { σ.dev with host := { σ.dev.host with reply := .unsupported } })) ∧
    exec (.stopInterface fn) σ = .next (((Work.begin σ).beginScrub k).reply .done).commit) ∧
  (∀ σ fn, let w1 := (partsOfFunction σ.dev fn).foldl Work.partError (Work.begin σ)
    exec (.functionLevelReset fn) σ = .next (w1.mapDev fun d => { d with host := { d.host with
      wins := d.host.wins.filter fun x => decide (x.1 / 16 ≠ fn)
      dbg := d.host.dbg.del fn
      fnCfg := d.host.fnCfg.del fn
      spdm := d.host.spdm.del fn } }).commit ∧
    exec (.ideStreamFailure fn) σ = .next (w1.mapDev fun d => { d with host := { d.host with
      linkIde := d.host.linkIde && decide (fn ≠ 0), ide := d.host.ide.filter fun f => decide (f ≠ fn) } }).commit) ∧
  (∀ σ k, exec (.keyTableUncorrectable k) σ = .next ((Work.begin σ).partError k).commit) ∧
  (∀ (w : Work) k, (w.dev.partOf k).st ≠ 2 → (w.dev.partOf k).st ≠ 3 → w.partError k = w) ∧
  (∀ (w : Work) k, (w.dev.partOf k).st = 2 ∨ (w.dev.partOf k).st = 3 → ((w.partError k).dev.partOf k).st = 4))

/-- R70 to R73: SPDM on a function's mailbox goes from the version to the capabilities, the algorithms and a session; a
request out of order gets an error. A measurement block of Table 3.4 is answered after the algorithms. The tenant's
key is taken over an established session of its function while the partition is configured and none of its functions
is locked, and a debug policy that is accepted replaces the one before. In recovery the PF's mailbox alone answers. -/
def Obligations.SpdmRequests : Prop :=
  (∀ x ∈ ([(Instr.getVersion, 0x84, fun _ => true, fun _ => { version := true }),
      (Instr.getCapabilities, 0xE1, fun s => s.version, fun s => { s with caps := true }),
      (Instr.negotiateAlgorithms, 0xE3, fun s => s.caps, fun s => { s with algs := true }),
      (Instr.getDigests, 0x81, fun s => s.algs, fun s => s), (Instr.getCertificate, 0x82, fun s => s.algs, fun s => s),
      (Instr.challenge, 0x83, fun s => s.algs, fun s => s),
      (Instr.keyExchange, 0xE4, fun s => s.algs, fun s => { s with session := 1 }),
      (fun fn => Instr.finish fn true, 0xE5, fun s => decide (s.session = 1), fun s => { s with session := 2 }),
      (fun fn => Instr.finish fn false, 0xE5, fun s => decide (s.session = 1), fun s => { s with session := 0 }),
      (Instr.endSession, 0xEC, fun s => decide (s.session = 2), fun s => { s with session := 0 })] :
      List ((Nat → Instr) × Nat × (Spdm → Bool) × (Spdm → Spdm))),
    ∀ σ fn, let s := x.2.2.2 (σ.dev.spdmOf fn)
      let h : HostSide := { σ.dev.host with
        spdm := σ.dev.host.spdm.set fn { s with transcript := Config.spdmBody (0x100 + x.2.1) s.transcript }
        reply := .spdm x.2.1 13 (spdmAlgs x.2.1) (Config.spdmBody x.2.1 (Config.freeValue σ.dev.fresh)) }
      (mailboxAnswers σ.dev fn = false → exec (x.1 fn) σ =
        .next (withDev σ { σ.dev with host := { σ.dev.host with reply := .unsupported } })) ∧
      (mailboxAnswers σ.dev fn = true → x.2.2.1 (σ.dev.spdmOf fn) = true →
        exec (x.1 fn) σ = .next (withDev σ { σ.dev with fresh := σ.dev.fresh + 1, host := h })) ∧
      (mailboxAnswers σ.dev fn = true → x.2.2.1 (σ.dev.spdmOf fn) = false → exec (x.1 fn) σ =
        .next (withDev σ { σ.dev with host := { σ.dev.host with reply := .spdmError } }))) ∧
  (∀ d fn, mailboxAnswers d fn = true ↔ d.mode = .running ∨ d.mode = .recovery ∧ fn = 0) ∧
  (∀ σ fn b, mailboxAnswers σ.dev fn = true →
    let s := σ.dev.spdmOf fn
    let d : Dev := { σ.dev with host := { σ.dev.host with
      spdm := σ.dev.host.spdm.set fn { s with transcript := Config.spdmBody (0x200 + b) s.transcript } } }
    exec (.getMeasurements fn b) σ = .next (if s.algs = true ∧ 1 ≤ b ∧ b ≤ 8 then
        withDev σ { d with host := { d.host with reply := .spdm 0xE0 13 [.ed25519, .sha384] (measurement d fn b) } }
      else withDev σ { σ.dev with host := { σ.dev.host with reply := .spdmError } })) ∧
  (∀ d fn b, d.mode ≠ .running → 3 < b → measurement d fn b = 0) ∧
  (∀ σ fn part key, vfOwner σ.dev fn = some part →
    let p := σ.dev.partOf part
    let p2 : Part := { p with keys := [key] }
    exec (.tenantKeyDelivery fn key) σ = .next
      (if σ.dev.mode = .running ∧ p.st = 1 ∧ (p.conf = false ∨ p.locked = []) ∧ (σ.dev.spdmOf fn).session = 2 then
        withDev σ { σ.dev with parts := σ.dev.parts.set part p2, host := { σ.dev.host with reply := .done } }
      else withDev σ { σ.dev with host := { σ.dev.host with reply := .unsupported } })) ∧
  (∀ σ fn part rec, vfOwner σ.dev fn = some part →
    let x : Policy := { open_ := packedBytes rec 6 2, version := packedBytes rec 8 8, digest := sha384 rec (128 + 64 + 3309) }
    let h : HostSide := { σ.dev.host with policies := σ.dev.host.policies.set part x, reply := .done }
    exec (.debugPolicy fn rec) σ = .next (if σ.dev.mode = .running ∧ policyOk σ.dev part rec = true then
      withDev σ { σ.dev with host := h } else withDev σ { σ.dev with host := { σ.dev.host with reply := .unsupported } })) ∧
  (∀ σ fn x, vfOwner σ.dev fn = none → ∀ i ∈ [Instr.tenantKeyDelivery fn x, .debugPolicy fn x],
    exec i σ = .next (withDev σ { σ.dev with host := { σ.dev.host with reply := .unsupported } })) ∧
  (∀ d part rec x, d.host.policies.get? part = some x → packedBytes rec 8 8 ≤ x.version → policyOk d part rec = false)

/-- R74, R75, Tables 3.8, 3.9, 11.10: a hold of a context the window owns is asked for and released where the policy opens
bit 3, and refused and counted elsewhere; a register the map does not list ignores its write; the recovery command 1
fills the window's first bytes with the summary record. -/
def Obligations.DebugAndRegisters : Prop :=
  (∀ σ fn, answers σ.dev fn = false → ∀ i ∈ [Instr.haltRequest fn, .haltRelease fn],
    exec i σ = .next (withDev σ { σ.dev with host := { σ.dev.host with reply := .unsupported } })) ∧
  (∀ σ fn, answers σ.dev fn = true → debugOwn σ.dev fn = false → ∀ i ∈ [Instr.haltRequest fn, .haltRelease fn],
    exec i σ = .next (withDev σ { σ.dev with host := { σ.dev.host with reply := .done } })) ∧
  (∀ σ fn, answers σ.dev fn = true → debugOwn σ.dev fn = true →
    (bit (debugOpen σ.dev fn) 3 = true →
      exec (.haltRequest fn) σ = .next (((Work.begin σ).setHalt fn true).reply .done).commit ∧
      exec (.haltRelease fn) σ = .next (((Work.begin σ).setHalt fn false).reply .done).commit) ∧
    (bit (debugOpen σ.dev fn) 3 = false → ∀ i ∈ [Instr.haltRequest fn, .haltRelease fn],
      exec i σ = .next (((Work.begin σ).countRefusal 60 (debugPart σ.dev fn) fn).reply .unsupported).commit)) ∧
  (∀ (w : Work) fn, let x := w.dev.dbgOf fn
    let c := w.ctx x.core x.bank
    (c.busy = false ∨ c.ebb = true → ((w.setHalt fn true).ctx x.core x.bank).halt = max 1 c.halt ∧
      ((w.setHalt fn false).ctx x.core x.bank).halt = 0)) ∧
  (∀ σ off val, 0x40000 ≤ off → off ≠ 0x40000 → off ≠ 0x40004 → off < 0x50000 → σ.dev.mode = .running →
    exec (.registerWrite 0 off val) σ = .next (withDev σ { σ.dev with host := { σ.dev.host with reply := .done } })) ∧
  (∀ σ off val, 0x20000 ≤ off → off < 0x40000 → σ.dev.mode = .running →
    let h : HostSide := { σ.dev.host with vectors := σ.dev.host.vectors.set off val, reply := .done }
    exec (.registerWrite 0 off val) σ = .next (withDev σ { σ.dev with host := h })) ∧
  (∀ σ fn off val, fn ≠ 0 ∨ off < 0x50000 ∨ 0x70000 ≤ off → answers σ.dev fn = false →
    exec (.registerWrite fn off val) σ = .next (withDev σ { σ.dev with host := { σ.dev.host with reply := .unsupported } })) ∧
  (∀ σ, exec .readSummaryIntoWindow σ = .next (if σ.dev.recovery.st = 1 then same σ else (readSummary (Work.begin σ)).commit)) ∧
  (∀ (w : Work), let d : Dev := { w.dev with host := { w.dev.host with sumCount := w.dev.host.sumCount + 1 } }
    (readSummary w).readN (Key.recWin 0) 4096 = summaryRecord d 16 % 2 ^ (8 * 4096) ∧
    (readSummary w).dev = { d with recovery := { d.recovery with st := 2, why := 0, storing := none } })

/-- R62, R67, R69, R76 to R78, R185, R205: a host function's request to memory of a confidential partition, through the
PF, is refused and counted; one to memory it may not reach, that is private or not powered, is unsupported; one that
has to wait is kept; a read of device-biased lines follows the write-back of their dirty copies and the invalidation
of the leased ones and a read within a line of clean memory returns its bytes, a write is done, and a line of a
host-biased granule is granted to the host's caches, which give it back with its data or without. What crosses the
host port to and from a partition's granules of the host window is encrypted. The host's own window is its own,
whatever the partitions. (An ownership request to a device-biased line is refused by the model's choice of log entry
128.) -/
def Obligations.HostMemoryRequests : Prop :=
  (∀ σ q, let fn := q.agent
    let own := decide (0 < q.len) && (linesOf q.addr q.len).all fun l => decide (regionOf (64 * l) = .host)
    (own = true → σ.dev.mode = .running → exec (.hostCxlMemRequest q) σ = .next (hostPerforms fn q (Work.begin σ)).commit) ∧
    (own = false ∨ σ.dev.mode ≠ .running →
      (answers σ.dev fn = false → exec (.hostCxlMemRequest q) σ =
        .next (withDev σ { σ.dev with host := { σ.dev.host with reply := .unsupported } })) ∧
      (answers σ.dev fn = true →
        (confRefused σ.dev fn q.addr q.len = true → exec (.hostCxlMemRequest q) σ =
          .next (((Work.begin σ).countRefusal 11 16 fn).reply .unsupported).commit) ∧
        (confRefused σ.dev fn q.addr q.len = false → rangeFault σ.dev 0 q.addr q.len false ≠ 0 ∨
            anyPrivate σ.dev q.addr q.len = true ∨ hostMay σ.dev fn q.addr q.len = false →
          exec (.hostCxlMemRequest q) σ =
            .next (withDev σ { σ.dev with host := { σ.dev.host with reply := .unsupported } })) ∧
        (confRefused σ.dev fn q.addr q.len = false → rangeFault σ.dev 0 q.addr q.len false = 0 →
          anyPrivate σ.dev q.addr q.len = false → hostMay σ.dev fn q.addr q.len = true →
          exec (.hostCxlMemRequest q) σ = .next (hostPerforms fn q (Work.begin σ)).commit)))) ∧
  (∀ (w : Work) fn q, q.kind ≤ 2 ∨ q.kind = 5 →
    let n := q.len
    let l := q.addr / 64
    let crossed : MemReq := { q with data := q.data ^^^ portPad w.dev q.addr n }
    let waits := hostWaits w.dev q.addr n (decide (q.kind = 1) || decide (q.kind = 2))
    (rangeFault w.dev 0 q.addr n true ≠ 0 → hostPerforms fn q w = w.reply .unsupported) ∧
    (rangeFault w.dev 0 q.addr n true = 0 → (linesOf q.addr n).any (hostOwns w.dev) = true →
      hostPerforms fn q w = w.reply .none) ∧
    (rangeFault w.dev 0 q.addr n true = 0 → (linesOf q.addr n).any (hostOwns w.dev) = false →
      (waits = true → hostPerforms fn q w = (w.snoopLines q.addr n).askAgain 0 fn q) ∧
      (waits = false →
        (q.kind = 0 ∨ q.kind = 5 ∧ hostCaches w.dev q.addr n = false → hostPerforms fn q w =
          ((w.serveHost q.addr n).outsideAccess hostAgent { crossed with kind := 0 } .unsupported).crossPort q.addr n) ∧
        (q.kind = 1 → hostPerforms fn q w =
          ((w.dropHost q.addr n).serveHost q.addr n).outsideAccess hostAgent crossed .unsupported) ∧
        (q.kind = 2 ∨ q.kind = 5 → hostCaches w.dev q.addr n = true → hostPerforms fn q w =
          ((w.grantHost l (decide (q.kind = 2))).reply (if w.poisonAt (64 * l) 64 ≠ 0 then .poisoned
            else .value (w.pread (64 * l) 64))).crossPort (64 * l) 64) ∧
        (q.kind = 2 → hostCaches w.dev q.addr n = false → hostPerforms fn q w = w.reply .unsupported)))) ∧
  (∀ (w : Work) fn q, let l := q.addr / 64
    let held := w.dev.host.dir.find? fun x => decide (x.line = l)
    (q.kind = 3 → (∃ x, held = some x ∧ x.owned = true) → hostPerforms fn q w =
      (w.dropHost (64 * l) 64).throughFlip fun y =>
        (Work.agentWrite hostAgent 2 (64 * l) 64 (q.data ^^^ portPad w.dev (64 * l) 64) y).reply .done) ∧
    (q.kind = 3 → (∀ x, held = some x → x.owned = false) → hostPerforms fn q w = w.reply .unsupported) ∧
    (q.kind = 4 → (∀ x, held = some x → x.owned = false) → hostPerforms fn q w = (w.dropHost (64 * l) 64).reply .done)) ∧
  (∀ (d : Dev) pa, regionOf pa ≠ .host ∨ granuleOwned d 16 (granuleOf pa) = true → portPad d pa 1 = 0) ∧
  (∀ (w : Work) l own, ∃ x, (w.grantHost l own).dev.host.dir.head? = some x ∧ x.line = l ∧ x.owned = own ∧
    (w.grantHost l own).log = w.log) ∧
  (∀ σ q, let w := Work.begin σ
    q.kind = 0 → outsideWaits σ.dev q.addr q.len false = false → 0 < q.len → q.addr % 64 + q.len ≤ 64 →
      rangeFault σ.dev 0 q.addr q.len false = 0 → anyPoison w q.addr q.len = false →
      σ.dev.sock.dir = [] → σ.dev.host.dir = [] →
      ∃ t, (w.outsideAccess hostAgent q .unsupported).commit = t ∧ SameBytes σ t ∧ t.dev.host.reply = .value (w.pread q.addr q.len))

/-- R64, R108, R109, R120, R122, R125, Table 5.3: a write of a window's BIND binds it to a whole queue of the function's
partition that D0 reaches and unbinds it otherwise, and is refused where the partition's bindings are frozen (log
entry 133); the aperture enqueues an element of the queue's size where the host may produce, refuses with Unsupported
Request and counts what the home refuses, and discards and counts an element of another size; CLAIM answers a slot of
a command queue or all ones; RELEASE acts on event queues only; a peer's enqueue is answered over its link. -/
def Obligations.QueueWindows : Prop :=
  (∀ σ fn win h, answers σ.dev fn = true → hasWindow fn win = true →
    let part := (functionPart σ.dev fn).getD 16
    let frozen : Bool := bindingFrozen σ.dev fn && decide ((σ.dev.window fn win).handle ≠ h)
    let put (w : Work) (x : Window) : State :=
      ((w.mapDev fun d => { d with host := { d.host with wins := d.host.wins.set (16 * fn + win) x } }).reply .done).commit
    (frozen = true → exec (.queueWindowBind fn win h) σ =
      .next (withDev σ { σ.dev with host := { σ.dev.host with reply := .unsupported } })) ∧
    (frozen = false →
      (2 ^ 56 ≤ h ∨ h % 64 ≠ 0 → exec (.queueWindowBind fn win h) σ = .next (put (Work.begin σ) {})) ∧
      (∀ e, h < 2 ^ 56 → h % 64 = 0 → translate (Work.begin σ) (deviceAsker σ.dev part 0) [] h = .error e →
        exec (.queueWindowBind fn win h) σ = .next (put ((Work.begin σ).awaits e) {})) ∧
      (∀ x, h < 2 ^ 56 → h % 64 = 0 → translate (Work.begin σ) (deviceAsker σ.dev part 0) [] h = .ok x →
        exec (.queueWindowBind fn win h) σ = .next (if reachFault σ.dev 0 x.pa = 0 ∧
            ((Work.begin σ).block x.pa).owner = part ∧ wholeQueue (Work.begin σ) x.pa = true ∧
            reachable σ.dev 0 (queueSlice (Work.begin σ) x.pa) = true then
          put ((Work.begin σ).adopt x.pa h part (queueSlice (Work.begin σ) x.pa)) { handle := h, cb := x.pa }
        else put (Work.begin σ) {})))) ∧
  (∀ σ fn win elem len n h, answers σ.dev fn = false ∨ hasWindow fn win = false →
    ∀ i ∈ [Instr.enqAperture fn win elem len, .claim fn win, .release fn win n, .queueWindowBind fn win h],
    exec i σ = .next (withDev σ { σ.dev with host := { σ.dev.host with reply := .unsupported } })) ∧
  (∀ σ fn win elem len n, answers σ.dev fn = true → hasWindow fn win = true → (σ.dev.window fn win).handle = 0 →
    (∀ i ∈ [Instr.enqAperture fn win elem len, .release fn win n],
      exec i σ = .next ((Work.begin σ).refuseWindow 21 fn).commit) ∧
    exec (.claim fn win) σ =
      .next (withDev σ { σ.dev with host := { σ.dev.host with reply := .value (2 ^ 64 - 1) } })) ∧
  (∀ σ fn win elem len n c, answers σ.dev fn = true → hasWindow fn win = true →
    windowCheck (Work.begin σ) fn win = some c → (σ.dev.window fn win).handle ≠ 0 →
    ∀ i ∈ [Instr.enqAperture fn win elem len, .claim fn win, .release fn win n],
    exec i σ = .next (c.2.refuseWindow c.1 fn).commit) ∧
  (∀ σ fn win elem len, answers σ.dev fn = true → hasWindow fn win = true → windowCheck (Work.begin σ) fn win = none →
    let w := Work.begin σ
    let b := w.block (σ.dev.window fn win).cb
    let part := (functionPart σ.dev fn).getD 16
    let may := mayProduce b.role (.host part)
    let r := w.windowOp fn win (.enqueue (elem % 2 ^ (8 * len)) false)
    (b.role = 1 ∨ may = false → exec (.enqAperture fn win elem len) σ = .next (w.refuseWindow 21 fn).commit) ∧
    (b.role ≠ 1 → may = true → len ≠ 2 ^ b.elog → exec (.enqAperture fn win elem len) σ =
      .next ((w.countRefusal 19 part fn).reply .done).commit) ∧
    (b.role ≠ 1 → may = true → len = 2 ^ b.elog →
      (∀ a c e, r.1 = .done a c e → exec (.enqAperture fn win elem len) σ = .next (r.2.reply .done).commit) ∧
      (r.1 = .full → exec (.enqAperture fn win elem len) σ = .next (r.2.refuseWindow 16 fn).commit) ∧
      (∀ c, r.1 = .refused c → exec (.enqAperture fn win elem len) σ = .next (r.2.refuseWindow c fn).commit))) ∧
  (∀ σ fn win, answers σ.dev fn = true → hasWindow fn win = true → windowCheck (Work.begin σ) fn win = none →
    let w := Work.begin σ
    let b := w.block (σ.dev.window fn win).cb
    let r := w.windowOp fn win .claim
    let no : State := withDev σ { σ.dev with host := { σ.dev.host with reply := .value (2 ^ 64 - 1) } }
    (b.role ≠ 1 → exec (.claim fn win) σ = .next no) ∧
    (∀ t a c, b.role = 1 → r.1 = .done t a c → exec (.claim fn win) σ = .next (r.2.reply (.value t)).commit) ∧
    (b.role = 1 → r.1 = .full → exec (.claim fn win) σ = .next (r.2.reply (.value (2 ^ 64 - 1))).commit) ∧
    (∀ n, b.role ≠ 2 → exec (.release fn win n) σ = .next (w.refuseWindow 21 fn).commit) ∧
    (∀ n, b.role = 2 → n % 2 ^ 21 = 0 → exec (.release fn win n) σ =
      .next (withDev σ { σ.dev with host := { σ.dev.host with reply := .done } })) ∧
    (∀ n, b.role = 2 → n % 2 ^ 21 ≠ 0 →
      let q := w.windowOp fn win (.release (n % 2 ^ 21))
      (∀ c, q.1 ≠ .refused c) → exec (.release fn win n) σ = .next (q.2.reply .done).commit)) ∧
  (∀ σ p cb elem, (σ.dev.ports.get p {}).up = false → exec (.peerQueueClaim p cb elem) σ =
    .next (withDev σ { σ.dev with host := { σ.dev.host with reply := .linkError } })) ∧
  (∀ σ p cb elem, let w := Work.begin σ
    let hm := queueSlice w cb
    let r := w.atHome cb hm 0 (σ.dev.agentTime (portAgent p)) .peer (.enqueue elem false)
    (σ.dev.ports.get p {}).up = true → σ.dev.mode = .running → cb % 64 = 0 →
    rangeFault σ.dev (portDie p) cb 64 false = 0 → reachable σ.dev (portDie p) hm = true →
    (homeCheck w cb hm .peer = none → mayProduce (w.block cb).role .peer = false → exec (.peerQueueClaim p cb elem) σ =
      .next (withDev σ { σ.dev with host := { σ.dev.host with reply := .linkError } })) ∧
    (homeCheck w cb hm .peer = none → mayProduce (w.block cb).role .peer = true → ∀ a c e, r.1 = .done a c e →
      exec (.peerQueueClaim p cb elem) σ = .next (r.2.reply .done).commit) ∧
    (∀ c, homeCheck w cb hm .peer = some c → r.1 = .refused c →
      exec (.peerQueueClaim p cb elem) σ = .next (r.2.reply .linkError).commit))

-- The guest socket (file 02)

/-- R40 to R43, R51, R56: the socket's link. Enabling it and a partner's detection start training from Absent, training
ends in Measuring with a 100 ms limit for HELLO, a guest that fails SPDM or the limit is Refused, disabling it before
admission and the loss of every module make it Absent; disabling it, a link reset, the loss of every module and a
missed duty fence an admitted or bound guest: its state is Fenced at once, a missed duty's code stands in DUTY, and
the rest of the fence is either over with it or waits for the lines it has to write. A link reset that comes while a
fence is not over is finished with it. The socket's registers answer while the device runs. -/
def Obligations.GuestLink : Prop :=
  (∀ σ wr, σ.dev.mode ≠ .running → ∀ i ∈ [Instr.gsCtlEn true, .gsCtlEn false, .socketLinkReset, .gsStatDvClear wr],
    exec i σ = .next (withDev σ { σ.dev with host := { σ.dev.host with reply := .unsupported } })) ∧
  (∀ σ, let s := σ.dev.sock
    σ.dev.mode = .running → exec (.gsCtlEn true) σ = .next (withDev σ { σ.dev with
      sock := { s with en := true, st := if s.st = 0 ∧ s.partner = true then 1 else s.st } }) ∧
    (s.st = 1 ∨ s.st = 2 → exec (.gsCtlEn false) σ = .next (withDev σ { σ.dev with
      sock := { s with en := false, st := 0, mods := 0, rate := 0, helloBy := none, spdmBy := none } })) ∧
    (s.st = 0 ∨ 4 < s.st → exec (.gsCtlEn false) σ = .next (withDev σ { σ.dev with sock := { s with en := false } })) ∧
    (s.st = 3 ∨ s.st = 4 → ∃ t, exec (.gsCtlEn false) σ = .next t ∧ t.dev.sock.st = 5 ∧ t.dev.sock.duty = 0 ∧
      t.dev.sock.dv = true ∧ t.dev.sock.tlb = [] ∧ t.dev.sock.claims = [] ∧
      (t.dev.sock.fence = none ∧ t.dev.sock.ctl = [] ∧ t.dev.sock.taken = [] ∨
        t.dev.sock.fence = some { cause := 58, part := if s.st = 4 then s.part else 16, was := s.st, after := 0 }))) ∧
  (∀ σ, let s := σ.dev.sock
    σ.dev.mode = .running → (s.st ≠ 3 → s.st ≠ 4 → s.fence = none → s.dir = [] →
      exec .socketLinkReset σ = .next (withDev σ { σ.dev with sock := { s with
        st := if s.en = true ∧ (s.st ≠ 0 ∨ s.partner = true) then 1 else 0
        snoops := [], mods := 0, off := 0, rate := 0, tlb := [], stale := [], ctl := [], helloBy := none, spdmBy := none } })) ∧
    (∀ f, s.st ≠ 3 → s.st ≠ 4 → s.fence = some f → exec .socketLinkReset σ = .next (withDev σ { σ.dev with
      sock := { s with fence := some { f with after := 2 } } })) ∧
    (s.st = 3 ∨ s.st = 4 → s.en = true → ∃ t, exec .socketLinkReset σ = .next t ∧ t.dev.sock.tlb = [] ∧
      (t.dev.sock.fence = none ∧ t.dev.sock.st = 1 ∧ t.dev.sock.mods = 0 ∧ t.dev.sock.off = 0 ∧ t.dev.sock.ctl = [] ∨
        t.dev.sock.st = 5 ∧
        t.dev.sock.fence = some { cause := 58, part := if s.st = 4 then s.part else 16, was := s.st, after := 2 }))) ∧
  (∀ σ wr, let s := σ.dev.sock
    σ.dev.mode = .running → exec (.gsStatDvClear wr) σ = .next (withDev σ { σ.dev with sock := { s with dv := s.dv && !bit wr 17 } })) ∧
  (∀ σ p, let s := σ.dev.sock
    exec (.partnerDetect p) σ = .next (withDev σ { σ.dev with
      sock := { s with partner := p, st := if s.st = 0 ∧ s.en = true ∧ p = true then 1 else s.st } })) ∧
  (∀ σ mods rate, let s := σ.dev.sock
    let m := mods % 16 &&& (15 ^^^ s.off)
    (s.st ≠ 1 ∨ m = 0 ∨ rate = 0 ∨ 5 < rate → exec (.moduleTrained mods rate) σ = .next (same σ)) ∧
    (s.st = 1 → m ≠ 0 → rate ≠ 0 → rate ≤ 5 → ∃ t, exec (.moduleTrained mods rate) σ = .next t ∧ t.dev.sock.st = 2 ∧
      t.dev.sock.helloBy = some (σ.dev.now + 60000000) ∧ t.dev.sock.measured = false ∧ t.dev.sock.ctl = [])) ∧
  (∀ σ mods, let s := σ.dev.sock
    let o := s.off ||| mods % 16
    exec (.moduleTrainingFail mods) σ = .next (withDev σ { σ.dev with sock := if s.st = 1 ∧ o = 15 then
      { s with off := o, st := 0, mods := 0, rate := 0, helloBy := none, spdmBy := none } else { s with off := o } })) ∧
  (∀ σ mods, let s := σ.dev.sock
    let left := s.mods &&& (15 ^^^ mods % 16)
    (s.mods = 0 ∨ left ≠ 0 ∨ 4 < s.st → exec (.moduleReplayLimit mods) σ = .next (withDev σ { σ.dev with
      sock := { s with mods := left, off := s.off ||| (s.mods &&& mods % 16) } })) ∧
    (s.mods ≠ 0 → left = 0 → s.st ≤ 2 → ∃ t, exec (.moduleReplayLimit mods) σ = .next t ∧ t.dev.sock.st = 0 ∧
      t.dev.sock.mods = 0 ∧ t.dev.sock.rate = 0) ∧
    (s.mods ≠ 0 → left = 0 → s.st = 3 ∨ s.st = 4 → ∃ t, exec (.moduleReplayLimit mods) σ = .next t ∧ t.dev.sock.mods = 0 ∧
      (t.dev.sock.fence = none ∧ t.dev.sock.st = 0 ∧ t.dev.sock.rate = 0 ∨ t.dev.sock.st = 5 ∧
        t.dev.sock.fence = some { cause := 47, part := if s.st = 4 then s.part else 16, was := s.st, after := 1 }))) ∧
  (∀ σ ok meas, let s := σ.dev.sock
    exec (.guestSpdmComplete ok meas) σ = .next (withDev σ { σ.dev with sock :=
      if s.st = 2 then (if ok = true then { s with measured := true, measLog := s.measLog ++ meas } else { s with st := 6 })
      else if s.st = 3 ∨ s.st = 4 then { s with spdmBy := none, measLog := s.measLog ++ meas } else s })) ∧
  (∀ σ, let s := σ.dev.sock
    (∀ t, s.helloBy = some t → s.st = 2 → t ≤ σ.dev.now →
      exec .helloTimeout σ = .next (withDev σ { σ.dev with sock := { s with st := 6, helloBy := none } })) ∧
    (s.helloBy = none ∨ s.st ≠ 2 → exec .helloTimeout σ = .next (same σ)) ∧
    (∀ t, s.helloBy = some t → σ.dev.now < t → exec .helloTimeout σ = .next (same σ))) ∧
  (∀ (w : Work) k, w.dev.sock.st = 3 ∨ w.dev.sock.st = 4 → (w.missDuty k).dev.sock.st = 5 ∧ (w.missDuty k).dev.sock.duty = k ∧
    (w.missDuty k).dev.sock.dv = true) ∧
  (∀ (w : Work) duty cause after, w.dev.sock.st ≠ 3 → w.dev.sock.st ≠ 4 → w.fenceGuest duty cause after = w)

/-- R43, R45 to R49, R53 to R55, R108: packets of `gfq` and `gcq`. The guest claims a slot of `gfq` with its packet, or
the slot alone, whose count it is told and which it fills after; how a claim on the queue channel says which is the
model's choice, notes/assumptions/116.md. The front end reads the oldest slot: one without V is looked at again until
10 ms after the first such read, one whose check fails up to 4 times more; before the measurement has ended none is
read (the model's choice, notes/assumptions/115.md). HELLO in order admits the guest and any other first packet
refuses it; an ACK in time has its control packet's effect; a malformed packet is missed duty 7 and a late ACK the
duty it carries; FAULT ends its command with cause 57. PREEMPT, RESUME, BIND and UNBIND are placed with the deadlines
of R54 and R55 in the states that take them (for which partition BIND is sent and what withholds PREEMPT are the
model's choice, notes/assumptions/104.md and 105.md); a deadline of a waiting packet, a snoop or SPDM that has passed
is a missed duty. -/
def Obligations.GuestControlPackets : Prop :=
  (∀ σ p, let w := Work.begin σ
    (∀ i ∈ [Instr.hello p, .ack p, .fault p], exec i σ = .next (w.claimGfq p true).commit) ∧
    (pkV p = false → exec (.guestQueueClaim 9 p) σ = .next (w.claimGfq p false).commit) ∧
    (∀ c, pkV p = true → (σ.dev.sock.claims.find? fun x => x.open_) = some c →
      exec (.guestQueueClaim 9 p) σ = .next (w.writeGfq c p).commit) ∧
    (pkV p = true → (∀ x ∈ σ.dev.sock.claims, x.open_ = false) →
      exec (.guestQueueClaim 9 p) σ = .next (w.claimGfq p true).commit)) ∧
  (∀ (w : Work) p whole, let s := w.dev.sock
    let cb := guestCb w 9
    let who : Requester := .guest (guestPart w.dev)
    let full : Bool := decide (s.st = 2 ∧ pkKind p ≠ 0x42) ||
      decide ((s.st = 3 ∨ s.st = 4) ∧ pkKind p = 0x40 ∧ (w.block cb).free ≤ 64)
    let shut : Bool := full && decide (homeCheck w cb (queueSlice w cb) who = none)
    let r := w.atHome cb (queueSlice w cb) cb (w.dev.agentTime guestAgent) who (if whole = true then .enqueue p false else .claim)
    (s.st ≠ 2 → s.st ≠ 3 → s.st ≠ 4 → w.claimGfq p whole = w.reply .none) ∧
    (s.st = 2 ∨ s.st = 3 ∨ s.st = 4 → shut = true → w.claimGfq p whole = w.reply .queueFull) ∧
    (s.st = 2 ∨ s.st = 3 ∨ s.st = 4 → shut = false →
      (∀ k e c, r.1 = .done k e c → w.claimGfq p whole =
        (((r.2.reply (if whole = true then .done else .value k)).updSock fun x => { x with claims := x.claims ++
          [{ pos := k, at_ := w.dev.now, since := w.dev.now, open_ := !whole }] }).atOnce readGfq)) ∧
      (r.1 = .full → w.claimGfq p whole = r.2.reply .queueFull) ∧
      (r.1 = .refused 12 → w.claimGfq p whole = r.2.missDuty 2) ∧
      (∀ k, k ≠ 12 → r.1 = .refused k → w.claimGfq p whole = r.2.reply .guestError))) ∧
  (∀ (w : Work) c p, w.writeGfq c p = (((Work.agentWrite guestAgent 2
    ((w.block (guestCb w 9)).ring + c.pos % (w.block (guestCb w 9)).cap * 64) 64 p w).reply .done).updSock fun x => { x with
      claims := x.claims.map fun y => if y = c then { c with open_ := false, at_ := w.dev.now } else y }).atOnce readGfq) ∧
  (∀ (w : Work) c rest, w.dev.sock.claims = c :: rest →
    let now := w.dev.now
    let cb := guestCb w 9
    let b := w.block cb
    let slot := b.ring + c.pos % b.cap * 64
    let r := Work.agentRead (feAgent 1) 2 slot 64 w
    let keep (x : GfqClaim) : Work := r.2.updSock fun y => { y with claims := x :: rest }
    let q := r.2.atHome cb (queueSlice w cb) cb (r.2.dev.agentTime (feAgent 1)) .device (.dequeue false)
    let stall := c.stall.getD (now + 6000000)
    let freed := (Work.agentWrite (feAgent 1) 1 (slot + 1) 1 0 q.2).updSock fun x => { x with claims := rest }
    (gfqDue w.dev.sock now = true ↔ (w.dev.sock.st = 2 → w.dev.sock.measured = true) ∧ c.at_ ≤ now) ∧
    (gfqDue w.dev.sock now = false → readGfq w = w) ∧
    (gfqDue w.dev.sock now = true →
      (pkV r.1 = false → now < stall → readGfq w = keep { c with at_ := now + 64, stall := some stall }) ∧
      (pkV r.1 = true → pkCheck r.1 = false → c.tries < 4 →
        readGfq w = keep { c with tries := c.tries + 1, at_ := now + 64 }) ∧
      (∀ k e f, q.1 = .done k e f →
        (pkV r.1 = false → stall ≤ now → readGfq w = freed.badGfq) ∧
        (pkV r.1 = true → pkCheck r.1 = false → 4 ≤ c.tries → readGfq w = freed.badGfq) ∧
        (pkV r.1 = true → pkCheck r.1 = true → readGfq w = freed.judgeGfq r.1 c.since)) ∧
      (∀ k, pkV r.1 = true → pkCheck r.1 = true → q.1 = .refused k →
        readGfq w = q.2.updSock fun x => { x with claims := [] }))) ∧
  (∀ (w : Work) p t, let s := w.dev.sock
    (s.st = 2 → w.badGfq = (w.updSock fun x => { x with st := 6 }) ∧
      (pkKind p = 0x42 → helloOk s p = true → w.judgeGfq p t = w.admitGuest p) ∧
      (pkKind p ≠ 0x42 ∨ helloOk s p = false → w.judgeGfq p t = w.updSock fun x => { x with st := 6 })) ∧
    (s.st = 3 ∨ s.st = 4 → w.badGfq = w.missDuty 7 ∧
      (guestPacketOk s p = false ∨ pkKind p < 0x40 ∨ 0x42 < pkKind p → w.judgeGfq p t = w.missDuty 7) ∧
      (guestPacketOk s p = true →
        (pkKind p = 0x42 → packedBytes p 10 1 < 2 → packedBytes p 11 1 = 0 → packedBytes p 24 38 = 0 → w.judgeGfq p t = w) ∧
        (pkKind p = 0x42 → 2 ≤ packedBytes p 10 1 ∨ packedBytes p 11 1 ≠ 0 ∨ packedBytes p 24 38 ≠ 0 →
          w.judgeGfq p t = w.missDuty 7) ∧
        (pkKind p = 0x40 → packedBytes p 20 4 ≠ 0 → w.judgeGfq p t = w.missDuty 7) ∧
        (pkKind p = 0x40 → packedBytes p 20 4 = 0 → w.judgeGfq p t =
          (w.endTaken fun e => decide (packedBytes e 8 8 = packedBytes p 8 8) &&
            decide (packedBytes e 16 2 = packedBytes p 16 2)).endCommandWord
              (if s.st = 4 then s.part else 16) (packedBytes p 8 8) 57
              (packedBytes p 18 2)) ∧
        (pkKind p = 0x41 → ackOf s p = none → w.judgeGfq p t = w.missDuty 7) ∧
        (∀ c, pkKind p = 0x41 → ackOf s p = some c →
          (ackOk c p = false → w.judgeGfq p t = w.missDuty 7) ∧
          (ackOk c p = true → c.late t = true → w.judgeGfq p t = w.missDuty (dutyOf c.kind)) ∧
          (ackOk c p = true → c.late t = false →
            let w2 := w.updSock fun x => { x with ctl := x.ctl.filter fun y => decide (y ≠ c) }
            (c.kind = 0x20 ∨ c.kind = 0x21 → w.judgeGfq p t = w2) ∧
            (c.kind = 0x22 → w.judgeGfq p t = w2.updSock fun x => { x with suspended := true }) ∧
            (c.kind = 0x23 → w.judgeGfq p t = w2.updSock fun x => { x with suspended := false }) ∧
            (c.kind = 0x24 → w.judgeGfq p t = (w2.ownQueues c.part).updSock fun x => { x with st := 4, part := c.part }) ∧
            (c.kind = 0x25 → w.judgeGfq p t = w2.unbindGuest)))))) ∧
  (∀ (w : Work) p, (w.dev.sock.dir = [] → (w.unbindGuest).dev.sock.st = 3 ∧ (w.unbindGuest).dev.sock.leaving = false ∧
      (w.unbindGuest).dev.sock.suspended = false ∧ (w.unbindGuest).dev.sock.tlb = []) ∧
    (w.dev.sock.dir ≠ [] → (w.unbindGuest).dev.sock.st = w.dev.sock.st ∧ (w.unbindGuest).dev.sock.leaving = true ∧
      (w.unbindGuest).dev.sock.dir = w.dev.sock.dir) ∧
    (packedBytes p 9 1 = 8 → (w.admitGuest p).dev.sock.st = 3 ∧
      (w.admitGuest p).dev.sock.bound = packedBytes p 8 1 ∧ (w.admitGuest p).dev.sock.queues = 8)) ∧
  (∀ σ part, let s := σ.dev.sock
    let f := Config.freeValue σ.dev.fresh % 2 ^ 56
    let w : Work := (Work.begin σ).mapDev fun d => { d with fresh := d.fresh + 1 }
    exec .preempt σ = .next (if s.st ≠ 4 ∨ s.leaving = true ∨ s.suspended = true ∨
        ctlWaits s [0x22, 0x23, 0x24, 0x25] = true then same σ
      else (w.placeCtl { kind := 0x22, seq := 0, due := some (σ.dev.now + 600 * s.bound), kib := s.saveKib } s.part
          (f + 2 ^ 64 * s.saveKib + 2 ^ 96 * s.bound) fun y => { y with saveBase := f }).commit) ∧
    exec .resume σ = .next (if s.st ≠ 4 ∨ s.leaving = true ∨ s.suspended = false ∨ ctlWaits s [0x22, 0x23, 0x25] = true
      then same σ
      else ((Work.begin σ).placeCtl { kind := 0x23, seq := 0 } s.part (s.saveBase + 2 ^ 64 * s.saveKib) id).commit) ∧
    exec (.bind part) σ = .next (if s.st ≠ 3 ∨ ctlWaits s [0x22, 0x24, 0x25] = true ∨ (σ.dev.partOf part).st ≠ 3 then same σ
      else ((Work.begin σ).placeCtl { kind := 0x24, seq := 0, due := some (σ.dev.now + 60000), part := part } part 0 id).commit) ∧
    exec .unbind σ = .next (if s.st ≠ 4 ∨ s.leaving = true ∨ ctlWaits s [0x22, 0x25] = true then same σ
      else ((Work.begin σ).placeCtl { kind := 0x25, seq := 0, due := some (σ.dev.now + 60000) } s.part 0 id).commit)) ∧
  (∀ (w : Work) c part body (g : Sock → Sock),
    let n := w.dev.sock.seq % 2 ^ 32
    let p := c.kind + 2 ^ 15 + 2 ^ 16 * part + 2 ^ 32 * n + 2 ^ 64 * (body % 2 ^ 432)
    let cb := guestCb w 8
    let r := w.atHome cb (queueSlice w cb) cb (w.dev.agentTime (feAgent 1)) .device
      (.enqueue (p + 2 ^ 496 * crc16 (clearV p) 62) false)
    (64 ≤ w.dev.sock.ctl.length ∨ r.1 = .full → w.placeCtl c part body g = w) ∧
    (∀ k e f, w.dev.sock.ctl.length < 64 → r.1 = .done k e f → w.placeCtl c part body g = r.2.updSock fun x => g { x with
      seq := (x.seq + 1) % 2 ^ 32, ctl := x.ctl ++ [{ c with seq := n }] }) ∧
    (∀ k, w.dev.sock.ctl.length < 64 → r.1 = .refused k → w.placeCtl c part body g = r.2)) ∧
  (∀ σ seq, ∀ x ∈ ([(Instr.invalAckTimeout, [0x20, 0x21], 1), (.preemptDeadline, [0x22], 3),
      (.bindAckTimeout, [0x24, 0x25], 5)] : List ((Nat → Instr) × List Nat × Nat)),
    let found := σ.dev.sock.ctl.find? fun c => x.2.1.contains c.kind && decide (c.seq = seq)
    (found = none → exec (x.1 seq) σ = .next (same σ)) ∧
    (∀ c, found = some c → exec (x.1 seq) σ =
      .next (if c.missed σ.dev.sock σ.dev.now = true then ((Work.begin σ).missDuty x.2.2).commit else same σ))) ∧
  (∀ (c : CtlPkt) s now, c.missed s now = true ↔ ∃ t, c.due = some t ∧ t ≤ now ∧ ∀ x ∈ s.claims, t ≤ x.since) ∧
  (∀ σ line, exec (.snoopTimeout line) σ =
    .next (if (σ.dev.sock.snoops.any fun s => decide (s.1 = line) && decide (s.2 ≤ σ.dev.now)) = true
      then ((Work.begin σ).missDuty 4).commit else same σ)) ∧
  (∀ σ, exec .spdmResponseTimeout σ = .next (match σ.dev.sock.spdmBy with
    | none => same σ
    | some t => if t ≤ σ.dev.now then ((Work.begin σ).missDuty 6).commit else same σ))

/-- R44 to R46, R49 to R52, R55: the bound guest's ports. A request to memory it has not been granted gets an error and is
missed duty 2; a read grants the line and answers its bytes, after the least recently granted line has been recalled
where the directory is full; a write to lines it does not hold is made and a write-back of an owned line returns it;
while UNBIND recalls its lines only giving them back is open to it. A snoop's answer writes an owned line. A
translation answers the frame, the page size and the permissions, and is remembered. An element of an engine queue or
of `gcq` is taken by a claim; a claim that finds the queue empty is answered as one of a full queue (the model's
choice, notes/assumptions/117.md). -/
def Obligations.GuestPorts : Prop :=
  (∀ σ r, let d := σ.dev
    let l := r.addr / 64
    let owned : Bool := (d.sock.dir.find? fun x => decide (x.line = l)).any fun x => x.owned
    let refused : State := withDev σ { d with host := { d.host with reply := .guestError } }
    let w := Work.begin σ
    (d.sock.st ≠ 4 → exec (.guestCxlCacheRequest r) σ = .next refused) ∧
    (d.sock.st = 4 → notGranted d r.addr r.len = true → exec (.guestCxlCacheRequest r) σ =
      .next ((w.reply .guestError).missDuty 2).commit) ∧
    (d.sock.st = 4 → notGranted d r.addr r.len = false → rangeFault d 1 r.addr r.len false ≠ 0 ∨
        anyPrivate d r.addr r.len = true ∨ 4 < r.kind ∨ d.sock.leaving = true ∧ r.kind ≤ 2 ∨ r.kind = 3 ∧ owned = false →
      exec (.guestCxlCacheRequest r) σ = .next refused) ∧
    (d.sock.st = 4 → notGranted d r.addr r.len = false → rangeFault d 1 r.addr r.len false = 0 →
      anyPrivate d r.addr r.len = false →
      (d.sock.leaving = false → r.kind = 0 ∨ r.kind = 2 →
        (guestWaits d r.addr r.len (decide (r.kind = 2)) = true → exec (.guestCxlCacheRequest r) σ =
          .next (w.askAgain 1 0 r).commit) ∧
        (guestWaits d r.addr r.len (decide (r.kind = 2)) = false →
          (∀ x, crowdedOut d.sock l = some x → exec (.guestCxlCacheRequest r) σ = .next ((w.askFor x).askAgain 1 0 r).commit) ∧
          (crowdedOut d.sock l = none → exec (.guestCxlCacheRequest r) σ =
            .next ((w.grantLine l (decide (r.kind = 2))).reply
              (if w.poisonAt (64 * l) 64 ≠ 0 then .poisoned else .value (w.pread (64 * l) 64))).commit))) ∧
      (d.sock.leaving = false → r.kind = 1 →
        (outsideWaits d r.addr r.len true = true → exec (.guestCxlCacheRequest r) σ =
          .next ((w.snoopLines r.addr r.len).askAgain 1 0 r).commit) ∧
        (outsideWaits d r.addr r.len true = false → exec (.guestCxlCacheRequest r) σ =
          .next ((w.guestWrite r.addr r.len r.data).reply .done).commit)) ∧
      (r.kind = 3 → owned = true → exec (.guestCxlCacheRequest r) σ =
        .next ((((w.giveBack l).guestWrite (64 * l) 64 r.data).settleUnbind).reply .done).commit) ∧
      (r.kind = 4 → exec (.guestCxlCacheRequest r) σ =
        .next (((cond owned w (w.giveBack l)).settleUnbind).reply .done).commit))) ∧
  (∀ (w : Work), let s := w.dev.sock
    (s.leaving = false ∨ s.dir ≠ [] → w.settleUnbind = w) ∧
    (s.leaving = true → s.dir = [] → w.settleUnbind = w.updSock fun x => { x with
      st := 3, part := 0, leaving := false, suspended := false, snoops := [], tlb := [], stale := [], taken := [] })) ∧
  (∀ (w : Work) l own, ∃ x, (w.grantLine l own).dev.sock.dir.head? = some x ∧ x.line = l ∧ x.owned = own ∧
    (w.grantLine l own).log = w.log) ∧
  (∀ (s : Sock) l x, crowdedOut s l = some x → 131072 ≤ s.dir.length ∧ (∀ y ∈ s.dir, y.line ≠ l) ∧
    s.dir.getLast?.map (fun y => y.line) = some x) ∧
  (∀ σ line data, let s := σ.dev.sock
    let w1 := (Work.begin σ).giveBack line
    exec (.guestSnoopResponse line data) σ =
      .next (if (s.st ≠ 3 ∧ s.st ≠ 4) ∨ (s.snoops.all fun y => decide (y.1 ≠ line)) = true then same σ
        else if guestOwns σ.dev line = true then ((w1.guestWrite (64 * line) 64 data).settleUnbind).commit
        else w1.settleUnbind.commit)) ∧
  (∀ σ va acc, let s := σ.dev.sock
    let perm : Need := if acc = 0 then .read else if acc = 1 then .write else .atomic
    let tr := translate (Work.begin σ) { part := s.part, sec := s.sec, die := 1 } [perm] va
    (s.st ≠ 4 ∨ s.leaving = true → exec (.guestTranslationRequest va acc) σ =
      .next (withDev σ { σ.dev with host := { σ.dev.host with reply := .guestError } })) ∧
    (s.st = 4 → s.leaving = false → 2 ^ 56 ≤ va → exec (.guestTranslationRequest va acc) σ =
      .next (withDev σ { σ.dev with host := { σ.dev.host with reply := .noTranslation } })) ∧
    (∀ e, s.st = 4 → s.leaving = false → va < 2 ^ 56 → tr = .error e → exec (.guestTranslationRequest va acc) σ =
      .next (((Work.begin σ).awaits e).reply .noTranslation).commit) ∧
    (∀ x, s.st = 4 → s.leaving = false → va < 2 ^ 56 → tr = .ok x →
      let e : TlbEntry := { part := s.part, base := va - va % x.size, size := x.size, frame := x.frame,
                            perms := x.perms, cls := x.cls, handle := x.handle, lines := x.lines }
      let k : Sock := { s with tlb := e :: s.tlb.filter fun z => decide (z ≠ e) }
      let a : Reply := .translation x.frame x.size x.perms (inRanges σ.dev.secGran (granuleOf x.pa))
      exec (.guestTranslationRequest va acc) σ =
        .next (withDev σ { σ.dev with sock := k, host := { σ.dev.host with reply := a } }))) ∧
  (∀ σ q elem, let s := σ.dev.sock
    let w := Work.begin σ
    let cb := guestCb w q
    let r := w.atHome cb (queueSlice w cb) cb (σ.dev.agentTime guestAgent) (.guest (guestPart σ.dev)) (.dequeue false)
    (s.st = 2 → q ≤ 8 → exec (.guestQueueClaim q elem) σ =
      .next (withDev σ { σ.dev with host := { σ.dev.host with reply := .queueFull } })) ∧
    (s.st ≠ 2 → s.st ≠ 3 → s.st ≠ 4 → q ≤ 8 → exec (.guestQueueClaim q elem) σ =
      .next (withDev σ { σ.dev with host := { σ.dev.host with reply := .none } })) ∧
    (∀ t e c, s.st = 3 ∨ s.st = 4 → r.1 = .done t e c →
      (q < 8 → exec (.guestQueueClaim q elem) σ =
        .next ((r.2.updSock fun x => { x with taken := x.taken ++ [e] }).reply (.value e)).commit) ∧
      (q = 8 → exec (.guestQueueClaim q elem) σ = .next (r.2.reply (.value e)).commit)) ∧
    (s.st = 3 ∨ s.st = 4 → q ≤ 8 → r.1 = .empty → exec (.guestQueueClaim q elem) σ = .next (r.2.reply .queueFull).commit) ∧
    (s.st = 3 ∨ s.st = 4 → q ≤ 8 → r.1 = .refused 12 → exec (.guestQueueClaim q elem) σ = .next (r.2.missDuty 2).commit))
end

