-- ==== Sys2Proof/Laws/Memory.lean ====
section
/-! SUPPORT. The list of bytes: every write keeps its canonical form, what a read gives after a write, and what a closed
transaction leaves. -/

namespace Sys2Proof.Laws

open Sys2Proof.Machine

theorem cellsWf_weaken (l : List Host.Cell) (lo : Option Nat) (h : cellsWf lo l = true) : cellsWf none l = true := by
  cases l with
  | nil => rfl
  | cons c t =>
    obtain ⟨j, b⟩ := c
    cases lo <;> simp_all [cellsWf]

theorem cellsWf_write (l : List Host.Cell) (lo : Option Nat) (k : Nat) (v : Byte) (hk : ∀ x, lo = some x → x < k)
    (h : cellsWf lo l = true) : cellsWf lo (cellsWrite l k v) = true := by
  induction l generalizing lo with
  | nil =>
    by_cases hv : v = unwritten
    · simp [cellsWrite, hv, cellsWf]
    · cases lo <;> simp_all [cellsWrite, cellsWf]
  | cons c t ih =>
    obtain ⟨j, b⟩ := c
    simp only [cellsWf, Bool.and_eq_true, decide_eq_true_eq] at h
    obtain ⟨⟨hlo, hb⟩, ht⟩ := h
    unfold cellsWrite
    split
    · rename_i hjk
      subst hjk
      split
      · rename_i hv
        cases t with
        | nil => rfl
        | cons d u =>
          obtain ⟨i, e⟩ := d
          simp only [cellsWf, Bool.and_eq_true, decide_eq_true_eq] at ht ⊢
          refine ⟨⟨?_, ht.1.2⟩, ht.2⟩
          cases lo with
          | none => rfl
          | some x => simp only [decide_eq_true_eq] at hlo ⊢; omega
      · rename_i hv
        simp only [cellsWf, Bool.and_eq_true, decide_eq_true_eq]
        exact ⟨⟨hlo, hv⟩, ht⟩
    · split
      · rename_i hjk hkj
        split
        · simp only [cellsWf, Bool.and_eq_true, decide_eq_true_eq]
          exact ⟨⟨hlo, hb⟩, ht⟩
        · rename_i hv
          simp only [cellsWf, Bool.and_eq_true, decide_eq_true_eq]
          refine ⟨⟨?_, hv⟩, ⟨hkj, hb⟩, ht⟩
          cases lo with
          | none => rfl
          | some x => simpa using hk x rfl
      · rename_i hjk hkj
        simp only [cellsWf, Bool.and_eq_true, decide_eq_true_eq]
        exact ⟨⟨hlo, hb⟩, ih (some j) (fun x hx => by cases hx; omega) ht⟩

/-- A write keeps the canonical form. -/
theorem memory_write_wf (m : Memory) (k : Nat) (v : Byte) (h : m.wf = true) : (m.write k v).wf = true :=
  cellsWf_write m.cells none k v (fun _ hx => nomatch hx) h

/-- The bytes of a log, applied to a memory in canonical form, keep it. -/
theorem memory_apply_wf (m : Memory) (l : List Host.Cell) (h : m.wf = true) : (m.apply l).wf = true := by
  induction l with
  | nil => exact h
  | cons c t ih => exact memory_write_wf _ _ _ ih

/-- Every closed transaction leaves memory in canonical form. -/
@[simp] theorem commit_wf (w : Work) : w.commit.mem.wf = true := memory_apply_wf _ _ rfl

theorem cellsRead_low (l : List Host.Cell) (lo k : Nat) (h : cellsWf (some lo) l = true) (hk : k ≤ lo) :
    cellsRead l k = unwritten := by
  induction l generalizing lo with
  | nil => rfl
  | cons c t ih =>
    obtain ⟨j, b⟩ := c
    simp only [cellsWf, Bool.and_eq_true, decide_eq_true_eq] at h
    have hj : j ≠ k := by omega
    simp only [cellsRead, hj, if_false]
    exact ih j h.2 (by omega)

/-- What a read gives after a write, in a memory in canonical form. -/
theorem cellsRead_write (l : List Host.Cell) (lo : Option Nat) (k a : Nat) (v : Byte) (h : cellsWf lo l = true) :
    cellsRead (cellsWrite l k v) a = if a = k then v else cellsRead l a := by
  induction l generalizing lo with
  | nil =>
    by_cases hv : v = unwritten
    · simp [cellsWrite, hv, cellsRead]
    · by_cases ha : a = k
      · simp [cellsWrite, hv, cellsRead, ha]
      · have : k ≠ a := fun e => ha e.symm
        simp [cellsWrite, hv, cellsRead, ha, this]
  | cons c t ih =>
    obtain ⟨j, b⟩ := c
    have hfull := h
    simp only [cellsWf, Bool.and_eq_true, decide_eq_true_eq] at h
    obtain ⟨⟨hlo, hb⟩, ht⟩ := h
    unfold cellsWrite
    split
    · rename_i hjk
      subst hjk
      split
      · rename_i hv
        by_cases ha : a = j
        · subst ha; simp [hv, cellsRead_low t a a ht (Nat.le_refl _)]
        · have : j ≠ a := fun e => ha e.symm
          simp [cellsRead, ha, this]
      · by_cases ha : a = j
        · simp [cellsRead, ha]
        · have : j ≠ a := fun e => ha e.symm
          simp [cellsRead, ha, this]
    · split
      · rename_i hjk hkj
        split
        · rename_i hv
          by_cases ha : a = k
          · subst ha
            simp [cellsRead, hjk, hv, cellsRead_low t j a ht (by omega)]
          · simp [ha]
        · by_cases ha : a = k
          · subst ha; simp [cellsRead]
          · have : k ≠ a := fun e => ha e.symm
            simp [cellsRead, ha, this]
      · rename_i hjk hkj
        by_cases hja : j = a
        · subst hja; simp [cellsRead, hjk]
        · simp only [cellsRead, hja, if_false, ih (some j) ht]

theorem memory_read_write (m : Memory) (k a : Nat) (v : Byte) (h : m.wf = true) :
    (m.write k v).read a = if a = k then v else m.read a := cellsRead_write m.cells none k a v h

/-- A log applied to a memory in canonical form: its newest byte at a key, or the memory's. -/
theorem memory_read_apply (m : Memory) (l : List Host.Cell) (a : Nat) (h : m.wf = true) :
    (m.apply l).read a = (logFind l a).getD (m.read a) := by
  induction l with
  | nil => rfl
  | cons c t ih =>
    obtain ⟨k, v⟩ := c
    simp only [Memory.apply, logFind]
    rw [memory_read_write _ _ _ _ (memory_apply_wf m t h), ih]
    by_cases hk : a = k
    · simp [hk]
    · have : k ≠ a := fun e => hk e.symm
      simp [hk, this]

theorem logFind_append (l r : List Host.Cell) (a : Nat) : logFind (l ++ r) a = (logFind l a).or (logFind r a) := by
  induction l with
  | nil => rfl
  | cons c t ih =>
    obtain ⟨k, v⟩ := c
    simp only [List.cons_append, logFind]
    split <;> simp [ih]

theorem logFind_cells (l : List Host.Cell) (a : Nat) : (logFind l a).getD unwritten = cellsRead l a := by
  induction l with
  | nil => rfl
  | cons c t ih =>
    obtain ⟨k, v⟩ := c
    simp only [logFind, cellsRead]
    split <;> simp [ih]

/-- Every byte of a closed transaction is the byte the transaction read last. -/
theorem commit_read (w : Work) (a : Nat) : w.commit.mem.read a = w.byte a := by
  simp only [Work.commit, Work.byte]
  rw [memory_read_apply {} _ a rfl, logFind_append]
  cases h : logFind w.log a with
  | some b => simp
  | none =>
    simp only [Option.none_or, Memory.read, ← logFind_cells w.base.cells a]
    cases logFind w.base.cells a <;> rfl

/-- A transaction that wrote no byte leaves every byte. -/
theorem commit_read_begin (σ : State) (d : Dev) (a : Nat) :
    ({ Work.begin σ with dev := d } : Work).commit.mem.read a = σ.mem.read a := by
  rw [commit_read]; rfl

@[simp] theorem commit_dev (w : Work) : w.commit.dev = w.dev := rfl

theorem byte_setByte (w : Work) (k a : Nat) (v : Byte) : (w.setByte k v).byte a = if a = k then v else w.byte a := by
  simp only [Work.byte, Work.setByte, logFind]
  by_cases h : a = k
  · simp [h]
  · have : k ≠ a := fun e => h e.symm
    simp [h, this]

/-- Bytes outside those written keep their values. -/
theorem byte_writeN (w : Work) (k n v a : Nat) (h : a < k ∨ k + n ≤ a) : (w.writeN k n v).byte a = w.byte a := by
  induction n generalizing w k v with
  | zero => rfl
  | succ n ih =>
    simp only [Work.writeN]
    rw [ih _ _ _ (by omega), byte_setByte]
    have : a ≠ k := by omega
    simp [this]

end Sys2Proof.Laws
end

