-- ==== Sys2Proof/Laws/PerInstr.lean ====
section
/-! SUPPORT. Facts that hold of every instruction as syntax, one lemma for each constructor: a slot form is one word and an
event none (R264, R267). -/

namespace Sys2Proof.Laws.EncodeLength

open Sys2Proof

/-- An instruction has no word or one. -/
def Statement (i : Instr) : Prop := (encode i).length ≤ 1

theorem add (om : BitVec 2) (os : BitVec 7) (ts : BitVec 7) (wd : BitVec 6) (we : BitVec 1) : Statement (.add om os ts wd we) := Nat.le_refl 1
theorem sub (om : BitVec 2) (os : BitVec 7) (ts : BitVec 7) (wd : BitVec 6) (we : BitVec 1) : Statement (.sub om os ts wd we) := Nat.le_refl 1
theorem and (om : BitVec 2) (os : BitVec 7) (ts : BitVec 7) (wd : BitVec 6) (we : BitVec 1) : Statement (.and om os ts wd we) := Nat.le_refl 1
theorem or (om : BitVec 2) (os : BitVec 7) (ts : BitVec 7) (wd : BitVec 6) (we : BitVec 1) : Statement (.or om os ts wd we) := Nat.le_refl 1
theorem xor (om : BitVec 2) (os : BitVec 7) (ts : BitVec 7) (wd : BitVec 6) (we : BitVec 1) : Statement (.xor om os ts wd we) := Nat.le_refl 1
theorem andn (om : BitVec 2) (os : BitVec 7) (ts : BitVec 7) (wd : BitVec 6) (we : BitVec 1) : Statement (.andn om os ts wd we) := Nat.le_refl 1
theorem orn (om : BitVec 2) (os : BitVec 7) (ts : BitVec 7) (wd : BitVec 6) (we : BitVec 1) : Statement (.orn om os ts wd we) := Nat.le_refl 1
theorem shl (om : BitVec 2) (os : BitVec 7) (ts : BitVec 7) (wd : BitVec 6) (we : BitVec 1) : Statement (.shl om os ts wd we) := Nat.le_refl 1
theorem shr (om : BitVec 2) (os : BitVec 7) (ts : BitVec 7) (wd : BitVec 6) (we : BitVec 1) : Statement (.shr om os ts wd we) := Nat.le_refl 1
theorem sra (om : BitVec 2) (os : BitVec 7) (ts : BitVec 7) (wd : BitVec 6) (we : BitVec 1) : Statement (.sra om os ts wd we) := Nat.le_refl 1
theorem rotl (om : BitVec 2) (os : BitVec 7) (ts : BitVec 7) (wd : BitVec 6) (we : BitVec 1) : Statement (.rotl om os ts wd we) := Nat.le_refl 1
theorem min (om : BitVec 2) (os : BitVec 7) (ts : BitVec 7) (wd : BitVec 6) (we : BitVec 1) : Statement (.min om os ts wd we) := Nat.le_refl 1
theorem max (om : BitVec 2) (os : BitVec 7) (ts : BitVec 7) (wd : BitVec 6) (we : BitVec 1) : Statement (.max om os ts wd we) := Nat.le_refl 1
theorem minu (om : BitVec 2) (os : BitVec 7) (ts : BitVec 7) (wd : BitVec 6) (we : BitVec 1) : Statement (.minu om os ts wd we) := Nat.le_refl 1
theorem maxu (om : BitVec 2) (os : BitVec 7) (ts : BitVec 7) (wd : BitVec 6) (we : BitVec 1) : Statement (.maxu om os ts wd we) := Nat.le_refl 1
theorem seq (om : BitVec 2) (os : BitVec 7) (ts : BitVec 7) (wd : BitVec 3) (we : BitVec 1) : Statement (.seq om os ts wd we) := Nat.le_refl 1
theorem sne (om : BitVec 2) (os : BitVec 7) (ts : BitVec 7) (wd : BitVec 3) (we : BitVec 1) : Statement (.sne om os ts wd we) := Nat.le_refl 1
theorem slt (om : BitVec 2) (os : BitVec 7) (ts : BitVec 7) (wd : BitVec 3) (we : BitVec 1) : Statement (.slt om os ts wd we) := Nat.le_refl 1
theorem sltu (om : BitVec 2) (os : BitVec 7) (ts : BitVec 7) (wd : BitVec 3) (we : BitVec 1) : Statement (.sltu om os ts wd we) := Nat.le_refl 1
theorem sle (om : BitVec 2) (os : BitVec 7) (ts : BitVec 7) (wd : BitVec 3) (we : BitVec 1) : Statement (.sle om os ts wd we) := Nat.le_refl 1
theorem sleu (om : BitVec 2) (os : BitVec 7) (ts : BitVec 7) (wd : BitVec 3) (we : BitVec 1) : Statement (.sleu om os ts wd we) := Nat.le_refl 1
theorem pset (om : BitVec 2) (os : BitVec 7) (ts : BitVec 7) (wd : BitVec 3) (we : BitVec 1) : Statement (.pset om os ts wd we) := Nat.le_refl 1
theorem pand (b : BitVec 3) (a : BitVec 3) (wd : BitVec 3) (we : BitVec 1) : Statement (.pand b a wd we) := Nat.le_refl 1
theorem por (b : BitVec 3) (a : BitVec 3) (wd : BitVec 3) (we : BitVec 1) : Statement (.por b a wd we) := Nat.le_refl 1
theorem pxor (b : BitVec 3) (a : BitVec 3) (wd : BitVec 3) (we : BitVec 1) : Statement (.pxor b a wd we) := Nat.le_refl 1
theorem sel (om : BitVec 2) (os : BitVec 7) (ts : BitVec 7) (wd : BitVec 6) (we : BitVec 1) : Statement (.sel om os ts wd we) := Nat.le_refl 1
theorem clz (ts : BitVec 7) (wd : BitVec 6) (we : BitVec 1) : Statement (.clz ts wd we) := Nat.le_refl 1
theorem ctz (ts : BitVec 7) (wd : BitVec 6) (we : BitVec 1) : Statement (.ctz ts wd we) := Nat.le_refl 1
theorem popc (ts : BitVec 7) (wd : BitVec 6) (we : BitVec 1) : Statement (.popc ts wd we) := Nat.le_refl 1
theorem sext (ts : BitVec 7) (wd : BitVec 6) (we : BitVec 1) (q : BitVec 2) : Statement (.sext ts wd we q) := Nat.le_refl 1
theorem zext (ts : BitVec 7) (wd : BitVec 6) (we : BitVec 1) (q : BitVec 2) : Statement (.zext ts wd we q) := Nat.le_refl 1
theorem bext (om : BitVec 2) (os : BitVec 7) (ts : BitVec 7) (wd : BitVec 6) (we : BitVec 1) : Statement (.bext om os ts wd we) := Nat.le_refl 1
theorem bins (om : BitVec 2) (os : BitVec 7) (ts : BitVec 7) (wd : BitVec 6) : Statement (.bins om os ts wd) := Nat.le_refl 1
theorem lea (om : BitVec 2) (os : BitVec 7) (ts : BitVec 7) (wd : BitVec 6) (we : BitVec 1) (q : BitVec 2) : Statement (.lea om os ts wd we q) := Nat.le_refl 1
theorem wfield (om : BitVec 2) (os : BitVec 7) (ts : BitVec 7) (wd : BitVec 6) (we : BitVec 1) : Statement (.wfield om os ts wd we) := Nat.le_refl 1
theorem mul (om : BitVec 2) (os : BitVec 7) (ts : BitVec 7) (wd : BitVec 6) (we : BitVec 1) : Statement (.mul om os ts wd we) := Nat.le_refl 1
theorem mulh (om : BitVec 2) (os : BitVec 7) (ts : BitVec 7) (wd : BitVec 6) (we : BitVec 1) : Statement (.mulh om os ts wd we) := Nat.le_refl 1
theorem mulhu (om : BitVec 2) (os : BitVec 7) (ts : BitVec 7) (wd : BitVec 6) (we : BitVec 1) : Statement (.mulhu om os ts wd we) := Nat.le_refl 1
theorem div (om : BitVec 2) (os : BitVec 7) (ts : BitVec 7) (wd : BitVec 6) (we : BitVec 1) : Statement (.div om os ts wd we) := Nat.le_refl 1
theorem divu (om : BitVec 2) (os : BitVec 7) (ts : BitVec 7) (wd : BitVec 6) (we : BitVec 1) : Statement (.divu om os ts wd we) := Nat.le_refl 1
theorem rem (om : BitVec 2) (os : BitVec 7) (ts : BitVec 7) (wd : BitVec 6) (we : BitVec 1) : Statement (.rem om os ts wd we) := Nat.le_refl 1
theorem remu (om : BitVec 2) (os : BitVec 7) (ts : BitVec 7) (wd : BitVec 6) (we : BitVec 1) : Statement (.remu om os ts wd we) := Nat.le_refl 1
theorem ld (om : BitVec 2) (os : BitVec 7) (ts : BitVec 7) (wd : BitVec 6) (we : BitVec 1) (q : BitVec 2) : Statement (.ld om os ts wd we q) := Nat.le_refl 1
theorem ldu (om : BitVec 2) (os : BitVec 7) (ts : BitVec 7) (wd : BitVec 6) (we : BitVec 1) (q : BitVec 2) : Statement (.ldu om os ts wd we q) := Nat.le_refl 1
theorem st (om : BitVec 2) (os : BitVec 7) (ts : BitVec 7) (wd : BitVec 6) (q : BitVec 2) : Statement (.st om os ts wd q) := Nat.le_refl 1
theorem ldG (om : BitVec 2) (os : BitVec 7) (ts : BitVec 7) (wd : BitVec 6) (we : BitVec 1) (q : BitVec 2) : Statement (.ldG om os ts wd we q) := Nat.le_refl 1
theorem stG (om : BitVec 2) (os : BitVec 7) (ts : BitVec 7) (wd : BitVec 6) (q : BitVec 2) : Statement (.stG om os ts wd q) := Nat.le_refl 1
theorem ldE (om : BitVec 2) (os : BitVec 7) (ts : BitVec 7) (wd : BitVec 6) (we : BitVec 1) (q : BitVec 2) : Statement (.ldE om os ts wd we q) := Nat.le_refl 1
theorem stE (om : BitVec 2) (os : BitVec 7) (ts : BitVec 7) (wd : BitVec 6) (q : BitVec 2) : Statement (.stE om os ts wd q) := Nat.le_refl 1
theorem pref (om : BitVec 2) (os : BitVec 7) (ts : BitVec 7) : Statement (.pref om os ts) := Nat.le_refl 1
theorem amoAdd (om : BitVec 2) (os : BitVec 7) (ts : BitVec 7) (wd : BitVec 6) (we : BitVec 1) (q : BitVec 2) : Statement (.amoAdd om os ts wd we q) := Nat.le_refl 1
theorem amoAnd (om : BitVec 2) (os : BitVec 7) (ts : BitVec 7) (wd : BitVec 6) (we : BitVec 1) (q : BitVec 2) : Statement (.amoAnd om os ts wd we q) := Nat.le_refl 1
theorem amoOr (om : BitVec 2) (os : BitVec 7) (ts : BitVec 7) (wd : BitVec 6) (we : BitVec 1) (q : BitVec 2) : Statement (.amoOr om os ts wd we q) := Nat.le_refl 1
theorem amoXor (om : BitVec 2) (os : BitVec 7) (ts : BitVec 7) (wd : BitVec 6) (we : BitVec 1) (q : BitVec 2) : Statement (.amoXor om os ts wd we q) := Nat.le_refl 1
theorem amoMin (om : BitVec 2) (os : BitVec 7) (ts : BitVec 7) (wd : BitVec 6) (we : BitVec 1) (q : BitVec 2) : Statement (.amoMin om os ts wd we q) := Nat.le_refl 1
theorem amoMax (om : BitVec 2) (os : BitVec 7) (ts : BitVec 7) (wd : BitVec 6) (we : BitVec 1) (q : BitVec 2) : Statement (.amoMax om os ts wd we q) := Nat.le_refl 1
theorem amoMinu (om : BitVec 2) (os : BitVec 7) (ts : BitVec 7) (wd : BitVec 6) (we : BitVec 1) (q : BitVec 2) : Statement (.amoMinu om os ts wd we q) := Nat.le_refl 1
theorem amoMaxu (om : BitVec 2) (os : BitVec 7) (ts : BitVec 7) (wd : BitVec 6) (we : BitVec 1) (q : BitVec 2) : Statement (.amoMaxu om os ts wd we q) := Nat.le_refl 1
theorem amoSwap (om : BitVec 2) (os : BitVec 7) (ts : BitVec 7) (wd : BitVec 6) (we : BitVec 1) (q : BitVec 2) : Statement (.amoSwap om os ts wd we q) := Nat.le_refl 1
theorem amoCas (om : BitVec 2) (os : BitVec 7) (ts : BitVec 7) (wd : BitVec 6) (we : BitVec 1) (q : BitVec 2) : Statement (.amoCas om os ts wd we q) := Nat.le_refl 1
theorem amoFadd (om : BitVec 2) (os : BitVec 7) (ts : BitVec 7) (wd : BitVec 6) (we : BitVec 1) (q : BitVec 2) : Statement (.amoFadd om os ts wd we q) := Nat.le_refl 1
theorem qbind (om : BitVec 2) (os : BitVec 7) (ts : BitVec 7) (n : BitVec 3) : Statement (.qbind om os ts n) := Nat.le_refl 1
theorem enq (n : BitVec 3) (ts : BitVec 7) : Statement (.enq n ts) := Nat.le_refl 1
theorem enqS (n : BitVec 3) (ts : BitVec 7) : Statement (.enqS n ts) := Nat.le_refl 1
theorem enqT (n : BitVec 3) (ts : BitVec 7) (wd : BitVec 6) (we : BitVec 1) : Statement (.enqT n ts wd we) := Nat.le_refl 1
theorem deq (n : BitVec 3) (ts : BitVec 7) (wd : BitVec 6) (we : BitVec 1) : Statement (.deq n ts wd we) := Nat.le_refl 1
theorem deqS (n : BitVec 3) (wd : BitVec 6) (we : BitVec 1) : Statement (.deqS n wd we) := Nat.le_refl 1
theorem deqT (n : BitVec 3) (ts : BitVec 7) (wd : BitVec 6) (we : BitVec 1) : Statement (.deqT n ts wd we) := Nat.le_refl 1
theorem qpeek (n : BitVec 3) (ts : BitVec 7) (wd : BitVec 6) (we : BitVec 1) : Statement (.qpeek n ts wd we) := Nat.le_refl 1
theorem qstat (n : BitVec 3) (wd : BitVec 6) (we : BitVec 1) : Statement (.qstat n wd we) := Nat.le_refl 1
theorem qdrain (n : BitVec 3) : Statement (.qdrain n) := Nat.le_refl 1
theorem j (om : BitVec 2) (os : BitVec 7) : Statement (.j om os) := Nat.le_refl 1
theorem jr (ts : BitVec 7) : Statement (.jr ts) := Nat.le_refl 1
theorem call (om : BitVec 2) (os : BitVec 7) (wd : BitVec 6) (we : BitVec 1) : Statement (.call om os wd we) := Nat.le_refl 1
theorem callr (ts : BitVec 7) (wd : BitVec 6) (we : BitVec 1) : Statement (.callr ts wd we) := Nat.le_refl 1
theorem ret (ts : BitVec 7) : Statement (.ret ts) := Nat.le_refl 1
theorem br (om : BitVec 2) (os : BitVec 7) (ts : BitVec 7) (q : BitVec 2) : Statement (.br om os ts q) := Nat.le_refl 1
theorem loop (k : BitVec 4) : Statement (.loop k) := Nat.le_refl 1
theorem trap (om : BitVec 2) (os : BitVec 7) : Statement (.trap om os) := Nat.le_refl 1
theorem fenceInstruction (k : BitVec 3) (c : BitVec 3) : Statement (.fenceInstruction k c) := Nat.le_refl 1
theorem cleanR (om : BitVec 2) (os : BitVec 7) (ts : BitVec 7) : Statement (.cleanR om os ts) := Nat.le_refl 1
theorem invalR (om : BitVec 2) (os : BitVec 7) (ts : BitVec 7) : Statement (.invalR om os ts) := Nat.le_refl 1
theorem flushR (om : BitVec 2) (os : BitVec 7) (ts : BitVec 7) : Statement (.flushR om os ts) := Nat.le_refl 1
theorem publish (om : BitVec 2) (os : BitVec 7) (ts : BitVec 7) : Statement (.publish om os ts) := Nat.le_refl 1
theorem rdcw (om : BitVec 2) (os : BitVec 7) (wd : BitVec 6) (we : BitVec 1) : Statement (.rdcw om os wd we) := Nat.le_refl 1
theorem wrcw (om : BitVec 2) (os : BitVec 7) (ts : BitVec 7) : Statement (.wrcw om os ts) := Nat.le_refl 1
theorem nestSet (om : BitVec 2) (os : BitVec 7) (ts : BitVec 7) (k : BitVec 4) : Statement (.nestSet om os ts k) := Nat.le_refl 1
theorem nestDim (om : BitVec 2) (os : BitVec 7) (ts : BitVec 7) (k : BitVec 4) : Statement (.nestDim om os ts k) := Nat.le_refl 1
theorem nestBlk (om : BitVec 2) (os : BitVec 7) (ts : BitVec 7) (k : BitVec 4) : Statement (.nestBlk om os ts k) := Nat.le_refl 1
theorem bwInit (om : BitVec 2) (os : BitVec 7) (ts : BitVec 7) : Statement (.bwInit om os ts) := Nat.le_refl 1
theorem bwWait (om : BitVec 2) (os : BitVec 7) (ts : BitVec 7) (wd : BitVec 6) (we : BitVec 1) : Statement (.bwWait om os ts wd we) := Nat.le_refl 1
theorem ctxPark (om : BitVec 2) (os : BitVec 7) (ts : BitVec 7) : Statement (.ctxPark om os ts) := Nat.le_refl 1
theorem vadd (om : BitVec 2) (os : BitVec 7) (ts : BitVec 7) (wd : BitVec 5) (we : BitVec 1) (q : BitVec 2) : Statement (.vadd om os ts wd we q) := Nat.le_refl 1
theorem vsub (om : BitVec 2) (os : BitVec 7) (ts : BitVec 7) (wd : BitVec 5) (we : BitVec 1) (q : BitVec 2) : Statement (.vsub om os ts wd we q) := Nat.le_refl 1
theorem vmul (om : BitVec 2) (os : BitVec 7) (ts : BitVec 7) (wd : BitVec 5) (we : BitVec 1) (q : BitVec 2) : Statement (.vmul om os ts wd we q) := Nat.le_refl 1
theorem vfma (om : BitVec 2) (os : BitVec 7) (ts : BitVec 7) (wd : BitVec 5) (we : BitVec 1) (q : BitVec 2) : Statement (.vfma om os ts wd we q) := Nat.le_refl 1
theorem vfms (om : BitVec 2) (os : BitVec 7) (ts : BitVec 7) (wd : BitVec 5) (we : BitVec 1) (q : BitVec 2) : Statement (.vfms om os ts wd we q) := Nat.le_refl 1
theorem vfnma (om : BitVec 2) (os : BitVec 7) (ts : BitVec 7) (wd : BitVec 5) (we : BitVec 1) (q : BitVec 2) : Statement (.vfnma om os ts wd we q) := Nat.le_refl 1
theorem vmin (om : BitVec 2) (os : BitVec 7) (ts : BitVec 7) (wd : BitVec 5) (we : BitVec 1) (q : BitVec 2) : Statement (.vmin om os ts wd we q) := Nat.le_refl 1
theorem vmax (om : BitVec 2) (os : BitVec 7) (ts : BitVec 7) (wd : BitVec 5) (we : BitVec 1) (q : BitVec 2) : Statement (.vmax om os ts wd we q) := Nat.le_refl 1
theorem vabs (ts : BitVec 7) (wd : BitVec 5) (we : BitVec 1) (q : BitVec 2) : Statement (.vabs ts wd we q) := Nat.le_refl 1
theorem vneg (ts : BitVec 7) (wd : BitVec 5) (we : BitVec 1) (q : BitVec 2) : Statement (.vneg ts wd we q) := Nat.le_refl 1
theorem vsel (om : BitVec 2) (os : BitVec 7) (ts : BitVec 7) (wd : BitVec 5) (we : BitVec 1) (q : BitVec 2) : Statement (.vsel om os ts wd we q) := Nat.le_refl 1
theorem vround (om : BitVec 2) (os : BitVec 7) (ts : BitVec 7) (wd : BitVec 5) (we : BitVec 1) (q : BitVec 2) : Statement (.vround om os ts wd we q) := Nat.le_refl 1
theorem vscale (om : BitVec 2) (os : BitVec 7) (ts : BitVec 7) (wd : BitVec 5) (we : BitVec 1) (q : BitVec 2) : Statement (.vscale om os ts wd we q) := Nat.le_refl 1
theorem vcmpEq (om : BitVec 2) (os : BitVec 7) (ts : BitVec 7) (wd : BitVec 3) (we : BitVec 1) (q : BitVec 2) : Statement (.vcmpEq om os ts wd we q) := Nat.le_refl 1
theorem vcmpNe (om : BitVec 2) (os : BitVec 7) (ts : BitVec 7) (wd : BitVec 3) (we : BitVec 1) (q : BitVec 2) : Statement (.vcmpNe om os ts wd we q) := Nat.le_refl 1
theorem vcmpLt (om : BitVec 2) (os : BitVec 7) (ts : BitVec 7) (wd : BitVec 3) (we : BitVec 1) (q : BitVec 2) : Statement (.vcmpLt om os ts wd we q) := Nat.le_refl 1
theorem vcmpLe (om : BitVec 2) (os : BitVec 7) (ts : BitVec 7) (wd : BitVec 3) (we : BitVec 1) (q : BitVec 2) : Statement (.vcmpLe om os ts wd we q) := Nat.le_refl 1
theorem vaddI (om : BitVec 2) (os : BitVec 7) (ts : BitVec 7) (wd : BitVec 5) (we : BitVec 1) (q : BitVec 2) : Statement (.vaddI om os ts wd we q) := Nat.le_refl 1
theorem vsubI (om : BitVec 2) (os : BitVec 7) (ts : BitVec 7) (wd : BitVec 5) (we : BitVec 1) (q : BitVec 2) : Statement (.vsubI om os ts wd we q) := Nat.le_refl 1
theorem vmulI (om : BitVec 2) (os : BitVec 7) (ts : BitVec 7) (wd : BitVec 5) (we : BitVec 1) (q : BitVec 2) : Statement (.vmulI om os ts wd we q) := Nat.le_refl 1
theorem vmulhI (om : BitVec 2) (os : BitVec 7) (ts : BitVec 7) (wd : BitVec 5) (we : BitVec 1) (q : BitVec 2) : Statement (.vmulhI om os ts wd we q) := Nat.le_refl 1
theorem vand (om : BitVec 2) (os : BitVec 7) (ts : BitVec 7) (wd : BitVec 5) (we : BitVec 1) : Statement (.vand om os ts wd we) := Nat.le_refl 1
theorem vor (om : BitVec 2) (os : BitVec 7) (ts : BitVec 7) (wd : BitVec 5) (we : BitVec 1) : Statement (.vor om os ts wd we) := Nat.le_refl 1
theorem vxor (om : BitVec 2) (os : BitVec 7) (ts : BitVec 7) (wd : BitVec 5) (we : BitVec 1) : Statement (.vxor om os ts wd we) := Nat.le_refl 1
theorem vshl (om : BitVec 2) (os : BitVec 7) (ts : BitVec 7) (wd : BitVec 5) (we : BitVec 1) (q : BitVec 2) : Statement (.vshl om os ts wd we q) := Nat.le_refl 1
theorem vshr (om : BitVec 2) (os : BitVec 7) (ts : BitVec 7) (wd : BitVec 5) (we : BitVec 1) (q : BitVec 2) : Statement (.vshr om os ts wd we q) := Nat.le_refl 1
theorem vsra (om : BitVec 2) (os : BitVec 7) (ts : BitVec 7) (wd : BitVec 5) (we : BitVec 1) (q : BitVec 2) : Statement (.vsra om os ts wd we q) := Nat.le_refl 1
theorem vminI (om : BitVec 2) (os : BitVec 7) (ts : BitVec 7) (wd : BitVec 5) (we : BitVec 1) (q : BitVec 2) : Statement (.vminI om os ts wd we q) := Nat.le_refl 1
theorem vmaxI (om : BitVec 2) (os : BitVec 7) (ts : BitVec 7) (wd : BitVec 5) (we : BitVec 1) (q : BitVec 2) : Statement (.vmaxI om os ts wd we q) := Nat.le_refl 1
theorem vabsI (ts : BitVec 7) (wd : BitVec 5) (we : BitVec 1) (q : BitVec 2) : Statement (.vabsI ts wd we q) := Nat.le_refl 1
theorem vcvt (om : BitVec 2) (os : BitVec 7) (ts : BitVec 7) (wd : BitVec 5) (we : BitVec 1) : Statement (.vcvt om os ts wd we) := Nat.le_refl 1
theorem vrq (om : BitVec 2) (os : BitVec 7) (ts : BitVec 7) (wd : BitVec 5) (we : BitVec 1) : Statement (.vrq om os ts wd we) := Nat.le_refl 1
theorem vexp2 (ts : BitVec 7) (wd : BitVec 5) (we : BitVec 1) (q : BitVec 2) : Statement (.vexp2 ts wd we q) := Nat.le_refl 1
theorem vlog2 (ts : BitVec 7) (wd : BitVec 5) (we : BitVec 1) (q : BitVec 2) : Statement (.vlog2 ts wd we q) := Nat.le_refl 1
theorem vrcp (ts : BitVec 7) (wd : BitVec 5) (we : BitVec 1) (q : BitVec 2) : Statement (.vrcp ts wd we q) := Nat.le_refl 1
theorem vrsqrt (ts : BitVec 7) (wd : BitVec 5) (we : BitVec 1) (q : BitVec 2) : Statement (.vrsqrt ts wd we q) := Nat.le_refl 1
theorem vsigm (ts : BitVec 7) (wd : BitVec 5) (we : BitVec 1) (q : BitVec 2) : Statement (.vsigm ts wd we q) := Nat.le_refl 1
theorem vtanh (ts : BitVec 7) (wd : BitVec 5) (we : BitVec 1) (q : BitVec 2) : Statement (.vtanh ts wd we q) := Nat.le_refl 1
theorem vmov (ts : BitVec 7) (wd : BitVec 5) (we : BitVec 1) (q : BitVec 2) : Statement (.vmov ts wd we q) := Nat.le_refl 1
theorem vbc (om : BitVec 2) (os : BitVec 7) (ts : BitVec 7) (wd : BitVec 5) (we : BitVec 1) (q : BitVec 2) : Statement (.vbc om os ts wd we q) := Nat.le_refl 1
theorem vperm (om : BitVec 2) (os : BitVec 7) (ts : BitVec 7) (wd : BitVec 5) (we : BitVec 1) (q : BitVec 2) : Statement (.vperm om os ts wd we q) := Nat.le_refl 1
theorem vshuf (om : BitVec 2) (os : BitVec 7) (ts : BitVec 7) (wd : BitVec 5) (we : BitVec 1) (q : BitVec 2) : Statement (.vshuf om os ts wd we q) := Nat.le_refl 1
theorem vredAdd (ts : BitVec 7) (wd : BitVec 5) (we : BitVec 1) (q : BitVec 2) : Statement (.vredAdd ts wd we q) := Nat.le_refl 1
theorem vredMax (ts : BitVec 7) (wd : BitVec 5) (we : BitVec 1) (q : BitVec 2) : Statement (.vredMax ts wd we q) := Nat.le_refl 1
theorem vld (k : BitVec 4) (ts : BitVec 7) (wd : BitVec 5) (we : BitVec 1) : Statement (.vld k ts wd we) := Nat.le_refl 1
theorem vst (k : BitVec 4) (ts : BitVec 7) (wd : BitVec 5) : Statement (.vst k ts wd) := Nat.le_refl 1
theorem vaccRd (om : BitVec 2) (os : BitVec 7) (ts : BitVec 7) (wd : BitVec 5) (we : BitVec 1) : Statement (.vaccRd om os ts wd we) := Nat.le_refl 1
theorem vaccWr (om : BitVec 2) (os : BitVec 7) (ts : BitVec 7) (wd : BitVec 5) : Statement (.vaccWr om os ts wd) := Nat.le_refl 1
theorem vmrow (wd : BitVec 5) (we : BitVec 1) : Statement (.vmrow wd we) := Nat.le_refl 1
theorem vmand (b : BitVec 3) (a : BitVec 3) (wd : BitVec 3) (we : BitVec 1) : Statement (.vmand b a wd we) := Nat.le_refl 1
theorem vmor (b : BitVec 3) (a : BitVec 3) (wd : BitVec 3) (we : BitVec 1) : Statement (.vmor b a wd we) := Nat.le_refl 1
theorem vmnot (a : BitVec 3) (wd : BitVec 3) (we : BitVec 1) : Statement (.vmnot a wd we) := Nat.le_refl 1
theorem vmcnt (wd : BitVec 5) (we : BitVec 1) : Statement (.vmcnt wd we) := Nat.le_refl 1
theorem mwld (ts : BitVec 7) (b : BitVec 1) (k : BitVec 4) : Statement (.mwld ts b k) := Nat.le_refl 1
theorem mwldB (ts : BitVec 7) (b : BitVec 1) (k : BitVec 4) : Statement (.mwldB ts b k) := Nat.le_refl 1
theorem mswap (x : BitVec 2) : Statement (.mswap x) := Nat.le_refl 1
theorem mrun (ts : BitVec 7) (f : BitVec 2) (a : BitVec 1) (w : BitVec 2) (p : BitVec 4) : Statement (.mrun ts f a w p) := Nat.le_refl 1
theorem mrunF (ts : BitVec 7) (f : BitVec 2) (a : BitVec 1) (w : BitVec 2) (p : BitVec 4) : Statement (.mrunF ts f a w p) := Nat.le_refl 1
theorem mzero (u : BitVec 8) : Statement (.mzero u) := Nat.le_refl 1
theorem mcal (b : BitVec 1) : Statement (.mcal b) := Nat.le_refl 1
theorem mclip (ts : BitVec 7) : Statement (.mclip ts) := Nat.le_refl 1
theorem mmode (g : BitVec 1) : Statement (.mmode g) := Nat.le_refl 1
theorem mbound (ts : BitVec 7) : Statement (.mbound ts) := Nat.le_refl 1
theorem mboundSet (om : BitVec 2) (os : BitVec 7) (ts : BitVec 7) : Statement (.mboundSet om os ts) := Nat.le_refl 1
theorem cp (om : BitVec 2) (os : BitVec 7) (ts : BitVec 7) (y : BitVec 4) (z : BitVec 4) : Statement (.cp om os ts y z) := Nat.le_refl 1
theorem cpSh (om : BitVec 2) (os : BitVec 7) (ts : BitVec 7) (y : BitVec 4) (z : BitVec 4) : Statement (.cpSh om os ts y z) := Nat.le_refl 1
theorem cpRed (om : BitVec 2) (os : BitVec 7) (ts : BitVec 7) (y : BitVec 4) (z : BitVec 4) : Statement (.cpRed om os ts y z) := Nat.le_refl 1
theorem cpG (om : BitVec 2) (os : BitVec 7) (ts : BitVec 7) (y : BitVec 4) (z : BitVec 4) : Statement (.cpG om os ts y z) := Nat.le_refl 1
theorem cpS (om : BitVec 2) (os : BitVec 7) (ts : BitVec 7) (y : BitVec 4) (z : BitVec 4) : Statement (.cpS om os ts y z) := Nat.le_refl 1
theorem bk (om : BitVec 2) (os : BitVec 7) (ts : BitVec 7) (y : BitVec 4) (z : BitVec 4) : Statement (.bk om os ts y z) := Nat.le_refl 1
theorem bkRed (om : BitVec 2) (os : BitVec 7) (ts : BitVec 7) (y : BitVec 4) (z : BitVec 4) : Statement (.bkRed om os ts y z) := Nat.le_refl 1
theorem cpQ (ts : BitVec 7) (n : BitVec 3) : Statement (.cpQ ts n) := Nat.le_refl 1
theorem cpFence (b : BitVec 1) : Statement (.cpFence b) := Nat.le_refl 1
theorem cpStat (ts : BitVec 7) : Statement (.cpStat ts) := Nat.le_refl 1
theorem cpQuiesce (ts : BitVec 7) : Statement (.cpQuiesce ts) := Nat.le_refl 1
theorem cpAbort (ts : BitVec 7) : Statement (.cpAbort ts) := Nat.le_refl 1
theorem cpPub (om : BitVec 2) (os : BitVec 7) (ts : BitVec 7) : Statement (.cpPub om os ts) := Nat.le_refl 1
theorem powerEstimate (draw : Nat) : Statement (.powerEstimate draw) := Nat.zero_le 1
theorem operatingPointChangeDone (island : Nat) : Statement (.operatingPointChangeDone island) := Nat.zero_le 1
theorem sensorSample (readings : List Int) : Statement (.sensorSample readings) := Nat.zero_le 1
theorem verticalBusRetrainDone (col : Nat) : Statement (.verticalBusRetrainDone col) := Nat.zero_le 1
theorem invalAckTimeout (seq : Nat) : Statement (.invalAckTimeout seq) := Nat.zero_le 1
theorem preemptDeadline (seq : Nat) : Statement (.preemptDeadline seq) := Nat.zero_le 1
theorem snoopTimeout (line : Nat) : Statement (.snoopTimeout line) := Nat.zero_le 1
theorem bindAckTimeout (seq : Nat) : Statement (.bindAckTimeout seq) := Nat.zero_le 1
theorem scrubComplete (part : Nat) : Statement (.scrubComplete part) := Nat.zero_le 1
theorem debugHoldTakesEffect (core : Nat) (bank : Nat) : Statement (.debugHoldTakesEffect core bank) := Nat.zero_le 1
theorem packetFetch (q : Nat) : Statement (.packetFetch q) := Nat.zero_le 1
theorem fetchRetry (q : Nat) : Statement (.fetchRetry q) := Nat.zero_le 1
theorem stalledProducerTimeout (q : Nat) : Statement (.stalledProducerTimeout q) := Nat.zero_le 1
theorem launch (q : Nat) : Statement (.launch q) := Nat.zero_le 1
theorem launchInd (q : Nat) : Statement (.launchInd q) := Nat.zero_le 1
theorem wait (q : Nat) : Statement (.wait q) := Nat.zero_le 1
theorem waitRecheck (q : Nat) : Statement (.waitRecheck q) := Nat.zero_le 1
theorem waitLimit (q : Nat) : Statement (.waitLimit q) := Nat.zero_le 1
theorem signal (q : Nat) : Statement (.signal q) := Nat.zero_le 1
theorem loopBegin (q : Nat) : Statement (.loopBegin q) := Nat.zero_le 1
theorem loopEnd (q : Nat) : Statement (.loopEnd q) := Nat.zero_le 1
theorem cond (q : Nat) : Statement (.cond q) := Nat.zero_le 1
theorem copy (q : Nat) : Statement (.copy q) := Nat.zero_le 1
theorem fence (q : Nat) : Statement (.fence q) := Nat.zero_le 1
theorem graphRun (q : Nat) : Statement (.graphRun q) := Nat.zero_le 1
theorem graphNodeComplete (g : Nat) (node : Nat) (code : Nat) : Statement (.graphNodeComplete g node code) := Nat.zero_le 1
theorem calibrate (q : Nat) : Statement (.calibrate q) := Nat.zero_le 1
theorem biasFlip (q : Nat) : Statement (.biasFlip q) := Nat.zero_le 1
theorem granuleFlipDone (gran : Nat) : Statement (.granuleFlipDone gran) := Nat.zero_le 1
theorem summary (q : Nat) : Statement (.summary q) := Nat.zero_le 1
theorem qclear (q : Nat) : Statement (.qclear q) := Nat.zero_le 1
theorem launchAdmission (ix : Nat) : Statement (.launchAdmission ix) := Nat.zero_le 1
theorem policyWatchdog (die : Nat) : Statement (.policyWatchdog die) := Nat.zero_le 1
theorem delegateRestartDone (die : Nat) : Statement (.delegateRestartDone die) := Nat.zero_le 1
theorem copyServiceComplete (id : Nat) : Statement (.copyServiceComplete id) := Nat.zero_le 1
theorem eventRecordPlaced (part : Nat) : Statement (.eventRecordPlaced part) := Nat.zero_le 1
theorem queueOpAtHome (core : Nat) (bank : Nat) : Statement (.queueOpAtHome core bank) := Nat.zero_le 1
theorem qwaitLimit (core : Nat) (bank : Nat) : Statement (.qwaitLimit core bank) := Nat.zero_le 1
theorem dispatch (die : Nat) : Statement (.dispatch die) := Nat.zero_le 1
theorem stealRequest (ix : Nat) (die : Nat) : Statement (.stealRequest ix die) := Nat.zero_le 1
theorem tideBarrierRelease (ix : Nat) : Statement (.tideBarrierRelease ix) := Nat.zero_le 1
theorem ebbEnd (ix : Nat) : Statement (.ebbEnd ix) := Nat.zero_le 1
theorem auditReplay (ix : Nat) (ok : Bool) : Statement (.auditReplay ix ok) := Nat.zero_le 1
theorem dependenceTest (ix : Nat) : Statement (.dependenceTest ix) := Nat.zero_le 1
theorem extentTranslationRetry (ix : Nat) (task : Nat) : Statement (.extentTranslationRetry ix task) := Nat.zero_le 1
theorem extentTranslationTimeout (ix : Nat) (task : Nat) : Statement (.extentTranslationTimeout ix task) := Nat.zero_le 1
theorem preemption (core : Nat) (bank : Nat) : Statement (.preemption core bank) := Nat.zero_le 1
theorem drainDistanceLimit (core : Nat) (bank : Nat) : Statement (.drainDistanceLimit core bank) := Nat.zero_le 1
theorem taskResume (die : Nat) (ix : Nat) : Statement (.taskResume die ix) := Nat.zero_le 1
theorem quarantineTimeLimit (ix : Nat) : Statement (.quarantineTimeLimit ix) := Nat.zero_le 1
theorem barrierRelease (core : Nat) (bank : Nat) : Statement (.barrierRelease core bank) := Nat.zero_le 1
theorem barrierTimeLimit (core : Nat) (bank : Nat) : Statement (.barrierTimeLimit core bank) := Nat.zero_le 1
theorem freezeLimit (core : Nat) (bank : Nat) : Statement (.freezeLimit core bank) := Nat.zero_le 1
theorem landing (core : Nat) (bank : Nat) : Statement (.landing core bank) := Nat.zero_le 1
theorem passTriggerRelease (core : Nat) : Statement (.passTriggerRelease core) := Nat.zero_le 1
theorem passComplete (core : Nat) : Statement (.passComplete core) := Nat.zero_le 1
theorem weightLoadComplete (core : Nat) : Statement (.weightLoadComplete core) := Nat.zero_le 1
theorem calibrationComplete (core : Nat) : Statement (.calibrationComplete core) := Nat.zero_le 1
theorem copyCommandComplete (core : Nat) (eng : Nat) (id : Nat) : Statement (.copyCommandComplete core eng id) := Nat.zero_le 1
theorem trapEntry (core : Nat) (bank : Nat) : Statement (.trapEntry core bank) := Nat.zero_le 1
theorem ctxParkLimit (core : Nat) (bank : Nat) : Statement (.ctxParkLimit core bank) := Nat.zero_le 1
theorem ctxParkWake (core : Nat) (bank : Nat) : Statement (.ctxParkWake core bank) := Nat.zero_le 1
theorem translationParkLimit (core : Nat) (bank : Nat) : Statement (.translationParkLimit core bank) := Nat.zero_le 1
theorem calibrationStaleTimer (core : Nat) (wbank : Nat) : Statement (.calibrationStaleTimer core wbank) := Nat.zero_le 1
theorem pageTableLineWrite (line : Nat) : Statement (.pageTableLineWrite line) := Nat.zero_le 1
theorem publishPerformed (core : Nat) (bank : Nat) : Statement (.publishPerformed core bank) := Nat.zero_le 1
theorem swapChunkDone (die : Nat) : Statement (.swapChunkDone die) := Nat.zero_le 1
theorem layerPoweredOn (col : Nat) : Statement (.layerPoweredOn col) := Nat.zero_le 1
theorem deviceReset : Statement (.deviceReset) := Nat.zero_le 1
theorem socketLinkReset : Statement (.socketLinkReset) := Nat.zero_le 1
theorem helloTimeout : Statement (.helloTimeout) := Nat.zero_le 1
theorem preempt : Statement (.preempt) := Nat.zero_le 1
theorem resume : Statement (.resume) := Nat.zero_le 1
theorem unbind : Statement (.unbind) := Nat.zero_le 1
theorem spdmResponseTimeout : Statement (.spdmResponseTimeout) := Nat.zero_le 1
theorem readSummaryIntoWindow : Statement (.readSummaryIntoWindow) := Nat.zero_le 1
theorem storeFirmwareImage : Statement (.storeFirmwareImage) := Nat.zero_le 1
theorem storeConfigurationRecord : Statement (.storeConfigurationRecord) := Nat.zero_le 1
theorem resetDevice : Statement (.resetDevice) := Nat.zero_le 1
theorem appendStaging : Statement (.appendStaging) := Nat.zero_le 1
theorem emptyStagingBuffer : Statement (.emptyStagingBuffer) := Nat.zero_le 1
theorem recoveryStoreDone : Statement (.recoveryStoreDone) := Nat.zero_le 1
theorem quarantineLaunchStart : Statement (.quarantineLaunchStart) := Nat.zero_le 1
theorem ltsFloorRaise : Statement (.ltsFloorRaise) := Nat.zero_le 1
theorem lexit : Statement (.lexit) := Nat.le_refl 1
theorem taskNext : Statement (.taskNext) := Nat.le_refl 1
theorem taskDone : Statement (.taskDone) := Nat.le_refl 1
theorem tide : Statement (.tide) := Nat.le_refl 1
theorem yield : Statement (.yield) := Nat.le_refl 1
theorem eret : Statement (.eret) := Nat.le_refl 1
theorem fenceE : Statement (.fenceE) := Nat.le_refl 1
theorem halt : Statement (.halt) := Nat.le_refl 1
theorem mstat : Statement (.mstat) := Nat.le_refl 1
theorem setEnvelope (watts : Nat) : Statement (.setEnvelope watts) := Nat.zero_le 1
theorem laneFailure (col : Nat) (group : Nat) : Statement (.laneFailure col group) := Nat.zero_le 1
theorem laneBundleFailure (bnd : Nat) : Statement (.laneBundleFailure bnd) := Nat.zero_le 1
theorem peerFlitCrcFail (port : Nat) : Statement (.peerFlitCrcFail port) := Nat.zero_le 1
theorem peerPortDown (port : Nat) : Statement (.peerPortDown port) := Nat.zero_le 1
theorem peerPortUp (port : Nat) : Statement (.peerPortUp port) := Nat.zero_le 1
theorem peerRequest (port : Nat) (req : MemReq) : Statement (.peerRequest port req) := Nat.zero_le 1
theorem gsCtlEn (on : Bool) : Statement (.gsCtlEn on) := Nat.zero_le 1
theorem gsStatDvClear (wr : Nat) : Statement (.gsStatDvClear wr) := Nat.zero_le 1
theorem partnerDetect (present : Bool) : Statement (.partnerDetect present) := Nat.zero_le 1
theorem moduleTrained (mods : Nat) (rate : Nat) : Statement (.moduleTrained mods rate) := Nat.zero_le 1
theorem moduleTrainingFail (mods : Nat) : Statement (.moduleTrainingFail mods) := Nat.zero_le 1
theorem moduleReplayLimit (mods : Nat) : Statement (.moduleReplayLimit mods) := Nat.zero_le 1
theorem guestSpdmComplete (ok : Bool) (meas : List Nat) : Statement (.guestSpdmComplete ok meas) := Nat.zero_le 1
theorem hello (pkt : Nat) : Statement (.hello pkt) := Nat.zero_le 1
theorem ack (pkt : Nat) : Statement (.ack pkt) := Nat.zero_le 1
theorem fault (pkt : Nat) : Statement (.fault pkt) := Nat.zero_le 1
theorem bind (part : Nat) : Statement (.bind part) := Nat.zero_le 1
theorem guestCxlCacheRequest (req : MemReq) : Statement (.guestCxlCacheRequest req) := Nat.zero_le 1
theorem guestSnoopResponse (line : Nat) (data : Nat) : Statement (.guestSnoopResponse line data) := Nat.zero_le 1
theorem guestTranslationRequest (va : Nat) (acc : Nat) : Statement (.guestTranslationRequest va acc) := Nat.zero_le 1
theorem guestQueueClaim (q : Nat) (elem : Nat) : Statement (.guestQueueClaim q elem) := Nat.zero_le 1
theorem partitionEntryWrite (part : Nat) (field : Nat) (val : Nat) : Statement (.partitionEntryWrite part field val) := Nat.zero_le 1
theorem partitionEnable (part : Nat) : Statement (.partitionEnable part) := Nat.zero_le 1
theorem partitionDelete (part : Nat) : Statement (.partitionDelete part) := Nat.zero_le 1
theorem lockInterface (fn : Nat) : Statement (.lockInterface fn) := Nat.zero_le 1
theorem startInterface (fn : Nat) : Statement (.startInterface fn) := Nat.zero_le 1
theorem stopInterface (fn : Nat) : Statement (.stopInterface fn) := Nat.zero_le 1
theorem functionLevelReset (fn : Nat) : Statement (.functionLevelReset fn) := Nat.zero_le 1
theorem ideStreamFailure (fn : Nat) : Statement (.ideStreamFailure fn) := Nat.zero_le 1
theorem keyTableUncorrectable (slot : Nat) : Statement (.keyTableUncorrectable slot) := Nat.zero_le 1
theorem tenantKeyDelivery (part : Nat) (key : Nat) : Statement (.tenantKeyDelivery part key) := Nat.zero_le 1
theorem getVersion (fn : Nat) : Statement (.getVersion fn) := Nat.zero_le 1
theorem getCapabilities (fn : Nat) : Statement (.getCapabilities fn) := Nat.zero_le 1
theorem negotiateAlgorithms (fn : Nat) : Statement (.negotiateAlgorithms fn) := Nat.zero_le 1
theorem getDigests (fn : Nat) : Statement (.getDigests fn) := Nat.zero_le 1
theorem getCertificate (fn : Nat) : Statement (.getCertificate fn) := Nat.zero_le 1
theorem challenge (fn : Nat) : Statement (.challenge fn) := Nat.zero_le 1
theorem getMeasurements (fn : Nat) (block : Nat) : Statement (.getMeasurements fn block) := Nat.zero_le 1
theorem keyExchange (fn : Nat) : Statement (.keyExchange fn) := Nat.zero_le 1
theorem finish (fn : Nat) (ok : Bool) : Statement (.finish fn ok) := Nat.zero_le 1
theorem endSession (fn : Nat) : Statement (.endSession fn) := Nat.zero_le 1
theorem debugPolicy (part : Nat) (rec : Nat) : Statement (.debugPolicy part rec) := Nat.zero_le 1
theorem haltRequest (fn : Nat) : Statement (.haltRequest fn) := Nat.zero_le 1
theorem haltRelease (fn : Nat) : Statement (.haltRelease fn) := Nat.zero_le 1
theorem hostCxlMemRequest (req : MemReq) : Statement (.hostCxlMemRequest req) := Nat.zero_le 1
theorem registerWrite (fn : Nat) (off : Nat) (val : Nat) : Statement (.registerWrite fn off val) := Nat.zero_le 1
theorem enqAperture (fn : Nat) (win : Nat) (elem : Nat) (len : Nat) : Statement (.enqAperture fn win elem len) := Nat.zero_le 1
theorem claim (fn : Nat) (win : Nat) : Statement (.claim fn win) := Nat.zero_le 1
theorem release (fn : Nat) (win : Nat) (n : Nat) : Statement (.release fn win n) := Nat.zero_le 1
theorem queueWindowBind (fn : Nat) (win : Nat) (handle : Nat) : Statement (.queueWindowBind fn win handle) := Nat.zero_le 1
theorem peerQueueClaim (port : Nat) (cb : Nat) (elem : Nat) : Statement (.peerQueueClaim port cb elem) := Nat.zero_le 1
theorem swapExchange (die : Nat) (f1 : Nat) (f2 : Nat) (size : Nat) : Statement (.swapExchange die f1 f2 size) := Nat.zero_le 1
theorem swapRelease (die : Nat) : Statement (.swapRelease die) := Nat.zero_le 1
theorem rowRemap (col : Nat) (row : Nat) : Statement (.rowRemap col row) := Nat.zero_le 1
theorem layerPowerOn (col : Nat) : Statement (.layerPowerOn col) := Nat.zero_le 1
theorem layerPowerDown (col : Nat) : Statement (.layerPowerDown col) := Nat.zero_le 1

end Sys2Proof.Laws.EncodeLength
end

