-- ==== Sys2Proof/Laws/State.lean ====
section
/-! SUPPORT. Reading a table after an update, and what the updates of a transaction leave: one lemma for each part and
update, so that no proof unfolds a record. -/

namespace Sys2Proof.Laws

open Sys2Proof Sys2Proof.Machine Sys2Proof.Safety

-- Tables

@[simp] theorem tab_get?_set_same {α : Type} (t : Tab α) (k : Nat) (a : α) : (t.set k a).get? k = some a := by
  induction t with
  | nil => simp [Tab.set, Tab.get?]
  | cons c u ih =>
    obtain ⟨j, b⟩ := c
    by_cases h : j = k <;> simp [Tab.set, Tab.get?, h, ih]

theorem tab_get?_set_other {α : Type} (t : Tab α) (k l : Nat) (a : α) (h : l ≠ k) : (t.set k a).get? l = t.get? l := by
  have hk : k ≠ l := fun e => h e.symm
  induction t with
  | nil => simp [Tab.set, Tab.get?, hk]
  | cons c u ih =>
    obtain ⟨j, b⟩ := c
    by_cases hj : j = k
    · subst hj; simp [Tab.set, Tab.get?, hk]
    · by_cases hl : j = l
      · subst hl; simp [Tab.set, Tab.get?, hj]
      · simp [Tab.set, Tab.get?, hj, hl, ih]

@[simp] theorem tab_get_set_same {α : Type} (t : Tab α) (k : Nat) (a d : α) : (t.set k a).get k d = a := by
  simp [Tab.get]

theorem tab_get_set_other {α : Type} (t : Tab α) (k l : Nat) (a d : α) (h : l ≠ k) :
    (t.set k a).get l d = t.get l d := by
  simp [Tab.get, tab_get?_set_other t k l a h]

@[simp] theorem tab_set_set {α : Type} (t : Tab α) (k : Nat) (a b : α) : (t.set k a).set k b = t.set k b := by
  induction t with
  | nil => simp [Tab.set]
  | cons c u ih =>
    obtain ⟨j, x⟩ := c
    by_cases h : j = k <;> simp [Tab.set, h, ih]

-- A transaction's parts

@[simp] theorem begin_dev (σ : State) : (Work.begin σ).dev = σ.dev := rfl
@[simp] theorem begin_base (σ : State) : (Work.begin σ).base = σ.mem := rfl
@[simp] theorem begin_log (σ : State) : (Work.begin σ).log = [] := rfl
@[simp] theorem mapDev_dev (w : Work) (f : Dev → Dev) : (w.mapDev f).dev = f w.dev := rfl
@[simp] theorem mapDev_base (w : Work) (f : Dev → Dev) : (w.mapDev f).base = w.base := rfl
@[simp] theorem mapDev_log (w : Work) (f : Dev → Dev) : (w.mapDev f).log = w.log := rfl
@[simp] theorem setByte_dev (w : Work) (k : Nat) (v : Byte) : (w.setByte k v).dev = w.dev := rfl
@[simp] theorem setByte_base (w : Work) (k : Nat) (v : Byte) : (w.setByte k v).base = w.base := rfl
@[simp] theorem updCtx_base (w : Work) (core bank : Nat) (f : Ctx → Ctx) : (w.updCtx core bank f).base = w.base := rfl
@[simp] theorem updCtx_log (w : Work) (core bank : Nat) (f : Ctx → Ctx) : (w.updCtx core bank f).log = w.log := rfl
@[simp] theorem updCtx_issue (w : Work) (core bank : Nat) (f : Ctx → Ctx) :
    (w.updCtx core bank f).dev.issue = w.dev.issue := rfl
@[simp] theorem updCtx_cores (w : Work) (core bank : Nat) (f : Ctx → Ctx) :
    (w.updCtx core bank f).dev.cores = w.dev.cores := rfl
@[simp] theorem updCtx_ctxs (w : Work) (core bank : Nat) (f : Ctx → Ctx) :
    (w.updCtx core bank f).dev.ctxs = w.dev.ctxs.set (2 * core + bank) (f (w.dev.ctx core bank)) := rfl
@[simp] theorem updCore_base (w : Work) (c : Nat) (f : Core → Core) : (w.updCore c f).base = w.base := rfl
@[simp] theorem updCore_log (w : Work) (c : Nat) (f : Core → Core) : (w.updCore c f).log = w.log := rfl
@[simp] theorem updCore_issue (w : Work) (c : Nat) (f : Core → Core) : (w.updCore c f).dev.issue = w.dev.issue := rfl
@[simp] theorem updCore_ctxs (w : Work) (c : Nat) (f : Core → Core) : (w.updCore c f).dev.ctxs = w.dev.ctxs := rfl
@[simp] theorem updCore_cores (w : Work) (c : Nat) (f : Core → Core) :
    (w.updCore c f).dev.cores = w.dev.cores.set c (f (w.dev.core c)) := rfl
@[simp] theorem updCoh_base (w : Work) (f : Coherence → Coherence) : (w.updCoh f).base = w.base := rfl
@[simp] theorem updCoh_log (w : Work) (f : Coherence → Coherence) : (w.updCoh f).log = w.log := rfl
@[simp] theorem updCoh_coh (w : Work) (f : Coherence → Coherence) : (w.updCoh f).dev.coh = f w.dev.coh := rfl
@[simp] theorem updCoh_ctxs (w : Work) (f : Coherence → Coherence) : (w.updCoh f).dev.ctxs = w.dev.ctxs := rfl
@[simp] theorem free_value (w : Work) : w.free.1 = Config.freeValue w.dev.fresh := rfl
@[simp] theorem free_base (w : Work) : w.free.2.base = w.base := rfl
@[simp] theorem free_log (w : Work) : w.free.2.log = w.log := rfl
@[simp] theorem free_fresh (w : Work) : w.free.2.dev.fresh = w.dev.fresh + 1 := rfl

@[simp] theorem ctx_updCtx_same (w : Work) (core bank : Nat) (f : Ctx → Ctx) :
    (w.updCtx core bank f).dev.ctx core bank = f (w.dev.ctx core bank) := by
  simp [Dev.ctx]

theorem ctx_updCtx_other (w : Work) (core bank i b : Nat) (f : Ctx → Ctx) (h : 2 * i + b ≠ 2 * core + bank) :
    (w.updCtx core bank f).dev.ctx i b = w.dev.ctx i b := by
  simp [Dev.ctx, tab_get_set_other _ _ _ _ _ h]

@[simp] theorem core_updCore_same (w : Work) (c : Nat) (f : Core → Core) :
    (w.updCore c f).dev.core c = f (w.dev.core c) := by
  simp [Dev.core]

/-- Two changes of one context are one change. -/
@[simp] theorem updCtx_updCtx (w : Work) (core bank : Nat) (f g : Ctx → Ctx) :
    (w.updCtx core bank f).updCtx core bank g = w.updCtx core bank fun c => g (f c) := by
  simp [Work.updCtx, Dev.ctx]

-- The issuing context

@[simp] theorem begin_me (σ : State) : (Work.begin σ).me = me σ := rfl
@[simp] theorem begin_myCore (σ : State) : (Work.begin σ).myCore = myCore σ := rfl
@[simp] theorem updMe_base (w : Work) (f : Ctx → Ctx) : (w.updMe f).base = w.base := rfl
@[simp] theorem updMe_log (w : Work) (f : Ctx → Ctx) : (w.updMe f).log = w.log := rfl
@[simp] theorem updMe_issue (w : Work) (f : Ctx → Ctx) : (w.updMe f).dev.issue = w.dev.issue := rfl
@[simp] theorem updMe_myCore (w : Work) (f : Ctx → Ctx) : (w.updMe f).myCore = w.myCore := rfl
@[simp] theorem updMe_me (w : Work) (f : Ctx → Ctx) : (w.updMe f).me = f w.me := by
  simp [Work.updMe, Work.me]
@[simp] theorem updMe_updMe (w : Work) (f g : Ctx → Ctx) : (w.updMe f).updMe g = w.updMe fun c => g (f c) := by
  simp [Work.updMe]

/-- A change of the issuing context, closed. -/
theorem updMe_commit (σ : State) (f : Ctx → Ctx) : ((Work.begin σ).updMe f).commit = withMe σ (f (me σ)) :=
  congrArg Work.commit rfl

/-- A port load, closed with a result in flight: the shape of every fixed-latency form. -/
theorem launch_commit (σ : State) (unit lat : Nat) (b : Word) (e : Effect) :
    (((Work.begin σ).setPort unit b).launchAt lat e).commit =
      withMe σ (inFlight σ lat e (loaded unit b (me σ))) := by
  simp only [Work.launchAt, Work.setPort, updMe_updMe]
  exact congrArg Work.commit rfl

/-- A result in flight with no port load, closed. -/
theorem launch_only_commit (σ : State) (lat : Nat) (e : Effect) :
    ((Work.begin σ).launchAt lat e).commit = withMe σ (inFlight σ lat e (me σ)) := congrArg Work.commit rfl

/-- A vector port load, closed with a result in flight. -/
theorem vlaunch_commit (σ : State) (lat : Nat) (b : Vec) (e : Effect) :
    (((Work.begin σ).setVPort b).launchAt lat e).commit =
      withMe σ (inFlight σ lat e (vloaded σ b (me σ))) := by
  simp only [Work.launchAt, Work.setVPort, updMe_updMe]
  simp only [Work.isV1, decide_eq_true_eq]
  exact congrArg Work.commit rfl

@[simp] theorem begin_commit (σ : State) : (Work.begin σ).commit = same σ := rfl
@[simp] theorem withDev_dev (σ : State) (d : Dev) : (withDev σ d).dev = d := rfl
@[simp] theorem withMe_me (σ : State) (c : Ctx) : me (withMe σ c) = c := by simp [me, withMe, key, Dev.ctx]

/-- Replacing what is no byte changes no byte. -/
theorem withDev_bytes (σ : State) (d : Dev) : SameBytes σ (withDev σ d) := fun a => commit_read_begin σ d a

/-- What a slot form does whose plan succeeds (R226). -/
theorem slotRun_ok {p : Work → Plan} {σ : State} {w : Work} (h : Takes σ) (hp : p (Work.begin σ) = .ok w) :
    slotRun p σ = w.commit := by
  simp [slotRun, hp, show σ.dev.issue.probe = false from h]

/-- What a slot form does whose plan raises a cause. -/
theorem slotRun_trap {p : Work → Plan} {σ : State} {cause : Nat} {v : Option Nat} (h : Takes σ)
    (hp : p (Work.begin σ) = .error (.trap cause v)) : slotRun p σ = ((Work.begin σ).trapNow cause v).commit := by
  simp [slotRun, hp, show σ.dev.issue.probe = false from h]

/-- A form that is held changes nothing but the verdict of its check. -/
theorem slotRun_hold {p : Work → Plan} {σ : State} {why : FreezeWhy} (hp : p (Work.begin σ) = .error (.hold why)) :
    slotRun p σ = noteVerdict σ (.hold why) := by
  simp [slotRun, hp]

/-- Every slot form leaves memory in canonical form. -/
theorem slotRun_wf (p : Work → Plan) (σ : State) (h : σ.mem.wf = true) : (slotRun p σ).mem.wf = true := by
  simp only [slotRun]
  split <;> (try split) <;> first | exact commit_wf _ | exact h

end Sys2Proof.Laws
end

