-- ==== Sys2Proof/Laws/Scalar.lean ====
section
/-! SUPPORT. What the shared operations of the S-slot forms do: one lemma each, cited by the statements' proofs. -/

namespace Sys2Proof.Laws

open Sys2Proof Sys2Proof.Machine Sys2Proof.Safety

/-- A form whose plan changes nothing. -/
theorem slotRun_same {p : Work → Plan} {σ : State} (h : Takes σ) (hp : p (Work.begin σ) = .ok (Work.begin σ)) :
    slotRun p σ = same σ := by rw [slotRun_ok h hp]; rfl

/-- A landing form of A and B (R209, R210, R296). -/
theorem scalarForm_run {σ : State} {unit latch lat : Nat} {om : BitVec 2} {os ts : BitVec 7} {wd : BitVec 6}
    {we : BitVec 1} {f : Word → Word → Word} {a b : Word} (h : Takes σ) (hg : On σ) (ha : Reads σ ts a)
    (hb : Port σ unit om os b) :
    slotRun (scalarForm unit latch lat om os ts wd we f) σ =
      withMe σ (inFlight σ lat (.scalar latch (f a b) (dest we wd.toNat) 0) (loaded unit b (me σ))) := by
  rw [← launch_commit, slotRun_ok h]
  simp [scalarForm, show guardTrue (Work.begin σ) = true from hg,
    show readSel (Work.begin σ) ts.toNat = .ok a from ha, show readPort (Work.begin σ) unit om os = .ok b from hb]
  rfl

/-- A form of A alone (R299). -/
theorem aluUnary_run {σ : State} {ts : BitVec 7} {wd : BitVec 6} {we : BitVec 1} {f : Word → Word} {a : Word}
    (h : Takes σ) (hg : On σ) (ha : Reads σ ts a) :
    slotRun (aluUnary ts wd we f) σ = withMe σ (inFlight σ 1 (.scalar 0 (f a) (dest we wd.toNat) 0) (me σ)) := by
  rw [← launch_only_commit, slotRun_ok h]
  simp [aluUnary, show guardTrue (Work.begin σ) = true from hg, show readSel (Work.begin σ) ts.toNat = .ok a from ha]
  rfl

/-- A comparison (R300). -/
theorem predForm_run {σ : State} {om : BitVec 2} {os ts : BitVec 7} {wd : BitVec 3} {we : BitVec 1} {k : Cond}
    {a b : Word} (h : Takes σ) (hg : On σ) (ha : Reads σ ts a) (hb : Port σ 0 om os b) :
    slotRun (predForm om os ts wd we k) σ =
      withMe σ (inFlight σ 1 (.pred (k.holds a b) (dest we wd.toNat)) (loaded 0 b (me σ))) := by
  rw [← launch_commit, slotRun_ok h]
  simp [predForm, show guardTrue (Work.begin σ) = true from hg,
    show readSel (Work.begin σ) ts.toNat = .ok a from ha, show readPort (Work.begin σ) 0 om os = .ok b from hb]
  rfl

/-- A form of two predicates (R300). -/
theorem predPair_run {σ : State} {pb pa wd : BitVec 3} {we : BitVec 1} {f : Bool → Bool → Bool}
    (h : Takes σ) (hg : On σ) :
    slotRun (predPair pb pa wd we f) σ =
      withMe σ (inFlight σ 1 (.pred (f ((me σ).preg pa.toNat) ((me σ).preg pb.toNat)) (dest we wd.toNat)) (me σ)) := by
  rw [← launch_only_commit, slotRun_ok h]
  simp [predPair, show guardTrue (Work.begin σ) = true from hg]

/-- `sel` (R300). -/
theorem selPlan_run {σ : State} {om : BitVec 2} {os ts : BitVec 7} {wd : BitVec 6} {we : BitVec 1} {a b : Word}
    (h : Takes σ) (ha : Reads σ ts a) (hb : Port σ 0 om os b) :
    slotRun (selPlan om os ts wd we) σ =
      withMe σ (inFlight σ 1 (.scalar 0 (if guardTrue (Work.begin σ) then a else b) (dest we wd.toNat) 0)
        (loaded 0 b (me σ))) := by
  rw [← launch_commit, slotRun_ok h]
  simp [selPlan, show readSel (Work.begin σ) ts.toNat = .ok a from ha,
    show readPort (Work.begin σ) 0 om os = .ok b from hb]
  rfl

/-- `bins` (R301). -/
theorem binsPlan_run {σ : State} {om : BitVec 2} {os ts : BitVec 7} {wd : BitVec 6} {a b x : Word}
    (h : Takes σ) (hg : On σ) (ha : Reads σ ts a) (hb : Port σ 0 om os b)
    (hx : readSel (Work.begin σ) wd.toNat = .ok x) :
    slotRun (binsPlan om os ts wd) σ =
      withMe σ (inFlight σ 1 (.scalar 0 (insertField x a b) (some wd.toNat) 0) (loaded 0 b (me σ))) := by
  rw [← launch_commit, slotRun_ok h]
  simp [binsPlan, show guardTrue (Work.begin σ) = true from hg, hx,
    show readSel (Work.begin σ) ts.toNat = .ok a from ha, show readPort (Work.begin σ) 0 om os = .ok b from hb]
  rfl

end Sys2Proof.Laws
end

