-- ==== Sys2Proof/Laws/Sent.lean ====
section
/-! SUPPORT. What a form of the S slot that sends an operation away leaves: the issuing context with its new entries, and
nothing else that a program can read. -/

namespace Sys2Proof.Laws

open Sys2Proof Sys2Proof.Machine Sys2Proof.Safety

@[simp] theorem updCore_dev_ctx (w : Work) (n core bank : Nat) (f : Core → Core) :
    (w.updCore n f).dev.ctx core bank = w.dev.ctx core bank := rfl
@[simp] theorem updCore_me (w : Work) (n : Nat) (f : Core → Core) : (w.updCore n f).me = w.me := rfl
@[simp] theorem tlbFill_me (w : Work) (core part va : Nat) (x : Xlat) : (w.tlbFill core part va x).me = w.me := rfl

/-- The port's load, alone. -/
theorem setPort_begin (σ : State) (unit : Nat) (b : Word) :
    ((Work.begin σ).setPort unit b).me = loaded unit b (me σ) := by simp [Work.setPort]; rfl

/-- A walk does not look at contexts. -/
theorem walkFrom_updMe (w : Work) (f : Ctx → Ctx) (die va lvl t : Nat) (ls : List Nat) :
    walkFrom (w.updMe f) die va lvl t ls = walkFrom w die va lvl t ls := by
  induction lvl generalizing t ls with
  | zero => rfl
  | succ n ih => simp only [walkFrom]; simp only [ih]; rfl

/-- Nor does a translation. -/
theorem translate_updMe (w : Work) (f : Ctx → Ctx) (who : Asker) (need : List Need) (va : Nat) :
    translate (w.updMe f) who need va = translate w who need va := by
  unfold Machine.translate
  rw [walkFrom_updMe]
  rfl

/-- A form's translation is the same before and after its port's load. -/
theorem xlate_setPort (w : Work) (unit : Nat) (b : Word) (need : List Need) (va base : Nat) (parks : Bool) :
    xlate (w.setPort unit b) need va base parks = xlate w need va base parks := by
  simp only [xlate, Work.setPort, translate_updMe, updMe_me, handleWait, updMe_issue, updMe_myCore]
  rfl

/-- A transaction that changed the issuing context and cores only. -/
theorem leaves_commit {σ : State} {w : Work} {c : Ctx} (hb : w.base = σ.mem) (hl : w.log = [])
    (hi : w.dev.issue = σ.dev.issue) (hc : w.dev.ctxs = σ.dev.ctxs.set (key σ) c) :
    Leaves σ (.next w.commit) c := by
  refine ⟨_, rfl, ?_, ?_, hi, ?_⟩
  · simp only [me, commit_dev, Dev.ctx, hc, hi]
    exact tab_get_set_same _ _ _ _
  · intro a
    rw [commit_read]
    simp [Work.byte, hl, logFind, hb]
  · intro k hk
    simp only [commit_dev, hc]
    exact tab_get?_set_other _ _ _ _ hk

-- Binding in a plan

@[simp] theorem bind_ok {ε α β : Type} (a : α) (f : α → Except ε β) : ((Except.ok a : Except ε α) >>= f) = f a := rfl
@[simp] theorem bind_error {ε α β : Type} (e : ε) (f : α → Except ε β) :
    ((Except.error e : Except ε α) >>= f) = .error e := rfl
@[simp] theorem check_true (c : Nat) : check true c = .ok () := rfl
@[simp] theorem check_false (c : Nat) : check false c = .error (.trap c none) := rfl
@[simp] theorem checkVal_true (c v : Nat) : checkVal true c v = .ok () := rfl
@[simp] theorem checkVal_false (c v : Nat) : checkVal false c v = .error (.trap c (some v)) := rfl

/-- The two operands of a form, read. -/
theorem readAB_ok {σ : State} {unit : Nat} {om : BitVec 2} {os ts : BitVec 7} {a b : Word} (ha : Reads σ ts a)
    (hb : Safety.Port σ unit om os b) :
    readAB (Work.begin σ) unit om os ts = .ok (a, b, (Work.begin σ).setPort unit b) := by
  simp [readAB, show readSel (Work.begin σ) ts.toNat = .ok a from ha,
    show readPort (Work.begin σ) unit om os = .ok b from hb]

/-- A register field read as a selector. -/
theorem reads_field {σ : State} {wd : BitVec 6} {v : Word} (h : Reads σ (wd.setWidth 7) v) :
    readSel (Work.begin σ) wd.toNat = .ok v := by
  simpa [Reads, BitVec.toNat_setWidth, Nat.mod_eq_of_lt (show wd.toNat < 128 by omega)] using h

/-- A true guard, as the plans test it. -/
theorem on_not {σ : State} (hg : On σ) : ¬ guardTrue (Work.begin σ) = false := by
  rw [show guardTrue (Work.begin σ) = true from hg]; simp

/-- A free landing-buffer entry, before and after the port's load. -/
theorem bufferFree_begin {σ : State} (h : HasBuffer σ) : bufferFree (Work.begin σ).me = .ok () := by
  simp [bufferFree, show (me σ).outs.length < 8 from h]
theorem bufferFree_setPort {σ : State} {u : Nat} {b : Word} (h : HasBuffer σ) :
    bufferFree ((Work.begin σ).setPort u b).me = .ok () := by
  rw [setPort_begin]; simp [bufferFree, loaded, show (me σ).outs.length < 8 from h]

/-- A translation made after the port's load. -/
theorem translates_setPort {σ : State} {u : Nat} {b : Word} {need : List Need} {va base : Nat} {parks : Bool} {x : Xlat}
    (h : Translates σ need va base parks x) : xlate ((Work.begin σ).setPort u b) need va base parks = .ok x := by
  rw [xlate_setPort]; exact h

/-- A form whose plan changes the issuing context, and cores, only. -/
theorem leaves_run {σ : State} {p : Work → Plan} {w : Work} {c : Ctx} (h : Takes σ) (hp : p (Work.begin σ) = .ok w)
    (hb : w.base = σ.mem) (hl : w.log = []) (hi : w.dev.issue = σ.dev.issue)
    (hc : w.dev.ctxs = σ.dev.ctxs.set (key σ) c) : Leaves σ (.next (slotRun p σ)) c := by
  rw [slotRun_ok h hp]; exact leaves_commit hb hl hi hc

/-- What a context update leaves of a transaction. -/
theorem updMe_ctxs (w : Work) (f : Ctx → Ctx) :
    (w.updMe f).dev.ctxs = w.dev.ctxs.set (2 * w.dev.issue.core + w.dev.issue.bank) (f w.me) := rfl

/-- A port's load and one more update of the issuing context. -/
theorem setPort_ctxs {σ : State} {u : Nat} {b : Word} (f : Ctx → Ctx) :
    (((Work.begin σ).setPort u b).updMe f).dev.ctxs = σ.dev.ctxs.set (key σ) (f (loaded u b (me σ))) := by
  rw [updMe_ctxs, setPort_begin]; simp only [Work.setPort, updMe_ctxs, updMe_issue]
  exact tab_set_set _ _ _ _

end Sys2Proof.Laws
end

