-- ==== Sys2Proof/Tests/Slice0.lean ====
section
/-! SUPPORT. The model's own tests: ill-formed terms that the checks refuse, words written out from the encodings of files
11 to 14, single steps whose results are worked out by hand from the rules, and for the hypotheses of the statements a
state and operands that meet them. -/

namespace Sys2Proof.Tests

open Sys2Proof Sys2Proof.Machine Sys2Proof.Safety

set_option maxRecDepth 100000
set_option Elab.async false

-- Well-formedness: each check refuses a term (R268, R272, R273, R278, R320, R358)

theorem test_wf_ts : (Instr.add 0 0 0x49 1 1).wf = false := by decide
theorem test_wf_ts_last_gap : (Instr.add 0 0 0x6B 1 1).wf = false := by decide
theorem test_wf_port : (Instr.add 1 0x58 0 1 1).wf = false := by decide
theorem test_wf_port_not_used : (Instr.add 2 0x58 0 1 1).wf = true := by decide
theorem test_wf_ts_vector : (Instr.vadd 0 0 0x71 1 1 0).wf = false := by decide
theorem test_wf_port_vector : (Instr.vadd 1 0x6E 0 1 1 0).wf = false := by decide
theorem test_wf_q : (Instr.vadd 0 0 0 1 1 3).wf = false := by decide
theorem test_wf_q_fadd : (Instr.amoFadd 0 0 0 1 1 3).wf = false := by decide
theorem test_wf_fence_kind : (Instr.fenceInstruction 4 0).wf = false := by decide
theorem test_wf_fence_scope : (Instr.fenceInstruction 0 6).wf = false := by decide
theorem test_wf_mswap : (Instr.mswap 1).wf = false := by decide
theorem test_wf_mrun : (Instr.mrun 0 0 0 3 0).wf = false := by decide
theorem test_wf_mzero : (Instr.mzero 0).wf = false := by decide
theorem test_wf_core : (Instr.landing 512 0).wf = false := by decide
theorem test_wf_bank : (Instr.landing 0 2).wf = false := by decide
theorem test_wf_engine : (Instr.copyCommandComplete 0 2 0).wf = false := by decide
theorem test_wf_weight_bank : (Instr.calibrationStaleTimer 0 2).wf = false := by decide
theorem test_wf_column : (Instr.laneFailure 512 0).wf = false := by decide
theorem test_wf_die : (Instr.dispatch 4).wf = false := by decide
theorem test_wf_boundary : (Instr.laneBundleFailure 4).wf = false := by decide
theorem test_wf_launch : (Instr.ebbEnd 64).wf = false := by decide
theorem test_wf_island : (Instr.operatingPointChangeDone 32).wf = false := by decide
theorem test_wf_partition : (Instr.partitionEnable 16).wf = false := by decide
theorem test_wf_function : (Instr.getVersion 64).wf = false := by decide
theorem test_wf_window : (Instr.claim 0 16).wf = false := by decide
theorem test_wf_peer_port : (Instr.peerPortUp 16).wf = false := by decide

-- Words written out from the encodings, one or more for each family (R267 to R270, R278; Tables 11.5 to 11.11, 14.1, 14.4)

/-- `add` OM = 2, OS = 0x7D, TS = 4, WD = 5, WE = 1: 0000001 10 1111101 0000100 000101 1 00. -/
theorem test_word_add : readWord .s 0b00000011011111010000100000101100#32 = some (.add 2 0x7D 4 5 1) := by rfl
/-- Example 12.1. -/
theorem test_word_st : readWord .s 0x550C084A = some (.st 2 0x0C 4 9 2) := by rfl
theorem test_word_amo_cas : readWord .s 0x72870C2F = some (.amoCas 1 7 6 5 1 3) := by rfl
theorem test_word_qbind : readWord .s 0x81060810 = some (.qbind 2 6 4 2) := by rfl
theorem test_word_fence : readWord .s 0xC4030000 = some (.fenceInstruction 0 3) := by rfl
/-- `br` on the condition Q = 2: 1010101 10 0000100 0000110 000000 0 10. -/
theorem test_word_br : readWord .s 0b10101011000001000000110000000010#32 = some (.br 2 4 6 2) := by rfl
/-- `mul` s7, s6, s5: 0100000 01 0000101 0000110 000111 1 00. -/
theorem test_word_mul : readWord .s 0b01000000100001010000110000111100#32 = some (.mul 1 5 6 7 1) := by rfl
/-- `task.done`: opcode 0x59 and nothing else. -/
theorem test_word_task_done : readWord .s 0b10110010000000000000000000000000#32 = some .taskDone := by rfl
/-- `cp` s4, port, nS = 1, nD = 2: 0000001 00 0000000 0000100 0 0010 0001. -/
theorem test_word_cp : readWord .c0 0b00000010000000000000100000100001#32 = some (.cp 0 0 4 2 1) := by rfl
/-- Example 13.1. -/
theorem test_word_vsigm : readWord .v0 0xA8000A34 = some (.vsigm 5 6 1 0) := by rfl
theorem test_word_vfma : readWord .v1 0x08A2021D = some (.vfma 1 0x22 1 3 1 1) := by rfl
theorem test_word_vcmp_lt : readWord .v0 0x24E00E14 = some (.vcmpLt 1 0x60 7 2 1 0) := by rfl
theorem test_word_vacc_rd : readWord .v1 0xD50A4C24 = some (.vaccRd 2 0x0A 0x26 4 1) := by rfl
theorem test_word_vst : readWord .v0 0xD3054648 = some (.vst 5 0x23 9) := by rfl
/-- `vadd` in BF16. -/
theorem test_word_vadd : readWord .v0 (1#7 ++ 1#2 ++ 2#7 ++ 1#7 ++ 0#1 ++ 4#5 ++ 1#1 ++ 1#2) = some (.vadd 1 2 1 4 1 1) := by rfl
/-- The word of all zeros is a nop in every slot. -/
theorem test_word_nop : (decodeSlot .s 0, decodeSlot .v0 0, decodeSlot .m 0, decodeSlot .c1 0) =
    (.ok none, .ok none, .ok none, .ok none) := by rfl
/-- Reserved WD bit 8 of a V form set: refused. -/
theorem test_word_reserved : readWord .v0 (1#7 ++ 1#2 ++ 2#7 ++ 1#7 ++ 1#1 ++ 4#5 ++ 1#1 ++ 1#2) = none := by rfl
/-- The host's numbering reads the same words: the first slot map of a word that has several. -/
theorem test_table_word : decodeTableWord 32 0x037D082C = some (.add 2 0x7D 4 5 1) := by rfl
theorem test_table_word_short : decodeTableWord 16 0x037D = none := by rfl

-- Numbers (Examples 1.2, 6.1, 7.1, 10.1, 10.2, 13.2)

theorem test_therm : (thermOf 300 260, thermOf 300 340) = (128, 0) := by decide
theorem test_address_map : (columnOf 0x2464004AC0, layerOf 0x2464004AC0, bankOf 0x2464004AC0) = (291, 1, 27) := by decide
theorem test_round_e4m3_tie : convert .e4m3 false (floatValue .fp32 0x43E80000) = 0x7E := by decide +kernel
theorem test_round_e4m3_above : (convert .e4m3 false (floatValue .fp32 0x43E80001),
    convert .e4m3 true (floatValue .fp32 0x43E80001)) = (0x7E, 0x7F) := by decide +kernel
theorem test_round_e4m3_small : (convert .e4m3 false (.fin false 1 (-10)), convert .e4m3 false (.fin false 3 (-11))) = (0, 1) := by
  decide +kernel
theorem test_round_e5m2 : (convert .e5m2 false (.ofInt 61440), convert .e5m2 true (.ofInt 61440)) = (0x7B, 0x7C) := by
  decide +kernel
theorem test_round_int8 : convert .int8 false (.fin false 5 (-1)) = 2 := by decide +kernel
theorem test_round_away : (rna 5 1, rna (-5) 1) = (3, -3) := by decide
theorem test_convert_lanes : [0x40400000, 0xBE99999A, 0x43FA0000, 0x7FC00000].map
    (fun x => convert .e4m3 false (Real.mul (floatValue .fp32 x) (floatValue .fp32 0x40000000))) = [0x4C, 0xB2, 0x7E, 0x7F] := by
  decide +kernel

-- One slot form at its issue

/-- Core 0 is about to issue a form in a slot, with a context in bank 0 and every other part as at reset. -/
def atIssue (slot : Nat) (c : Ctx) : State :=
  { dev := { mode := .running, issue := { slot := slot, pc := 0x10000 }, ctxs := [(0, c)], cores := [(0, { clk := 5, raw := 5 })] } }

/-- A context with s4 = 7, s5 = 3, s6 = 0x800 and 64 KiB of local store. -/
def plain : Ctx := { st := .ready, s := [(4, 7), (5, 3), (6, 0x800)], lssz := 0x10000, tvec := 0x20000, tframe := 0x8000 }

/-- The effects in flight in the issuing context after an instruction. -/
def flying (i : Instr) (σ : State) : List (Nat × Effect) :=
  match exec i σ with
  | .next t => (me t).flights.map fun f => (f.due, f.eff)
  | .fault _ => []
  | .refused _ => []

/-- The state after an instruction. -/
def after (i : Instr) (σ : State) : State :=
  match exec i σ with
  | .next t => t
  | .fault _ => σ
  | .refused _ => σ

/-- The cause of the trap that the issuing context has entered at level 2, at its handler. -/
def trapped (i : Instr) (σ : State) : Option Nat :=
  let c := me (after i σ)
  if c.lvl = 2 ∧ c.pc = 0x20000 then some (c.cause % 64) else none

theorem test_add_wraps : flying (.add 2 0x7D 5 9 1) (atIssue 1 { plain with s := [(5, 2)] }) =
    [(6, .scalar 0 0xFFFFFFFFFFFFFFFF (some 9) 0)] := by decide +kernel
theorem test_sub_order : flying (.sub 1 5 4 9 0) (atIssue 1 plain) = [(6, .scalar 0 4 none 0)] := by decide +kernel
/-- Example 12.2. -/
theorem test_bext : flying (.bext 1 5 4 9 1) (atIssue 1 { plain with s := [(4, 0xAB), (5, 516)] }) =
    [(6, .scalar 0 0xA (some 9) 0)] := by decide +kernel
theorem test_wfield : flying (.wfield 1 5 4 9 1) (atIssue 1 { plain with s := [(4, 0xAB), (5, 516)] }) =
    [(6, .scalar 0 0xAB0 (some 9) 0)] := by decide +kernel
theorem test_bins : flying (.bins 1 5 4 6) (atIssue 1 { plain with s := [(4, 0xAB), (5, 516), (6, 0xFFFFFFFFFFFFFFFF)] }) =
    [(6, .scalar 0 0xFFFFFFFFFFFFFABF (some 6) 0)] := by decide +kernel
theorem test_sra_negative : flying (.sra 2 1 4 9 1) (atIssue 1 { plain with s := [(4, 0x8000000000000000)] }) =
    [(6, .scalar 0 0xC000000000000000 (some 9) 0)] := by decide +kernel
theorem test_slt_signed : flying (.slt 1 5 4 2 1) (atIssue 1 { plain with s := [(4, 0xFFFFFFFFFFFFFFFF), (5, 1)] }) =
    [(6, .pred true (some 2))] := by decide +kernel
theorem test_sltu_unsigned : flying (.sltu 1 5 4 2 1) (atIssue 1 { plain with s := [(4, 0xFFFFFFFFFFFFFFFF), (5, 1)] }) =
    [(6, .pred false (some 2))] := by decide +kernel
theorem test_mulh_sign : flying (.mulh 1 5 4 9 1) (atIssue 1 { plain with s := [(4, 0xFFFFFFFFFFFFFFFF), (5, 1)] }) =
    [(8, .scalar 1 0xFFFFFFFFFFFFFFFF (some 9) 0)] := by decide +kernel
theorem test_div_by_zero : flying (.div 2 0 4 9 1) (atIssue 1 plain) = [(25, .scalar 1 0xFFFFFFFFFFFFFFFF (some 9) 0)] := by
  decide +kernel
theorem test_rem_sign : flying (.rem 1 5 4 9 1) (atIssue 1 { plain with s := [(4, 0xFFFFFFFFFFFFFFF9), (5, 3)] }) =
    [(25, .scalar 1 0xFFFFFFFFFFFFFFFF (some 9) 0)] := by decide +kernel
theorem test_guard_false : flying (.add 1 5 4 9 1) { atIssue 1 plain with dev := { (atIssue 1 plain).dev with
    issue := { slot := 1, gn := true } } } = [] := by decide +kernel
theorem test_st_byte_order : (after (.st 2 1 6 4 1) (atIssue 1 { plain with s := [(4, 0x1234), (6, 0x7FF)] })).mem.cells =
    [(Key.ls 0 0x800, 0x34), (Key.ls 0 0x801, 0x12)] := by decide +kernel
theorem test_st_misaligned : trapped (.st 2 1 6 4 1) (atIssue 1 plain) = some 13 := by decide +kernel
theorem test_ld_undeclared : trapped (.ld 2 0 6 4 1 3) (atIssue 1 { plain with s := [(6, 0x10000)] }) = some 10 := by decide +kernel
theorem test_ld_sign : flying (.ld 2 0 6 4 1 0) { atIssue 1 plain with mem := { cells := [(Key.ls 0 0x800, 0x80)] } } =
    [(11, .scalar 2 0xFFFFFFFFFFFFFF80 (some 4) 0)] := by decide +kernel
theorem test_br_target : (me (after (.br 2 4 4 1) (atIssue 1 plain))).br =
    some { target := 0x10080, left := 3, taken := true, pc := 0x10000 } := by decide +kernel
theorem test_br_in_body : trapped (.j 2 4) { atIssue 1 plain with dev := { (atIssue 1 plain).dev with
    issue := { slot := 1, inBody := true } } } = some 7 := by decide +kernel
theorem test_call_link : flying (.call 2 4 1 1) (atIssue 1 plain) = [(6, .scalar 4 0x10060 (some 1) 0)] := by decide +kernel
theorem test_eret_level_0 : trapped .eret (atIssue 1 plain) = some 5 := by decide +kernel
theorem test_trap_value : (let c := me (after (.trap 2 5) (atIssue 1 plain)); (c.cause, c.tval, c.epc)) = (56 + 64, 5, 0x10000) := by
  decide +kernel
theorem test_rdcw_rank : flying (.rdcw 2 0 4 1) (atIssue 1 { plain with rank := 3 }) = [(7, .scalar 5 3 (some 4) 0)] := by
  decide +kernel
theorem test_wrcw_read_only : trapped (.wrcw 2 0 4) (atIssue 1 plain) = some 5 := by decide +kernel
theorem test_fence_scope : trapped (.fenceInstruction 0 6) (atIssue 1 plain) = some 2 := by decide +kernel
theorem test_fence_time : (me (after (.fenceInstruction 3 3) (atIssue 1 { plain with engLts := 9, lts := 4 }))).lts = 10 := by
  decide +kernel
theorem test_mswap_1 : trapped (.mswap 1) (atIssue 4 plain) = some 2 := by decide +kernel
theorem test_mzero_undeclared : trapped (.mzero 2) (atIssue 4 plain) = some 30 := by decide +kernel
/-- Four E4M3 lanes of Example 13.2 by `vcvt`, whose descriptor stands in s8: bytes 64 to 67 and no other. -/
theorem test_vcvt : (match flying (.vcvt 1 0x28 4 9 1) (atIssue 2 { plain with
      s := [(8, 0x400000000000046A)], v := [(4, 0x7FC0000043FA0000BE99999A40400000)] }) with
    | [(d, .vector l x val act dst mark)] => (d, l, bits x.toNat 543 512, val.toNat % 2 ^ 512, act.toNat, dst, mark)
    | _ => (0, 0, 0, 0, 0, none, 0)) = (9, 0, 0x7F7EB24C, 0, 2 ^ 128 - 2 ^ 64, some 9, 0) := by decide +kernel
theorem test_vadd_nan : (match flying (.vadd 1 5 4 9 1 0) (atIssue 3 { plain with v := [(4, 0x7F800000), (5, 0xFF800000)] }) with
    | [(d, .vector l x _ _ _ _)] => (d, l, bits x.toNat 31 0)
    | _ => (0, 0, 0)) = (9, 1, 0x7FC00000) := by decide +kernel

-- Whole steps: the word is fetched, decoded and issued (R208 to R213, R264)

/-- Core 0's context in bank 0 after one step with a slot word placed where the step fetches. -/
def stepped (w : Nat) : Ctx :=
  match step (State.reset.withFetchWord 32 w) with
  | .next t => t.dev.ctx 0 0
  | .fault _ => {}
  | .refused _ => {}

/-- `add` s5 = s2 - 3 at a task's first bundle, where s2 is EXTENT = 1: the result is in flight and the PC is at the next
bundle. -/
theorem test_step_add : ((stepped 0x037D042C).flights.map (·.eff), (stepped 0x037D042C).pc) =
    ([.scalar 0 0xFFFFFFFFFFFFFFFE (some 5) 0], 0x10020) := by decide +kernel
/-- `br` on s1 = 0 to four bundles on: taken, with three bundles to issue first. -/
theorem test_step_br : (stepped 0xAB040200).br =
    some { target := 0x10080, left := 2, taken := true, pc := 0x10000 } := by decide +kernel
/-- `task.done` ends the only task of the launch: the bank is idle. -/
theorem test_step_task_done : (stepped 0xB2000000).st = .idle := by decide +kernel
/-- `fence die, engine` with nothing outstanding raises the context's time by one. -/
theorem test_step_fence : (stepped 0xC4030000).lts = 1 := by decide +kernel
/-- An opcode that no slot lists is not placed, and the step from reset begins bring-up. -/
theorem test_not_placed : State.reset.withFetchWord 32 0xFE000000 = State.reset := by decide +kernel
/-- A tripped part with nothing outside stops. -/
theorem test_tripped : (match step { dev := { mode := .tripped } } with
    | .fault .thermalTrip => true
    | _ => false) = true := by decide +kernel

-- Events

/-- The device after an event. -/
def happened (i : Instr) (d : Dev) : Dev :=
  match exec i { dev := d } with
  | .next t => t.dev
  | .fault _ => d
  | .refused _ => d

theorem test_envelope_step : ((happened (.setEnvelope 925) { mode := .running }).envelope, (happened (.setEnvelope 930) { mode := .running }).envelope,
    (happened (.setEnvelope 925) { mode := .recovery }).envelope) = (925, 1500, 1500) := by
  decide +kernel
theorem test_lane_first : ((happened (.laneFailure 3 9) {}).column 3).bus = 1 := by decide +kernel
theorem test_guest_trains : (happened (.partnerDetect true) { sock := { en := true } }).sock.st = 1 := by decide +kernel
theorem test_hello_limit : ((happened .helloTimeout { now := 9, sock := { st := 2, helloBy := some 9 } }).sock.st,
    (happened .helloTimeout { now := 8, sock := { st := 2, helloBy := some 9 } }).sock.st) = (6, 2) := by decide +kernel
theorem test_spdm_order : ((happened (.getCapabilities 1) { mode := .running }).host.reply,
    ((happened (.getVersion 1) { mode := .running }).spdmOf 1).version) = (.spdmError, true) := by decide +kernel
theorem test_layer_two_events : ((happened (.layerPoweredOn 2) (happened (.layerPowerOn 2) { parts := [(0, { granules := [(544, 1)] })] })).column 2).layers = 2 := by
  decide +kernel
theorem test_enable_configured : ((happened (.partitionEnable 1) { mode := .running, parts := [(1, { st := 1, clusters := 2 })] }).partOf 1).st = 3 := by
  decide +kernel
theorem test_watchdog_master : (happened (.policyWatchdog 0) { mode := .running, now := 600000 }).mode = .recovery := by decide +kernel
theorem test_port_33_replays : ((happened (.peerFlitCrcFail 2) { ports := [(2, { up := true, replays := List.replicate 32 0 })] }).ports.get 2 {}).up = false := by
  decide +kernel
theorem test_recovery_append : (happened .appendStaging { recovery := { off := 65536, len := 2869, slen := 65536 } }).recovery.slen = 68405 := by
  decide +kernel

-- Witnesses: for the hypotheses of each statement a state and operands that meet them together. A hypothesis that asks for
-- an answer of an uninterpreted function of Config (a signature that verifies) has none that can be written out.

/-- What an operation answers passes a test. -/
def okAnd {ε α : Type} (e : Except ε α) (p : α → Bool) : Bool :=
  match e with
  | .ok x => p x
  | .error _ => false

theorem okAnd_sound {ε α : Type} {e : Except ε α} {p : α → Bool} (h : okAnd e p = true) : ∃ x, e = .ok x ∧ p x = true := by
  cases e with
  | ok x => exact ⟨x, rfl, h⟩
  | error y => cases h

theorem okAnd_ok {ε α : Type} {e : Except ε α} (h : okAnd e (fun _ => true) = true) : ∃ x, e = .ok x :=
  (okAnd_sound h).imp fun _ y => y.1

/-- The S slot is about to issue, with a guard that is false. -/
def guarded : State := { dev := { (atIssue 1 plain).dev with issue := { slot := 1, pc := 0x10000, gn := true } } }

/-- Core 0 is about to issue a form of a slot under a launch of partition 0, whose page tables map the first 2 MiB with every
permission (R160, R161). -/
def placed (slot : Nat) (c : Ctx) : State :=
  { mem := { cells := [(Key.phys 0x1000, 0x01), (Key.phys 0x1001, 0x20), (Key.phys 0x2000, 0x01), (Key.phys 0x2001, 0x30),
      (Key.phys 0x3000, 0x01), (Key.phys 0x3001, 0x40), (Key.phys 0x4000, 0x3F)] }
    dev := { (atIssue slot c).dev with parts := [(0, placedPart {})], launches := [(0, placedLaunch)] } }

/-- A nest image of one dimension (Table 11.9). -/
def image (kind fmt base count stride : Nat) : NestImage :=
  BitVec.ofNat 1024 (base + 2 ^ 64 * kind + 2 ^ 72 * fmt + 2 ^ 80 + 2 ^ 256 * count + 2 ^ 288 * stride)

theorem witness_ScalarResults : Takes (atIssue 1 plain) ∧ On (atIssue 1 plain) ∧ Reads (atIssue 1 plain) 4 7 ∧
    Safety.Port (atIssue 1 plain) 0 1 5 3 ∧ Safety.Port (atIssue 1 plain) 1 2 0 0 := ⟨rfl, rfl, rfl, rfl, rfl⟩
theorem witness_PredicateForms : (Takes (atIssue 1 plain) ∧ On (atIssue 1 plain) ∧ Reads (atIssue 1 plain) 4 7 ∧
    Safety.Port (atIssue 1 plain) 0 1 5 3 ∧ Reads (atIssue 1 plain) (BitVec.setWidth 7 (6 : BitVec 6)) 0x800) ∧
    Takes guarded ∧ Off guarded ∧ Reads guarded 4 7 ∧ Safety.Port guarded 0 1 5 3 := ⟨⟨rfl, rfl, rfl, rfl, rfl⟩, rfl, rfl, rfl, rfl⟩
theorem witness_GuardFalseDoesNothing : Takes guarded ∧ Off guarded := ⟨rfl, rfl⟩

/-- Two results in flight for s9, of one cycle. -/
def twoFlights (slot1 slot2 seq1 seq2 : Nat) : Work :=
  Work.begin (atIssue 1 { flights := [{ due := 6, slot := slot1, seq := seq1, eff := .scalar 0 1 (some 9) 0 },
    { due := 6, slot := slot2, seq := seq2, eff := .scalar 1 2 (some 9) 0 }] })
theorem witness_Landings : (∃ f g, ((twoFlights 1 3 7 2).ctx 0 0).flights = [f, g] ∧ f.due ≤ 6 ∧ g.due ≤ 6 ∧ f.due = g.due ∧
      f.slot < g.slot ∧ f.eff = .scalar 0 1 (some 9) 0 ∧ g.eff = .scalar 1 2 (some 9) 0) ∧
    ∃ f g, ((twoFlights 1 1 2 7).ctx 0 0).flights = [f, g] ∧ f.due ≤ 6 ∧ g.due ≤ 6 ∧ f.due = g.due ∧
      (f.slot = g.slot ∧ f.seq < g.seq) ∧ f.eff = .scalar 0 1 (some 9) 0 ∧ g.eff = .scalar 1 2 (some 9) 0 := by
  refine ⟨⟨_, _, rfl, ?_⟩, ⟨_, _, rfl, ?_⟩⟩ <;> decide

theorem witness_LoadForms_local : Takes (atIssue 1 plain) ∧ On (atIssue 1 plain) ∧ Reads (atIssue 1 plain) 6 0x800 ∧
    Safety.Port (atIssue 1 plain) 2 2 8 8 ∧ (0x800 + 8 : Word).toNat % 2 ^ 3 = 0 ∧
    (me (atIssue 1 plain)).declares 0x808 8 = true := by exact ⟨rfl, rfl, rfl, rfl, rfl, rfl⟩
/-- The context of a placed word with s6 = 0x10000, and s7 the first address of the system page. -/
def pointers : Ctx := { plain with s := [(6, 0x10000), (7, 0xFFFFFFFFFF0000), (8, 0x100), (9, 5)] }
theorem witness_LoadForms_global : Takes (placed 1 pointers) ∧ On (placed 1 pointers) ∧ Reads (placed 1 pointers) 6 0x10000 ∧
    Safety.Port (placed 1 pointers) 2 2 8 8 ∧ (me (placed 1 pointers)).outs.length < 8 ∧ inSystemPage 0x10008 = false ∧
    ∃ x, Translates (placed 1 pointers) [.read] 0x10008 8 true x :=
  ⟨rfl, rfl, rfl, rfl, by decide, by decide, okAnd_ok (by decide +kernel)⟩
theorem witness_LoadForms_system : Reads (placed 1 pointers) 7 0xFFFFFFFFFF0000 ∧ Safety.Port (placed 1 pointers) 2 2 0 0 ∧
    (me (placed 1 pointers)).outs.length < 8 ∧ inSystemPage 0xFFFFFFFFFF0000 = true := ⟨rfl, rfl, by decide, by decide⟩
/-- A context with an extent of 0x100 bytes under the last handle of 16. -/
def withExtent : Ctx :=
  { pointers with ext := [(15, { pa := 0x10000, len := 0x108, perms := 3, cls := 0, va := 0x10000, desc := 0, lines := [] })] }
theorem witness_LoadForms_extent : Takes (placed 1 withExtent) ∧ Reads (placed 1 withExtent) 8 0x100 ∧
    Safety.Port (placed 1 withExtent) 2 2 15 15 ∧ (me (placed 1 withExtent)).outs.length < 8 ∧
    ∃ e, (me (placed 1 withExtent)).ext.get? 15 = some e ∧ 0x100 + 2 ^ 3 ≤ e.len ∧ (e.pa + 0x100) % 2 ^ 3 = 0 ∧
      bit e.perms 0 = true ∧ bit e.perms 1 = true := ⟨rfl, rfl, rfl, by decide, _, rfl, by decide, by decide, by decide, by decide⟩
theorem witness_LocalStore : (Reads (atIssue 1 plain) 6 0x800 ∧ Safety.Port (atIssue 1 plain) 2 2 0 0 ∧
      Reads (atIssue 1 plain) (BitVec.setWidth 7 (5 : BitVec 6)) 3 ∧ (me (atIssue 1 plain)).declares 0x800 8 = true) ∧
    (Safety.Port (atIssue 1 plain) 2 2 1 1 ∧ 0x801 % 2 ^ 1 ≠ 0) ∧
    Reads (atIssue 1 { plain with s := [(6, 0x10000)] }) 6 0x10000 ∧ 0x10000 % 2 ^ 3 = 0 ∧
      (me (atIssue 1 { plain with s := [(6, 0x10000)] })).declares 0x10000 8 = false :=
  ⟨⟨rfl, rfl, rfl, rfl⟩, ⟨rfl, by decide⟩, rfl, by decide, rfl⟩
theorem witness_PostedStores : Takes (placed 1 pointers) ∧ On (placed 1 pointers) ∧ Reads (placed 1 pointers) 6 0x10000 ∧
    Safety.Port (placed 1 pointers) 2 2 0 0 ∧ Reads (placed 1 pointers) (BitVec.setWidth 7 (9 : BitVec 6)) 5 ∧
    (∃ x, Translates (placed 1 pointers) [.write] 0x10000 9 true x) ∧ (∃ x, Translates (placed 1 pointers) [.read] 0x10000 8 true x) ∧
    Reads (placed 1 { plain with s := [(6, 0x100000000000000)] }) 6 0x100000000000000 ∧ 2 ^ 56 ≤ 0x100000000000000 :=
  ⟨rfl, rfl, rfl, rfl, rfl, okAnd_ok (by decide +kernel), okAnd_ok (by decide +kernel), rfl, by decide⟩
theorem witness_PostedStores_refused : Reads (placed 1 pointers) 7 0xFFFFFFFFFF0000 ∧ 0xFFFFFFFFFF0000 < 2 ^ 56 ∧
    (match xlate (Work.begin (placed 1 pointers)) [.read] 0xFFFFFFFFFF0000 8 true with
      | .error (.trap _ none) => true
      | _ => false) = true := by refine ⟨rfl, ?_, ?_⟩ <;> decide +kernel
theorem witness_Atomics : Takes (placed 1 pointers) ∧ On (placed 1 pointers) ∧ Reads (placed 1 pointers) 6 0x10000 ∧
    Safety.Port (placed 1 pointers) 2 2 1 1 ∧ Reads (placed 1 pointers) (BitVec.setWidth 7 (9 : BitVec 6)) 5 ∧
    (me (placed 1 pointers)).outs.length < 8 ∧
    ∃ x, Translates (placed 1 pointers) [.atomic] 0x10000 9 true x ∧ decide (regionOf x.pa = .stacked) = true :=
  ⟨rfl, rfl, rfl, rfl, rfl, by decide, okAnd_sound (by decide +kernel)⟩
theorem witness_RangesAndBarrierWords : (Reads (placed 1 pointers) 7 0xFFFFFFFFFF0000 ∧ Safety.Port (placed 1 pointers) 5 2 0 0) ∧
    (Reads (placed 1 pointers) 6 0x10000 ∧ ([] : List Armed).length < 32 ∧
      ∃ x, Translates (placed 1 pointers) [.write] 0x10000 9 false x) ∧
    ((me (placed 1 pointers)).outs.length < 8 ∧ ∃ x, Translates (placed 1 pointers) [.read] 0x10000 8 false x) :=
  ⟨⟨rfl, rfl⟩, ⟨rfl, by decide, okAnd_ok (by decide +kernel)⟩, by decide, okAnd_ok (by decide +kernel)⟩

/-- A context with qb7 bound to a queue of 8-byte elements of role 0. -/
def bound7 (st : BindState) : Ctx := { pointers with qb := [(7, { st := st, handle := 0x10000, cb := 0x10000, home := 3, elog := 3 })] }
theorem witness_QueueOperations : Takes (atIssue 1 (bound7 .bound)) ∧ On (atIssue 1 (bound7 .bound)) ∧
    Reads (atIssue 1 (bound7 .bound)) 8 0x100 ∧
    (∃ b, (me (atIssue 1 (bound7 .bound))).qb.get? 7 = some b ∧ b.st = .bound ∧ b.elog = 3 ∧
      mayProduce b.role (.ctx 0 0 0) = true ∧ mayConsume b.role (.ctx 0 0 0) = true ∧ 0x100 % min (2 ^ b.elog) 32 = 0) ∧
    ((me (atIssue 1 (bound7 .bound))).qops.filter QueueOp.isEnqueue).length < 4 ∧ (me (atIssue 1 (bound7 .bound))).freeze = none ∧
    (me (atIssue 1 (bound7 .bound))).declares 0x100 8 = true ∧ (me (atIssue 1 (bound7 .bound))).outs.length < 8 :=
  ⟨rfl, rfl, rfl, ⟨_, rfl, rfl, rfl, rfl, rfl, rfl⟩, by decide, rfl, rfl, by decide⟩
theorem witness_QueueOperations_roles : mayProduce 2 (.ctx 0 0 0) = false ∧ mayProduce 3 (.ctx 0 0 0) = true ∧
    mayConsume 1 (.ctx 0 0 0) = false := by decide
theorem witness_QueueBindings : (Reads (placed 1 pointers) 6 0x10000 ∧ Safety.Port (placed 1 pointers) 3 2 12 12 ∧
      ((me (placed 1 pointers)).qb.get 0 {}).st ≠ .pending ∧ ∃ x, Translates (placed 1 pointers) [.read] 0x10000 8 false x) ∧
    ((me (atIssue 1 (bound7 .bound))).qb.get 7 {}).st = .bound ∧ (me (atIssue 1 (bound7 .bound))).qops = [] ∧
    (me (atIssue 1 (bound7 .bound))).qlate = [] ∧ ((me (atIssue 1 plain)).qb.get 7 {}).st = .unbound :=
  ⟨⟨rfl, rfl, by decide, okAnd_ok (by decide +kernel)⟩, rfl, rfl, rfl, rfl⟩
/-- The S slot is about to issue in a loop body, or in a delay bundle of a branch. -/
def inLoop : State := { dev := { (atIssue 1 plain).dev with issue := { slot := 1, pc := 0x10000, inBody := true } } }
def inDelay : Ctx := { plain with br := some { target := 0x10080, left := 2, taken := true, pc := 0x10000 } }
theorem witness_Branches : (inBody (Work.begin (atIssue 1 plain)) = false ∧ (me (atIssue 1 plain)).br = none ∧
      (atIssue 1 plain).dev.issue.follows = false ∧ Safety.Port (atIssue 1 plain) 4 2 4 4 ∧ Reads (atIssue 1 plain) 4 7) ∧
    inBody (Work.begin inLoop) = true ∧
    (inBody (Work.begin (atIssue 1 inDelay)) = false ∧ (me (atIssue 1 inDelay)).br ≠ none) ∧
    Off guarded ∧ inBody (Work.begin guarded) = false ∧ (me guarded).br = none ∧
    (let σ : State := { dev := { (atIssue 1 plain).dev with
       issue := { slot := 1, pc := 0x10000, follows := true, leadBr := some { target := 0x10080, left := 3, taken := true, pc := 0x10000 } } } }
     Takes σ ∧ On σ ∧ inBody (Work.begin σ) = false ∧ (me σ).br = none ∧ σ.dev.issue.follows = true ∧ σ.dev.issue.leadBr.isSome = true) :=
  ⟨⟨rfl, rfl, rfl, rfl, rfl⟩, rfl, ⟨rfl, by decide⟩, rfl, rfl, rfl, rfl, rfl, rfl, rfl, rfl, rfl⟩
theorem witness_Loops : (nestValid ((me (atIssue 1 { plain with nest := [(15, image 3 2 0 4 1)] })).nestSoon 15) = true ∧
      inBody (Work.begin (atIssue 1 plain)) = false) ∧ nestValid ((me (atIssue 1 plain)).nestSoon 15) = false ∧
    inBody (Work.begin inLoop) = true ∧ On inLoop := by
  refine ⟨⟨?_, rfl⟩, ?_, rfl, rfl⟩ <;> decide +kernel

theorem witness_TaskEnds : (me (atIssue 1 { plain with ebb := true })).ebb = true ∧
    ((me (placed 1 pointers)).ebb = false ∧ (me (placed 1 pointers)).accs = [] ∧ (me (placed 1 pointers)).qops = [] ∧
      (myCore (placed 1 pointers)).cmds = [] ∧ (myCore (placed 1 pointers)).strm = [] ∧ (myCore (placed 1 pointers)).passes = [] ∧
      nextHere (Work.begin (placed 1 pointers)) 0 0 = none) := by
  refine ⟨rfl, rfl, rfl, rfl, ?_, rfl, rfl, ?_⟩ <;> decide +kernel
/-- The launch has a second task, which the quire may take. -/
def twoTasks : State := { placed 1 pointers with dev := { (placed 1 pointers).dev with
  launches := [(0, { placedLaunch with ranges := [(0, (1, 2))], extent := 2 })] } }
/-- The same, with one extent whose table stands where no entry maps. -/
def noExtents : State := { twoTasks with dev := { twoTasks.dev with launches := [(0, { placedLaunch with
  hdr := placedHeader + 2 ^ 72 + 2 ^ 576 * 0x40000000, ranges := [(0, (1, 2))], extent := 2 })] } }
theorem witness_TaskEnds_next : nextHere (Work.begin twoTasks) 0 0 = some 1 ∧ twoTasks.dev.issue.follows = false ∧
    (match (launchExtents (Work.begin twoTasks) (me twoTasks).ix (coreDie 0) 1).1 with
      | .ok _ => true
      | .missing _ => false
      | .fails _ => false) = true ∧
    (match (launchExtents (Work.begin noExtents) (me noExtents).ix (coreDie 0) 1).1 with
      | .ok _ => false
      | .missing _ => true
      | .fails _ => true) = true ∧ nextHere (Work.begin noExtents) 0 0 = some 1 := by
  refine ⟨?_, rfl, ?_, ?_, ?_⟩ <;> decide +kernel
/-- Both banks of core 0 hold a task of a launch that alternates. -/
def twoBanks : State := { dev := { (atIssue 1 plain).dev with
  ctxs := [(0, { plain with lead := 0 }), (1, { plain with lead := 0 })], launches := [(0, { hdr := 2 ^ 44, st := 2 })] } }
theorem witness_TaskEnds_yield : twoBanks.dev.issue.follows = false ∧ (twoBanks.dev.launch 0).alt = true ∧
    otherRunnable (Work.begin twoBanks) (quireOf twoBanks.dev 0 0) 0 0 = true ∧
    ((quireOf twoBanks.dev 0 0).all fun k => !windowOpen (Work.begin twoBanks) k 0) = true ∧
    (atIssue 1 plain).dev.launch 0 = {} := by refine ⟨rfl, ?_, ?_, ?_, rfl⟩ <;> decide +kernel

/-- A trap of cause 10 at a first bundle. -/
def entry10 : Entry := { cause := 10, tval := 0, epc := 0x10000, resume := 0x10000, extra := 0, begun := 0 }
theorem witness_TrapEntry : entry10.park = none ∧ plain.replay.length ≤ 8 ∧ plain.requeue.length ≤ 12 := by decide
theorem witness_TrapLevels : ({ plain with lvl := 2 } : Ctx).lvl = 2 ∧ ({ plain with lssz := 0x7FFF } : Ctx).lssz < 32768 ∧
    (32768 ≤ plain.lssz ∧ plain.lvl = 0 ∧ bit ({ plain with tdel := 16 } : Ctx).tdel.toNat 4 = true ∧
      bit plain.tdel.toNat 4 = false ∧ plain.handler = true ∧ ({ plain with lvl := 1 } : Ctx).lvl = 1) ∧
    10 ∉ [16, 17, 24, 25, 56] ∧ ({ plain with handler := false } : Ctx).handler = false ∧
    ((Work.begin (atIssue 1 {})).ctx 0 0).trapLevel 10 = none ∧ ((Work.begin (atIssue 1 plain)).ctx 0 0).trapLevel 10 = some 2 ∧
    ((Work.begin (atIssue 1 plain)).ctx 0 0).qops = [] := by decide +kernel
theorem witness_TrapReturnHalt : Safety.Port (atIssue 1 plain) 5 2 5 5 ∧ (me (atIssue 1 plain)).lvl = 0 ∧
    (me (atIssue 1 { plain with lvl := 2 })).lvl = 2 ∧ On (atIssue 1 { plain with lvl := 2 }) := ⟨rfl, rfl, rfl, rfl⟩
theorem witness_Fences : (Takes (atIssue 1 plain) ∧ On (atIssue 1 plain) ∧ (me (atIssue 1 plain)).accs = [] ∧
      (me (atIssue 1 plain)).qops = [] ∧ (myCore (atIssue 1 plain)).strm = [] ∧ (me (atIssue 1 plain)).late = [] ∧
      (me (atIssue 1 plain)).plate = [] ∧ (me (atIssue 1 plain)).qlate = []) ∧ BitVec.toNat (3 : BitVec 3) ≤ 3 ∧
    3 < BitVec.toNat (4 : BitVec 3) := ⟨⟨rfl, rfl, rfl, rfl, rfl, rfl, rfl, rfl⟩, by decide, by decide⟩
theorem witness_ControlWords : Takes (atIssue 1 plain) ∧ (Safety.Port (atIssue 1 plain) 5 2 0 0 ∧ cwAssigned 0 = true ∧ cwOpenBit 0 = none ∧
      cwReadOnly 0 = true) ∧ (cwAssigned 0x014 = true ∧ cwReadOnly 0x014 = false ∧ (me (atIssue 1 plain)).lvl ≠ 2) ∧
    (cwAssigned 0x016 = true ∧ (me (atIssue 1 plain)).declares 0x8000 32768 = true) ∧
    (cwAssigned 0x040 = true ∧ l2divBusy (Work.begin (atIssue 1 plain)) 0x21084000 = false) ∧
    (cwAssigned 0xFFF = false ∧ 2 ^ 12 ≤ 0x1000) ∧
    (cwAssigned 0x100 = true ∧ cwOpenBit 0x100 = some 0 ∧ bit ((atIssue 1 plain).dev.launch 0).opens 0 = false ∧
      bit ({ opens := 1 } : Launch).opens 0 = true) :=
  ⟨rfl, ⟨rfl, rfl, rfl, rfl⟩, by decide, by decide, ⟨by decide, by decide +kernel⟩, by decide, by decide⟩
theorem witness_NestForms : Takes (atIssue 1 plain) ∧ On (atIssue 1 plain) ∧
    (Reads (atIssue 1 plain) 6 0x800 ∧ Safety.Port (atIssue 1 plain) 5 2 0 0 ∧ (me (atIssue 1 plain)).declares 0x800 128 = true) ∧
    (Safety.Port (atIssue 1 plain) 5 2 8 8 ∧ 0x808 % 32 ≠ 0) ∧ Reads (atIssue 1 { plain with s := [(6, 0x10000)] }) 6 0x10000 ∧
    (me (atIssue 1 { plain with s := [(6, 0x10000)] })).declares 0x10000 128 = false ∧
    Safety.Port (atIssue 1 plain) 5 2 5 5 ∧ Safety.Port (atIssue 1 plain) 5 2 13 13 ∧ Safety.Port (atIssue 1 plain) 5 2 14 14 ∧
    Safety.Port (atIssue 1 plain) 5 2 3 3 :=
  ⟨rfl, rfl, ⟨rfl, rfl, rfl⟩, ⟨rfl, by decide⟩, rfl, rfl, rfl, rfl, rfl, rfl⟩
/-- A drain bundle. -/
def drains (gn : Bool) : State :=
  { placed 1 pointers with dev := { (placed 1 pointers).dev with issue := { slot := 1, pc := 0x10000, d := true, gn := gn } } }
theorem witness_ContextPark : (placed 1 pointers).dev.issue.d = false ∧ ((drains true).dev.issue.d = true ∧ Off (drains true)) ∧
    On (drains false) ∧ Reads (drains false) 6 0x10000 ∧ Safety.Port (drains false) 5 2 0 0 ∧
    ((me (drains false)).qops = [] ∧ (me (drains false)).outs = [] ∧ (me (drains false)).accs = [] ∧ (me (drains false)).flights = [] ∧
      (myCore (drains false)).passes = []) ∧
    ∃ line, parkLine (Work.begin (drains false)) 0x10000 = .ok line :=
  ⟨rfl, ⟨rfl, rfl⟩, rfl, rfl, rfl, ⟨rfl, rfl, rfl, rfl, rfl⟩, okAnd_ok (by decide +kernel)⟩

-- The V slots

/-- A context with two vector registers of FP32 1.0 and 2.0 in lane 0, and 0x46A, a conversion to E4M3 in part 1, in s8. -/
def vectors : Ctx := { plain with v := [(4, 0x3F800000), (5, 0x40000000)], vm := [(3, 5)], s := [(8, 0x46A), (9, 0x0C52)] }
theorem witness_VectorForms : Takes (atIssue 2 vectors) ∧ VReads (atIssue 2 vectors) (.fmt .fp32) 4 0x3F800000 ∧
    VPort (atIssue 2 vectors) (.fmt .fp32) 1 5 0x40000000 ∧ VReads (atIssue 2 vectors) (.fmt .fp32) (BitVec.setWidth 7 (4 : BitVec 5)) 0x3F800000 ∧
    VPort (atIssue 2 vectors) (.bare 32) 1 5 0x40000000 ∧ VReads (atIssue 2 vectors) (.fmt .int16) 4 0x3F800000 ∧
    VPort (atIssue 2 vectors) (.fmt .int16) 1 5 0x40000000 ∧ VReads (atIssue 2 vectors) .groups 4 0x3F800000 ∧
    VPort (atIssue 2 vectors) .groups 1 5 0x40000000 ∧ VReads (atIssue 2 vectors) (.bare 8) 4 0x3F800000 ∧
    floatOf 3 = .fp16 ∧ intOf 3 = .int32 := ⟨rfl, rfl, rfl, rfl, rfl, rfl, rfl, rfl, rfl, rfl, rfl, rfl⟩
theorem witness_VectorConversions : (VPort (atIssue 2 vectors) .groups 1 0x28 (View.groups.scalar 0x46A) ∧
      Fmt.ofCode 10 = some .fp32 ∧ Fmt.ofCode 6 = some .e4m3 ∧ 1 < 32 / min 32 8) ∧
    (lane0 (View.groups.scalar 0x0C52)).toNat = 0x0C52 ∧ 0x0C52 % 16 = 2 ∧ bits 0x0C52 7 4 = 5 ∧ bits 0x0C52 12 10 = 3 ∧
    (VPort (atIssue 2 vectors) .groups 2 0 0 ∧ (lane0 0).toNat % 16 = 0) := by
  refine ⟨⟨rfl, by decide, by decide, by decide⟩, ?_, by decide, by decide, by decide, rfl, ?_⟩ <;> decide +kernel
theorem witness_VectorReductions_none : actives (elements 32 (0x3F800000 : Vec)) (activeList 32 0) = [] := by decide +kernel
/-- A walk of one element of the local store. -/
def walker : Ctx := { vectors with nest := [(5, image 3 10 0 1 4)], acc := 0x81 }
theorem witness_VectorMemoryAndAccumulators : VReads (atIssue 2 walker) .groups 6 0 ∧
    (me (atIssue 2 walker)).nest.get 5 0 = image 3 10 0 1 4 ∧ nestValid (image 3 10 0 1 4) = true ∧
    nestKind (image 3 10 0 1 4) = 3 ∧
    ((walkElems (image 3 10 0 1 4) (lanes (atIssue 2 walker)) 0).all fun e =>
      decide (e.2 % (nestUnit (image 3 10 0 1 4) : Int) = 0) && decide (0 ≤ e.2) &&
        (me (atIssue 2 walker)).declares e.2.toNat (nestUnit (image 3 10 0 1 4))) = true ∧
    (walkElems (image 3 10 0 1 4) (lanes (atIssue 2 walker)) 0).length = 1 ∧
    VPort (atIssue 2 walker) .groups 2 0 0 ∧ (me (atIssue 2 walker)).unit 0 = some 0 ∧ (me (atIssue 2 walker)).unit 7 = some 7 ∧
    (lane0 0).toNat = 0 := by
  refine ⟨rfl, rfl, ?_, ?_, ?_, ?_, rfl, ?_, ?_, ?_⟩ <;> decide +kernel
/-- The V0 slot with the lane mask vm3. -/
def masked : State := { dev := { (atIssue 2 vectors).dev with issue := { slot := 2, pc := 0x10000, mv0 := 3 } } }
theorem witness_VectorMaskForms : laneSel (Work.begin (atIssue 2 vectors)) = 0 ∧ laneSel (Work.begin masked) ≠ 0 := by decide

-- The matrix engine and the copy engines

/-- Nest register 1 walks 262,144 INT8 weights by virtual address, 2 one row of 1,024 activations, 3 and 4 eight FP32. -/
def engines : Ctx := { plain with
  s := [(4, 0x10001), (5, 0x80), (6, 0x800)], acc := 0x81
  nest := [(0, image 3 2 0 1024 1), (1, image 1 2 0 262144 1), (3, image 3 10 0 8 4), (4, image 3 10 0x400 8 4)] }
/-- Core 0 with a loaded weight bank of INT8. -/
def atEngine (slot : Nat) (c : Ctx) (k : Core) : State :=
  { dev := { (atIssue slot c).dev with cores := [(0, { k with clk := 5, raw := 5, wb := [(0, { st := .loaded, fmt := 2, stale := false })] })] } }
/-- A pass of unit 0 on weight bank 0. -/
def onePass : Pass :=
  { ctx := 0, fwd := false, img := 0, u0 := 0, u1 := 0, row0 := 0, rows := 1, ch := 0, split := 0, win := 64, add := false, af := 0,
    wbank := 0, pc := 0, seq := 0, start := 0, snap := [], reloc := 0, fser := 0 }
theorem witness_WeightLoads : Reads (atEngine 4 engines {}) 0 0 ∧ (myCore (atEngine 4 engines {})).strm.length < 2 ∧
    okAnd (wordCheck (Work.begin (atEngine 4 engines {})) 0) (fun x => decide (x = 0)) = true ∧
    (myCore (atEngine 4 engines {})).bound 0 = false ∧ nestValid (image 1 2 0 262144 1) = true ∧
    okAnd (walkCheck (Work.begin (atEngine 4 engines {})) (image 1 2 0 262144 1) 0 false) (fun _ => true) = true ∧
    nestPositions (image 1 2 0 262144 1) = 262144 ∧ passClass (nestFormat (image 1 2 0 262144 1)) = passClass .int8 ∧
    (quireOf (atEngine 4 engines {}).dev 0 0).length = 1 ∧ nestValid 0 = false ∧
    (myCore (atEngine 4 engines { passes := [onePass] })).bound 0 = true := by
  refine ⟨rfl, ?_, ?_, rfl, ?_, ?_, ?_, ?_, ?_, ?_, ?_⟩ <;> decide +kernel
/-- A quire of two, cores 0 and 1, whose lead 0 has a broadcast load in its stream; core 1 issues. -/
def follower : State := { dev := { mode := .running, issue := { core := 1, slot := 4, follows := true }
                                   ctxs := [(0, { engines with lead := 0, qlog := 1 }), (2, { engines with lead := 0, qlog := 1 })]
                                   launches := [(0, { gang := [[0, 1]] })]
                                   cores := [(0, { strm := [{ form := 1, wbank := 0, id := 7, ctx := 0, pc := 0 }] }), (1, {})] } }
theorem witness_WeightLoads_follower : (me follower).lead ≠ follower.dev.issue.core ∧ (leadLoad (Work.begin follower)).isSome = true ∧
    (quireOf follower.dev 1 0).length ≠ 1 ∧ (myCore follower).bound 0 = false := by decide +kernel
theorem witness_Passes : Reads (atEngine 4 engines {}) 4 0x10001 ∧ Reads (atEngine 4 { engines with s := [(4, 0x10000)] } {}) 4 0x10000 ∧
    okAnd (passHold (Work.begin (atEngine 4 engines {}))) (fun _ => true) = true ∧
    (let n := 0x10000
     bit n 7 = false ∧ bits n 15 14 = 0 ∧ bit n 23 = false ∧ n < 2 ^ 25 ∧ 1 ≤ bits n 22 16 ∧ bits n 22 16 ≤ 64 ∧
      bits n 13 8 + bits n 22 16 ≤ 64 ∧ bits n 6 4 % 2 = 0) ∧
    (nestValid (image 3 2 0 1024 1) = true ∧ nestKind (image 3 2 0 1024 1) = 3 ∧ nestPositions (image 3 2 0 1024 1) = 1024) ∧
    (match passClass .int8 with
      | some k => classPair .int8 .int8 && classAcc k 0 && !classPairs k 0 && decide (0 ≤ k.maxSplit) && !k.isInt4
      | none => false) = true ∧ engines.unit 0 = some 0 ∧
    okAnd (walkCheck (Work.begin (atEngine 4 engines {})) (image 3 2 0 1024 1) 0 false) (fun _ => true) = true ∧
    bit 0x80 7 = true ∧ bits 0x400000 22 16 = 64 ∧ bits 0x410000 22 16 = 65 ∧ nestValid (engines.nest.get 9 0) = false := by
  refine ⟨rfl, rfl, ?_, ?_, ?_, ?_, ?_, ?_, ?_, ?_, ?_, ?_⟩ <;> decide +kernel
theorem witness_MatrixStateForms : okAnd (writableUnits (Work.begin (atEngine 4 engines {})) [0, 7]) (fun _ => true) = true ∧
    (bit 2 1 = true ∧ (1 < 8 ∧ (me (atEngine 4 engines {})).unit 1 = none)) ∧
    (Reads (atEngine 4 engines {}) 0 0 ∧ bits 0 7 3 = 0 ∧ (me (atEngine 4 engines {})).unit 0 = some 0 ∧
      Safety.Port (atEngine 4 engines {}) 6 2 1 1 ∧ (myCore (atEngine 4 engines {})).writes 0 = false) ∧
    (Reads (atEngine 4 engines {}) 6 0x800 ∧ bits 0x800 7 3 = 0) ∧ (Reads (atEngine 4 engines {}) 5 0x80 ∧ bits 0x80 7 3 ≠ 0) := by
  refine ⟨?_, ?_, ⟨rfl, ?_, ?_, rfl, rfl⟩, ⟨rfl, ?_⟩, rfl, ?_⟩ <;> decide +kernel
theorem witness_CopyForms : Reads (atEngine 5 engines {}) 0 0 ∧ Safety.Port (atEngine 5 engines {}) 7 2 0 0 ∧
    ((myCore (atEngine 5 engines {})).engineCmds 0).length < 16 ∧
    ([1, 3].all fun f => nestsOk f 0 (image 3 10 0 8 4) (image (if f = 3 then 1 else 3) 10 0x400 8 4) 0) = true ∧
    nestsOk 1 0 0 0 0 = false ∧ okAnd (copyOperation 1 0 (image 3 10 0 8 4) (image 3 10 0x400 8 4) 0) (fun _ => true) = true ∧
    okAnd (copyWalks (Work.begin (atEngine 5 engines {})) 1 0 (image 3 10 0 8 4) (image 3 10 0x400 8 4) 0) (fun _ => true) = true := by
  refine ⟨rfl, rfl, ?_, ?_, ?_, ?_, ?_⟩ <;> decide +kernel
/-- qb7 bound to a queue of command packets, or to a data queue. -/
def boundCommands (role elog : Nat) : Ctx :=
  { pointers with qb := [(7, { st := .bound, handle := 0x20000, cb := 0x20000, home := 3, elog := elog, role := role })] }
theorem witness_CopyForms_control : okAnd (boundTo (Work.begin (atIssue 5 (boundCommands 1 6))) 7) (fun b => decide (b.role = 1)) = true ∧
    okAnd (boundTo (Work.begin (atIssue 5 (boundCommands 0 6))) 7) (fun b => decide (b.role = 0)) = true ∧
    okAnd (boundTo (Work.begin (atIssue 5 (boundCommands 3 3))) 7) (fun b => decide (b.elog = 3)) = true ∧
    0x100 % 32 = 0 ∧ (me (atIssue 5 (boundCommands 1 6))).declares 0x100 64 = true ∧
    armedCount { armed := [{ va := 8, pa := 8, count := 3, from_ := 0 }] } 5 8 = some 3 ∧ armedCount {} 5 8 = none ∧
    0x101 % 32 ≠ 0 ∧ plain.declares 0x800 5152 = true ∧ plain.declares 0x10000 5152 = false := by decide +kernel
/-- A state with a sound queue block of four slots of 64 bytes at an address, homed at slice 3. -/
def withQueue (σ : State) (cb role owner : Nat) : State :=
  ((Work.begin σ).setBlock cb (freshBlock 2 role (cb + 0x1000) owner 3 false)).commit
/-- The C0 slot is about to issue `cp.q`, in the cycle that asks its home or with an answer. -/
def packeting (asks : Bool) (ps : List Packet) : State :=
  { dev := { (atIssue 5 (boundCommands 1 6)).dev with
    ctxs := [(0, { boundCommands 1 6 with packets := ps })]
    issue := { slot := 5, pc := 0x10000, asks := asks } } }
theorem witness_CopyForms_packet : Takes (packeting true []) ∧ Reads (packeting true []) 8 0x100 ∧
    ((me (packeting true [])).packetOf 0x10000 5 = none ∧ (packeting true []).dev.issue.asks = true) ∧
    [0, 38].all (fun n => decide ((me (packeting false [{ pc := 0x10000, slot := 5, lvl := 0, op := 3, ans := some n }])).packetOf 0x10000 5 =
      some { pc := 0x10000, slot := 5, lvl := 0, op := 3, ans := some n })) = true := by
  refine ⟨rfl, rfl, ⟨?_, rfl⟩, ?_⟩ <;> decide +kernel
/-- A copy command of the context runs on its engine, or a quiesce of it is in progress. -/
def busyEngine (qui : List (Nat × Nat)) (running : Bool) : State :=
  { dev := { (atEngine 5 engines {}).dev with
    cores := [(0, { clk := 5, raw := 5, cmdSer := 9, qui := qui, ce := [(0, [.cmd
      { id := 3, form := 1, ctx := 0, a := 0, b := 0, pc := 0, word := 0, wordPa := 0, n1 := 0, n2 := 0, n3 := 0, order := 0, running := running }])] })]
    issue := { slot := 5, pc := 0x10000, asks := true } } }
theorem witness_CopyForms_quiesce : (Work.begin (busyEngine [] true)).engine = 0 ∧ Reads (busyEngine [] true) 6 0x800 ∧
    (me (busyEngine [] true)).declares 0x800 5152 = true ∧ runsOn (myCore (busyEngine [] true)) 0 0 = true ∧
    runsOn (myCore (busyEngine [] false)) 0 0 = false ∧ (myCore (busyEngine [] true)).qui.contains (0, 0) = false ∧
    (busyEngine [] true).dev.issue.asks = true ∧ (myCore (busyEngine [(0, 0)] true)).qui.contains (0, 0) = true ∧
    ((myCore (busyEngine [] false)).engineCmds 0).length = 1 ∧ (myCore (busyEngine [] false)).cmdSer = 9 := by
  refine ⟨rfl, rfl, ?_, ?_, ?_, ?_, rfl, ?_, ?_, rfl⟩ <;> decide +kernel

-- Encodings and a step

theorem witness_EncodingRoundTrip : readWord .s 0x037D082C = some (.add 2 0x7D 4 5 1) ∧ (Instr.add 2 0x7D 4 5 1).wf = true ∧
    encode (.add 2 0x7D 4 5 1) = [0x037D082C] := by decide
theorem witness_UnassignedWords : (1 : Word32) ≠ 0 ∧ (1 : Word32).extractLsb' 25 7 = 0 ∧
    ((0x3C000000 : Word32).extractLsb' 25 7).toNat = 0x1E ∧ ((0xFE000000 : Word32).extractLsb' 25 7).toNat = 0x7F ∧
    0x0C ≤ ((0x18000000 : Word32).extractLsb' 25 7).toNat ∧ 0x0E ≤ ((0x1C000000 : Word32).extractLsb' 25 7).toNat := by decide
/-- The state of the first clauses: a placed word at its step. -/
def stepping (w : Nat) : State := State.reset.withFetchWord 32 w
/-- The bundle of a placed word, its record, and the state in which it issues. -/
def steppingRecord (w : Nat) : Issued := ((beforeBundle (stepping w) 0 0 []).ctx 0 0).stands (bundleOf .s (BitVec.ofNat 32 w))
def steppingWork (w : Nat) : Work := (beforeBundle (stepping w) 0 0 []).takePlace 0 0 (steppingRecord w)
theorem witness_StepRunsDecoded_dev (w : Nat) (h : w = 0x037D082C ∨ w = 0xB2000000) :
    (stepping w).dev.mode = .running ∧ (stepping w).dev.turn = 0 :: [] ∧ misaligned (stepping w).dev 0 = false ∧
    unitOf (stepping w).dev 0 = [0] ∧ ((stepping w).dev.core 0).cur = 0 ∧ ((stepping w).dev.ctx 0 0).halt ≠ 2 ∧
    ((stepping w).dev.ctx 0 0).st = .ready ∧ ((stepping w).dev.ctx 0 0).lvl = 0 ∧
    ((afterLandings (stepping w) 0 0 []).ctx 0 0).st = .ready ∧ ((beforeBundle (stepping w) 0 0 []).ctx 0 0).st = .ready ∧
    ((afterLandings (stepping w) 0 0 []).ctx 0 0).lvl = 0 ∧ ((beforeBundle (stepping w) 0 0 []).ctx 0 0).lvl = 0 ∧
    startsLater (beforeBundle (stepping w) 0 0 []) 0 = false ∧ ((beforeBundle (stepping w) 0 0 []).ctx 0 0).owes = false ∧
    bit (bundleOf .s (BitVec.ofNat 32 w)) 31 = false ∧ hdrSync (bundleOf .s (BitVec.ofNat 32 w)) = 0 ∧
    ((steppingWork w).ctx 0 0).missing ((steppingWork w).core 0).clk = [] ∧
    (slotVerdicts (steppingWork w) 0 0 (steppingRecord w) false).all (fun v => decide (v.2 = .ok)) = true := by
  rcases h with h | h <;> subst h <;> decide +kernel
theorem witness_StepRunsDecoded_here (w : Nat) (h : w = 0x037D082C ∨ w = 0xB2000000) :
    fetchWaits (beforeBundle (stepping w) 0 0 []) 0 0 ((beforeBundle (stepping w) 0 0 []).ctx 0 0).pc = none := by
  rcases h with h | h <;> subst h <;> decide +kernel
theorem witness_StepRunsDecoded_settled :
    (match exec (.add 2 0x7D 4 5 1) ((steppingWork 0x037D082C).setIssue (issueFor 0 0 (steppingRecord 0x037D082C) false 1)).commit with
      | .next t => (endCycle (onward (Work.begin t) 0 0 (steppingRecord 0x037D082C)) 0 0).dev.coh.waits.isEmpty
      | _ => false) = true ∧
    (match exec .taskDone ((onward (steppingWork 0xB2000000) 0 0 (steppingRecord 0xB2000000)).setIssue
        { issueFor 0 0 (steppingRecord 0xB2000000) false 1 with sure := true }).commit with
      | .next t => (endCycle (Work.begin t) 0 0).dev.coh.waits.isEmpty
      | _ => false) = true := by
  refine ⟨?_, ?_⟩ <;> decide +kernel
/-- The same part while the granule of its bundles flips: the cycle waits for the bundle's line. -/
def stalling : State :=
  { stepping 0x037D082C with dev := { (stepping 0x037D082C).dev with coh := { (stepping 0x037D082C).dev.coh with
    flipping := [16] } } }
theorem witness_StepRunsDecoded_stalls :
    (stalling.dev.mode = .running ∧ stalling.dev.turn = 0 :: [] ∧ misaligned stalling.dev 0 = false) ∧
    ((((Work.begin stalling).mapDev fun d => { d with turn := [] }).coreCycle (unitOf stalling.dev 0)).dev.coh.waits.isEmpty = false) := by
  refine ⟨?_, ?_⟩ <;> decide +kernel
theorem witness_StepRunsDecoded_forms : controls (bundleOf .s 0x037D082C) = false ∧ controls (bundleOf .s 0xB2000000) = true ∧
    (decodeSlot .s (bundleWord (bundleOf .s 0xB2000000) 1) = .ok (some .taskDone)) ∧
    ([2, 3, 4, 5, 6].all fun m => decide (bundleWord (bundleOf .s 0xB2000000) m = 0)) = true := by
  refine ⟨?_, ?_, rfl, ?_⟩ <;> decide
theorem front_of_fetched (w : Work) (core bank b : Nat)
    (h : okAnd (fetchChecked w core bank (w.ctx core bank).pc (w.ctx core bank).arrivedBy) (fun x => decide (x = b)) = true)
    (hb : startsBody b = false) : front w core bank = (w, .ok b) := by
  obtain ⟨x, hf, hx⟩ := okAnd_sound h
  obtain rfl := of_decide_eq_true hx
  simp only [front]
  rw [hf]
  simp [hb]
theorem witness_StepRunsDecoded_fetch (w : Nat) (h : w = 0x037D082C ∨ w = 0xB2000000) :
    front (beforeBundle (stepping w) 0 0 []) 0 0 = (beforeBundle (stepping w) 0 0 [], .ok (bundleOf .s (BitVec.ofNat 32 w))) ∧
    rankIn (beforeBundle (stepping w) 0 0 []) [0] 0 0 = 0 ∧ overAsked (steppingWork w) 0 [(0, 0, steppingRecord w)] = [] := by
  refine ⟨front_of_fetched _ _ _ _ ?_ ?_, ?_, ?_⟩ <;> rcases h with h | h <;> subst h <;> decide +kernel
theorem witness_StepRunsDecoded_tripped : encode .deviceReset = [] ∧ encode (.partnerDetect true) = [] := by decide
theorem witness_StepKeepsMemoryForm : Safety.Inv State.reset ∧ (∃ t, step State.reset = .next t) ∧
    ∃ t, step (stepping 0x037D082C) = .next t := ⟨rfl, ⟨_, rfl⟩, ⟨_, rfl⟩⟩

-- The package, memory and scheduler events

theorem witness_PowerAndSensors : (97 * ({} : Dev).envelope ≤ 100 * 1455 ∧ 1455 ≤ ({} : Dev).envelope) ∧
    (100 * 1454 < 97 * ({} : Dev).envelope ∧ ({} : Dev).lowSince = none ∧ ({ lowSince := some 7 } : Dev).lowSince = some 7 ∧ 8 < 7 + 60000 ∧
      7 + 60000 ≤ 60007) ∧ ({} : Dev).envelope < 1501 ∧ ({ islands := [(3, { until_ := some 9 })] } : Dev).island 3 = { until_ := some 9 } ∧
    (∃ x ∈ [(460 : Int)], 460 ≤ x) ∧ (∀ x ∈ [(459 : Int)], x < 460) ∧
    (∀ n, n < 8 → ({} : Dev).zero95.get n false = false) ∧ ({} : Dev).layer.get 0 180 < 380 := by decide
theorem witness_Links : (({} : Dev).column 0).bus ≠ 3 ∧ (({ cols := [(0, { retrain := some 5 })], now := 5 } : Dev).column 0).retrain = some 5 ∧
    (∀ k, k < 4 → dieCut { bounds := [(1, 1)] } k = true → ([] : List Nat).contains k = true) ∧
    ((List.range 4).filter fun k => dieCut { bounds := [(0, 16), (2, 16)] } k && !([] : List Nat).contains k) = [0] ∧
    ((({ ports := [(2, { up := true, replays := List.replicate 32 0 })] } : Dev).ports.get 2 {}).up = true ∧
      32 < (0 :: (List.replicate 32 0).filter fun t => decide (0 < t + 600000)).length) ∧
    ((({} : Dev).ports.get 2 {}).up = false) ∧
    outsideWaits { cols := [(0, { retrain := some 5 })] } 0x1000 64 false = true ∧
    (rangeFault { mode := .running } 0 0x1000 64 false = 0 ∧ anyPrivate {} 0x1000 64 = false ∧ anySecure {} 0x1000 64 = false ∧
      outsideWaits {} 0x1000 64 false = false ∧ outsideWaits {} 0x1000 64 true = false ∧
      anyPoison (Work.begin State.reset) 0x1000 64 = false ∧ 0x1000 % 64 + 64 ≤ 64) := by decide +kernel
theorem witness_ResetAndRecovery : ((recordInForce {} 1).isSome = true ∧ (recordInForce {} 2).isSome = true ∧ (recordInForce {} 3).isSome = true ∧
      (usedCopy {} 0 none).isSome = true ∧ (recordInForce {} 2).all enablementOk = true) ∧ (recordInForce { flash := [] } 1).isSome = false ∧
    (usedCopy { flash := factoryFlash.filter fun f => decide (f.kind ≠ 0) } 0 none).isSome = false ∧
    (recordInForce { flash := factoryFlash.filter fun f => decide (f.kind ≠ 0) } 3).isSome = true ∧
    ({ st := 1 } : Recovery).st = 1 ∧ ({} : Recovery).st ≠ 1 ∧ ({ slen := 64 } : Recovery).slen ≠ 0 ∧
    0x100000 < ({ off := 0xFFFFF, len := 2 } : Recovery).off + 2 ∧ 0xF0000 + 0x10000 ≤ 0x100000 ∧
    ({ storing := some (2, 7) } : Recovery).storing = some (2, 7) := by decide +kernel
/-- An exchange of the first two pages of a column, the first chunk done or not. -/
def oneSwap (done : Nat) (flying : Bool) : Swap := { die := 0, f1 := 0, f2 := 0x10000, size := 4096, done := done, inFlight := flying }
theorem witness_SwapEvents : exchangeOk (Work.begin State.reset) 0 0 0x10000 65536 = true ∧ exchangeOk (Work.begin State.reset) 0 0 0 4096 = false ∧
    joined {} 0 0 = true ∧ joined { bounds := [(0, 16), (2, 16)], isolated := [0] } 0 2 = false ∧
    (movable (Work.begin State.reset) (oneSwap 1 false) = true ∧ holdsBlock (Work.begin State.reset) 0 4096 = false ∧
      holdsBlock (Work.begin { dev := { homes := [(0x40, {})] } }) 0 4096 = true) ∧
    (oneSwap 0 true).size = 4096 * ((oneSwap 0 true).done + 1) ∧ (oneSwap 0 true).f1 + 4096 ≤ (oneSwap 0 true).f2 ∧
    ([oneSwap 1 false].find? fun y => decide (y.die = 0) && decide (y.done = y.size / 4096)) = some (oneSwap 1 false) ∧
    (∀ x ∈ ([] : List Swap), x.die = 0 → x.inFlight = false) := by decide +kernel
theorem witness_FloorsRowsAndLayers : (({} : Dev).column 0).layers ≤ 1 ∧
    (({ cols := [(0, { layers := 2 })] } : Dev).column 0).layers = 1 + 1 ∧ neededLayers {} 0 ≤ 1 ∧
    neededLayers { parts := [(0, { granules := [(32, 1)] })] } 0 = 2 ∧ ({ powering := some 3 } : Column).powering.isSome = true := by
  decide +kernel

/-- A running partition 0 of cluster 0 and a launch whose header stands at 0x18000. -/
def queued (l : Launch) : Dev := { (placed 1 plain).dev with launches := [(0, { l with part := 0, hdrVa := 0x18000 })] }
theorem witness_AdmissionAndDependence : ((queued { st := 1 }).launch 0).st = 1 ∧ ((queued { st := 1 }).launch 0).admitted = false ∧
    (queued { st := 1 }).policy.get 0 0 = 0 ∧ (queued { st := 1 }).partRuns 0 = true ∧ (queued { st := 1 }).mode = .running ∧
    (match admitted (Work.begin { (placed 1 plain) with dev := queued { st := 1 } }) ((queued { st := 1 }).launch 0) with
      | .error (.ends _) => true
      | _ => false) = true ∧
    (match (Work.begin { (placed 1 plain) with dev := queued { st := 1 } }).devRecords 0 0 64 0x18000 4 with
      | .ok h => !headerOk h.2 { hdr := h.1 } false
      | .error _ => false) = true ∧
    ({ st := 1 } : Launch).dependsSince = none ∧ ({ st := 1, admitted := true, phase := .dependence none } : Launch).dependsSince = some none ∧
    ({} : Launch).din = 0 ∧
    (match (Work.begin (placed 1 plain)).devRead 0 0 0x10000 8 with
      | .ok _ => true
      | .error _ => false) = true ∧ ({ hdr := 2 ^ 640 } : Launch).din ≠ 0 ∧ ({} : Launch).ended = false ∧
    calWaits (queued { st := 1 }) {} = false ∧ ({} : Launch).quarantine = false ∧
    headerBusy (Work.begin (placed 1 plain)) {} = none ∧
    (match admitted (Work.begin { placed 1 plain with dev := { queued { st := 1 } with
        coh := { flipping := [1] } } }) ((queued { st := 1 }).launch 0) with
      | .error (.waits _) => true
      | _ => false) = true := by
  refine ⟨rfl, rfl, rfl, ?_, rfl, ?_, ?_, ?_, ?_, ?_, ?_, ?_, ?_, ?_, rfl, ?_, ?_⟩
  all_goals decide +kernel
/-- The launch's header, and its one variant for the placement of cluster 0, whose signature is `sig`. -/
def admissible (sig : Nat) : Work :=
  ((Work.begin { placed 1 plain with dev := queued { st := 1 } }).pwrite 0x18000 256 (placedHeader + 2 ^ (8 * 48) * 0x19000)).pwrite
    0x19000 32 (sig + 2 ^ 64 * 0x10000 + 2 ^ 128 * 0x10000)
theorem witness_AdmissionAndDependence_ok : okAnd (admitted (admissible (placementSig (queued {}) [0])) ((queued { st := 1 }).launch 0))
    (fun x => decide (x.1.flood = 0x10000)) = true := by decide +kernel
/-- A launch that floods on core 0 with tasks in its ranges, and one core's ebb reported. -/
def flooding (l : Launch) : Dev := { (placed 1 plain).dev with ctxs := [], launches := [(0, l)] }
theorem witness_Dispatches : pickLaunch {} 0 = none ∧
    pickLaunch (flooding { placedLaunch with ranges := [(0, (0, 1))] }) 0 = some 0 ∧
    (match launchExtents (Work.begin { dev := flooding placedLaunch }) 0 0 0 with
      | (.ok _, _) => true
      | (.missing _, _) => false
      | (.fails _, _) => false) = true ∧ mayDispatch {} 0 = true ∧ mayDispatch { dispatchAt := [(0, 4)] } 0 = false ∧ reservedCore 0 = false ∧ placedLaunch.floods = true ∧
    pickQuire (flooding placedLaunch) 0 0 = some ([0], 0) ∧
    (lowestSaved { saved := [{ task := 3, cluster := 0, areas := [0] }] }).isSome = true ∧ ({ st := 1 } : Launch).floods = false ∧
    (let l : Launch := { placedLaunch with ranges := [(1, (4, 6))] }
     (l.ranges.get 0 (0, 0)).2 ≤ (l.ranges.get 0 (0, 0)).1 ∧ victimOf (flooding l) l 0 = some 1 ∧ 2 ≤ 6 - 4) := by decide +kernel
/-- Core 0 has reported, or its launch waits at the barrier. -/
def reported : Dev := { flooding { placedLaunch with phase := .ebb } with ctxs := [(0, { st := .reported })] }
theorem witness_TideAndQuarantineEvents : mayRelease {} 0 = false ∧ mayRelease (flooding { placedLaunch with phase := .barrier 0 }) 0 = true ∧
    (reported.launch 0).gang.flatten.all (hasReported reported 0) = true ∧ (reported.launch 0).dout = 0 ∧
    (reported.launch 0).tides ≤ (reported.launch 0).tide + 1 ∧ ({ placedLaunch with tides := 2 } : Launch).tide + 1 < 2 ∧
    (let l : Launch := { placedLaunch with gang := [[0], [1]], audits := [{ kind := 1, subject := 0, core := 0, ok := false }] }
     l.audits = { kind := 1, subject := 0, core := 0, ok := false } :: [] ∧ l.st = 2 ∧ (∃ k ∈ l.gang.flatten, k ≠ 0) ∧
       (∀ k ∈ placedLaunch.gang.flatten, k = 0)) ∧
    (let h : Held := { task := 3, die := 0, since := 0, cause := 8 }
     let l : Launch := { placedLaunch with held := [h] }
     l.doutSince = none ∧ l.dependsSince = none ∧ l.held.find? (fun x => decide (x.task = h.task)) = some h) ∧
    nextQuarantined {} = none ∧ reservedFree {} = true ∧
    nextQuarantined { launches := [(5, { st := 1, admitted := true, quarantine := true })] } = some 5 ∧
    ({ st := 2, quarantine := true, began := true } : Launch).since + 600000000 ≤ 600000000 := by decide +kernel

-- The cores' events

theorem witness_CoreEvents_limits : ({ st := .ready, ppend := 1, dist := 65536 } : Ctx).busy = true ∧
    frozenOut { freeze := some (.limited, 1) } = true ∧ frozenOut { freeze := some (.sequencer, 0) } = false ∧
    ({} : Ctx).sync = none ∧
    (let d : Dev := { ctxs := [(0, { st := .ready, sync := some (2, 1, 0) })], now := 7 }
     (d.ctx 0 0).sync = some (2, 1, 0) ∧ (maskCores 0 1).all (heldAt (Work.begin { dev := d }) 0 2 1) = true ∧
      runsNow (Work.begin { dev := d }) 0 0 = some 0 ∧ 0 ∈ maskCores 0 1 ∧
      (maskCores 0 3).all (heldAt (Work.begin { dev := d }) 0 2 3) = false) ∧
    waitedOut {} = none ∧ waitedOut { freeze := some (.queueWait [4], 1) } = some [4] ∧
    ({ st := .parked (.line 5 (some 9) true) } : Ctx).st = .parked (.line 5 (some 9) true) ∧
    ({ st := .parked (.walk 5 9 10) } : Ctx).st = .parked (.walk 5 9 10) := by decide +kernel
/-- A command that has ended. -/
def endedCommand : CopyCmd := { id := 3, form := 1, ctx := 0, a := 0, b := 0, pc := 0, word := 0, wordPa := 0, n1 := 0, n2 := 0, n3 := 0, order := 0, running := true }
theorem witness_CoreEvents_completions : (∃ n s i, (AccessKind.load 8 true 2) = .load n s i) ∧
    ({ freeze := some (.sequencer, 3) } : Ctx).freeze = some (.sequencer, 3) ∧
    duePass {} 0 = none ∧ duePass { passes := [onePass] } 100 = some onePass ∧ onePass.done + 1 = onePass.rows ∧
    (let x : WCmd := { form := 0, wbank := 0, id := 7, ctx := 0, pc := 0, started := true, left := [] }
     (loadEnded (Work.begin { dev := { cores := [(0, { strm := [x] })] } }) 0).isSome = true) ∧
    (let x : WCmd := { form := 2, wbank := 0, id := 7, ctx := 0, pc := 0, started := true }
     x.due ≤ 0 ∧ (({} : Core).wb.get 0 {}).calAt + 300000000 ≤ 300000000) ∧
    copyEnded (Work.begin State.reset) 0 endedCommand = true ∧ copyEnded (Work.begin State.reset) 0 { endedCommand with running := false } = false ∧
    (([endedCommand].find? fun x => decide (x.id = 3)) = some endedCommand ∧ endedCommand.form ≠ 13) ∧
    (({ plain with st := .entering entry10 } : Ctx).trapLevel 10 = some 2 ∧ entry10.watch = none ∧ entry10.begun + plain.frzlim ≠ 0) ∧
    faultLanded (Work.begin State.reset) 0 0 = false ∧
    faultLanded (Work.begin (atIssue 1 { plain with outs := [{ outEntry (atIssue 1 plain) .load 2 none 0 0 40 none with
      res := some { val := 0, fault := some (8, 0) } }] })) 0 0 = true ∧
    preemptNow (Work.begin State.reset) [0] 0 = false ∧
    placeAreas { savePool := 0, saveSize := 0x100000 } 0x1000 1 [] = some [0] := by
  refine ⟨⟨8, true, 2, rfl⟩, ?_⟩
  decide +kernel
/-- A context asked to give way stands at a drain bundle. -/
def givingWay : State :=
  ((Work.begin { placed 1 plain with dev := { (placed 1 plain).dev with
    ctxs := [(0, { plain with ppend := 1, pc := 0x10000 })] } }).pwrite 0x10000 32 (0x50 + 2 ^ 31)).commit
theorem witness_CoreEvents_preemption : preemptNow (Work.begin givingWay) (quireOf givingWay.dev 0 0) 0 = true := by decide +kernel

-- The front end's events

/-- A command queue of partition 0 at 0x20000, homed at slice 3, with one slot taken, which holds a packet. -/
def slotted (v : Nat) (s : Stream) : State :=
  let w := (Work.begin { placed 1 plain with dev := { (placed 1 plain).dev with streams := [(0x20000, s)] } }).setBlock 0x20000
    (((freshBlock 2 1 0x21000 0 3 false).put 16 8 1).put 24 8 3).seal
  ((w.pwrite 0x21000 64 v).updHome 0x20000 fun h => { h with handle := 0x20000, role := 1, slice := 3 }).commit
/-- A packet with its check (R47); V as given. -/
def sealed (p : Nat) (v : Bool) : Nat := p + 2 ^ 496 * crc16 p 62 + (if v then 2 ^ 15 else 0)
/-- The same queue, poisoned, or with a block that its check does not pass. -/
def spoiled (f : Home → Home) (b : Nat) : State :=
  (((Work.begin (slotted 0 {})).updHome 0x20000 f).pwrite 0x20038 1 b).commit
theorem witness_PacketFetching_fetch : mayFetch (Work.begin State.reset) 0 = false ∧
    (mayFetch (Work.begin (slotted 0 {})) 0x20000 = true ∧ blockReason (Work.begin (slotted 0 {})) 0x20000 = 0) ∧
    (mayFetch (Work.begin (spoiled id 9)) 0x20000 = true ∧ blockReason (Work.begin (spoiled id 9)) 0x20000 = 8) ∧
    (mayFetch (Work.begin (spoiled (fun h => { h with pois := true }) 0)) 0x20000 = true ∧
      blockReason (Work.begin (spoiled (fun h => { h with pois := true }) 0)) 0x20000 = 9) ∧
    blockReason (((Work.begin (slotted 0 {})).setBlock 0x20000 ((freshBlock 2 0 0x21000 0 3 false).put 5 1 3).seal)) 0x20000 = 10 ∧
    (let d : Stream := { retryAt := some 0, stallAt := some 0 }
     d.retryAt = some 0 ∧ 0 ≤ (slotted 0 d).dev.now ∧ mayFetch (Work.begin (slotted 0 d)) 0x20000 = true) := by
  refine ⟨?_, ⟨?_, ?_⟩, ⟨?_, ?_⟩, ⟨?_, ?_⟩, ?_, ?_⟩ <;> decide +kernel
/-- What the fetcher reads in the head slot. -/
def slotRead (σ : State) : Nat := (Work.agentRead (feAgent (feDie (Work.begin σ) 0x20000)) 2 (headSlot (Work.begin σ) 0x20000) 64 (Work.begin σ)).1
theorem witness_PacketFetching_slots : ((Work.begin (slotted 0 {})).block 0x20000).used ≠ 0 ∧ pkV (slotRead (slotted 0 {})) = false ∧
    (pkV (slotRead (slotted (2 ^ 15) {})) = true ∧ pkCheck (slotRead (slotted (2 ^ 15 + 5) {})) = false) ∧
    pkSeq (slotRead (slotted (sealed 0x85 true) { seq := 3 })) ≠ 3 ∧
    (pkCheck (slotRead (slotted (sealed 0x85 true) {})) = true ∧ pkSeq (slotRead (slotted (sealed 0x85 true) {})) = 0) ∧
    packetReason (Work.begin (slotted 0 {})) 0x20000 (sealed 0x88 false) = 3 ∧
    packetReason (Work.begin (slotted 0 {})) 0x20000 (sealed (0x88 + 2 ^ 64 * 4) false) = 0 := by
  refine ⟨?_, ?_, ⟨?_, ?_⟩, ?_, ⟨?_, ?_⟩, ?_, ?_⟩ <;> decide +kernel

/-- The command queue's stream carries out a packet. -/
def carrying (p : Nat) (s : Stream) : State := slotted 0 { s with pkt := some p }
/-- A packet of a kind at word 0x10000, which memory that nothing has written reads as 0, with further fields. -/
def onWord (kind more : Nat) : Nat := kind + 2 ^ 64 * 0x10000 + more
theorem witness_Packets_current : ([0x80, 0x81, 0x82, 0x83, 0x84, 0x85, 0x86, 0x87, 0x88, 0x89, 0x8A, 0x8B, 0x8C, 0x8D].all fun k =>
      (current (Work.begin (carrying k {})) 0x20000 k).isSome && (current (Work.begin State.reset) 0x20000 k).isNone) = true ∧
    policyRuns (Work.begin (carrying 0x89 {})) 0x20000 = true ∧ freeLaunch (carrying 0x80 {}).dev = some 1 ∧
    policyRuns ((Work.begin (carrying 0x80 {})).mapDev fun d => { d with policy := [(0, 1)] }) 0x20000 = false ∧
    okAnd ((Work.begin (carrying 0 {})).feRead 0 0 0x10000 16) (fun _ => true) = true ∧
    okAnd ((Work.begin (carrying 0 {})).feRead 0 0 (2 ^ 56) 16) (fun _ => true) = false := by
  refine ⟨?_, ?_, ?_, ?_, ?_, ?_⟩ <;> decide +kernel
theorem witness_Packets_full : freeLaunch { launches := (List.range 64).map fun k => (k, {}) } = none := by decide +kernel
theorem witness_Packets_words : okAnd (evalTest (Work.begin (carrying 0 {})) 0x20000 (onWord 0x82 0)) (fun r => r.1) = true ∧
    okAnd (evalTest (Work.begin (carrying 0 {})) 0x20000 (onWord 0x82 (2 ^ 128))) (fun r => !r.1) = true ∧
    okAnd (evalTest (Work.begin (carrying 0 {})) 0x20000 (0x82 + 2 ^ 64 * 2 ^ 56)) (fun _ => true) = false ∧
    okAnd (signalWord (Work.begin (carrying 0 {})) 0 (onWord 0x83 0)) (fun _ => true) = true ∧
    okAnd (signalWord (Work.begin (carrying 0 {})) 0 (0x83 + 2 ^ 64 * 2 ^ 56)) (fun _ => true) = false ∧
    ({ waiting := true, limit := some 0 } : Stream).waiting = true ∧ ({} : Stream).waiting = false := by
  refine ⟨?_, ?_, ?_, ?_, ?_, rfl, rfl⟩ <;> decide +kernel
/-- Partition 0 has an event queue at 0x20000, and a record of it waits. -/
def recording (full : Bool) : State :=
  let σ := placed 1 plain
  let w := (Work.begin { σ with dev := { σ.dev with parts := [(0, { placedPart {} with evq := 0x20000 })],
                                                    events := [{ part := 0, kind := 0x90, body := 0 }] } }).setBlock 0x20000
    (((freshBlock 2 2 0x21000 0 3 false).put 16 8 (if full then 4 else 0)).put 24 8 (if full then 0 else 4)).seal
  w.commit
theorem witness_Packets_records : oldestRecord [] 0 = none ∧
    [true, false].all (fun full =>
      let w := Work.begin (recording full)
      (oldestRecord (recording full).dev.events 0).isSome && ((recording full).dev.partOf 0).evq == 0x20000 &&
      (recording full).dev.policy.get 0 0 == 0 && queueSlice w 0x20000 == 3 &&
      okAnd (translate w (deviceAsker w.dev 0 0) [.read] 0x20000) (fun x => x.pa == 0x20000 && (w.block x.pa).role == 2) &&
      (match (w.atHome 0x20000 3 0x20000 (w.dev.agentTime (feAgent 0)) .device (.enqueue 0 false)).1 with
        | .full => full
        | .done _ _ _ => !full
        | _ => false)) = true := by
  refine ⟨rfl, ?_⟩
  decide +kernel
/-- A graph object of one node, a SIGNAL, at 0x30000. -/
def graphed : State :=
  let h := 0x43474752 + 2 ^ 32
  ((((Work.begin (carrying (0x89 + 2 ^ 64 * 0x30000) {})).pwrite 0x30000 64 (h + 2 ^ 496 * crc16 h 62)).pwrite 0x30040 64
    (sealed (onWord 0x83 0) false))).commit
theorem witness_Packets_graphs : okAnd (readGraph (Work.begin graphed) 0 0 0x30000) (fun o => graphOk graphed.dev 0 o.1) = true ∧
    okAnd (readGraph (Work.begin graphed) 0 0 0x20000) (fun o => !graphOk graphed.dev 0 o.1) = true ∧ (liveGraphs graphed.dev 0).length < 16 ∧
    (let g : Graph := { tk := {}, addr := 0x30000, conc := false, snap := 0, nodes := [.running] }
     let two : Graph := { g with nodes := [.running, .waiting], snap := 2 ^ 37 }
     ({ fe := { graphs := [(4, g)] } } : Dev).fe.graphs.get? 4 = some g ∧ ({ nodeEnds := [(4, 0, 0)] } : Dev).nodeEnds.contains (4, 0, 0) = true ∧
      ({ g with nodes := [.done] } : Graph).over = true ∧ two.over = false) := by
  refine ⟨?_, ?_, ?_, ?_⟩ <;> decide +kernel
/-- A copy that has ended stands in the service of die 0. -/
def endedJob : CopyJob := { id := 9, tk := {}, part := 0, src := 0, dst := 0, len := 0, running := true }
theorem witness_Packets_services : ((List.range 4).find? fun d => (({ fe := { jobs := [(0, [endedJob])] } } : Dev).copies d).any fun x =>
      decide (x.id = 9) && x.ended) = some 0 ∧ serviceLoad (Work.begin (carrying 0x87 {})) 0 < 1024 ∧
    ((carrying 0x87 {}).dev.homes.any fun h => decide (h.2.slice / 512 = 0) && serviceDue (Work.begin (carrying 0x87 {})) h.1) = false ∧
    ({ fe := { flips := [{ tk := {}, next := 16, last := 17, toDevice := true, gran := some 16 }] } } : Dev).fe.flips.find?
      (fun f => decide (f.gran = some 16)) = some { tk := {}, next := 16, last := 17, toDevice := true, gran := some 16 } ∧
    okAnd (clearedBlock (Work.begin (carrying 0 {})) 0 0 0x20000) (fun x => x == 0x20000) = true ∧
    (∃ l ∈ ({ host := { dir := [{ line := 1024, owned := true, rts := 0 }] } } : Dev).host.dir, l.line / 64 = 16) ∧
    mayExpire { now := 600000 } 0 = true ∧ mayExpire {} 0 = false ∧
    clearRefused (Work.begin (carrying 0 { st := 1 })) 0x20000 0 0x20000 = true ∧
    clearRefused (Work.begin (carrying 0 {})) 0x20000 0 0x20000 = false ∧ queueNormal (Work.begin (carrying 0 {})) 0x20000 = true := by
  refine ⟨?_, ?_, ?_, ?_, ?_, ?_, ?_, ?_, ?_, ?_, ?_⟩ <;> decide +kernel
/-- Another queue of the partition, at 0x20040, quarantined. -/
def twoQueues : State := (((Work.begin (carrying 0 {})).setBlock 0x20040 (freshBlock 2 1 0x22000 0 3 false)).quarantineQueue 0x20040).commit
theorem witness_Packets_clear : clearRefused (Work.begin twoQueues) 0x20000 0 0x20040 = false ∧ queueNormal (Work.begin twoQueues) 0x20040 = false := by
  refine ⟨?_, ?_⟩ <;> decide +kernel

-- The host's requests

/-- A partition of a confidential tenant in a state, with function 1. -/
def tenant (st : Nat) : Part := { st := st, conf := true, clusters := 2, granules := [(8, 1)], vfs := [1], locked := [], started := [] }
def tenancy (st : Nat) : Dev := { mode := .running, parts := [(0, placedPart {}), (1, tenant st)] }
theorem witness_Partitions : ((tenancy 4).partOf 1).st = 4 ∧ (((tenancy 3).partOf 1).conf = true ∧ ((tenancy 3).partOf 1).st = 3 ∧
      (tenant 3).changesFrozen ((tenant 3).put 0 4) 0 = true) ∧
    (({ tenant 1 with locked := [1] } : Part).locked ≠ [] ∧ (tenant 1).changesFrozen ((tenant 1).put 4 0) 4 = true) ∧
    (tenancy 3).mode = .running ∧ ({} : Dev).mode ≠ .running ∧ (tenant 1).locked = [] ∧
    ((tenancy 1).partOf 1).st ≤ 1 ∧ (entryOk (tenancy 1) 1 ((tenant 1).put 0 4) = true ∨ entryOk (tenancy 1) 1 ((tenant 1).put 1 4) = true) ∧
    entryOk (tenancy 1) 1 { tenant 1 with clusters := 1 } = false ∧ vfOwner (tenancy 1) 2 = none ∧ vfOwner (tenancy 1) 1 = some 1 ∧
    ((tenancy 5).partOf 1).st = 5 ∧ 8 ∈ scrubGranules (tenancy 5) 1 ∧ scrubsQueues (tenancy 5) 1 = false ∧ 8 * 2 ^ 21 ≤ 0x1000000 ∧ 0x1000000 < (8 + 1) * 2 ^ 21 ∧
    ((tenancy 2).partOf 1).st = 2 ∧ ((tenancy 0).partOf 1).st ≠ 2 ∧
    (let d : Dev := { tenancy 2 with parts := [(1, { tenant 2 with locked := [1] })] }
     (d.partOf 1).conf = true ∧ 1 ∈ (d.partOf 1).locked ∧ 1 ∈ (d.partOf 1).vfs ∧ (d.fnConfig 1).put 1 0 5 ≠ d.fnConfig 1 ∧
       bindingFrozen d 1 = true) ∧ bindingFrozen (tenancy 1) 1 = false := by decide +kernel
theorem witness_SpdmRequests : (tenancy 1).spdmOf 1 = {} ∧ mailboxAnswers (tenancy 1) 1 = true ∧
    mailboxAnswers { mode := .recovery } 1 = false ∧ mailboxAnswers { mode := .recovery } 0 = true ∧ vfOwner (tenancy 1) 1 = some 1 ∧
    vfOwner (tenancy 1) 2 = none ∧ ({ mode := .recovery } : Dev).mode ≠ .running ∧
    (let d : Dev := { host := { policies := [(0, { open_ := 0, version := 3, digest := 0 })] } }
     d.host.policies.get? 0 = some { open_ := 0, version := 3, digest := 0 } ∧ packedBytes 0 8 8 ≤ 3) := by decide +kernel
/-- Function 1 acts for a plain partition of cluster 0 with a debug policy. -/
def debugged (opens : Nat) : Dev :=
  { mode := .running, parts := [(0, { placedPart {} with vfs := [1] })], host := { policies := [(0, { open_ := opens, version := 1, digest := 0 })] } }
theorem witness_DebugAndRegisters : answers {} 1 = false ∧ (answers (debugged 8) 1 = true ∧ debugOwn (debugged 8) 1 = true ∧
      bit (debugOpen (debugged 8) 1) 3 = true) ∧ bit (debugOpen (debugged 0) 1) 3 = false ∧ debugOwn (debugged 0) 1 = true ∧
    ({} : Ctx).busy = false ∧ (0x40000 ≤ 0x40008 ∧ 0x40008 < 0x50000) ∧ (0x20000 ≤ 0x20000 ∧ 0x3FFFF < 0x40000) ∧
    ({ st := 1 } : Recovery).st = 1 := by decide +kernel
/-- A line of the host window and one of stacked memory that the host's caches hold. -/
def hostLine : Nat := 0x8000000000000 / 64
theorem witness_HostMemoryRequests : (answers (debugged 0) 0 = true ∧ confRefused (tenancy 3) 0 0x1000000 8 = true) ∧
    (decide (0 < 8) && (linesOf (64 * hostLine) 8).all fun l => decide (regionOf (64 * l) = .host)) = true ∧
    ((linesOf 0x40 8).all fun l => decide (regionOf (64 * l) = .host)) = false ∧
    (confRefused (debugged 0) 0 0x40 8 = false ∧ rangeFault (debugged 0) 0 0x40 8 false = 0 ∧ anyPrivate (debugged 0) 0x40 8 = false ∧
      hostMay (debugged 0) 0 0x40 8 = true ∧ outsideWaits (debugged 0) 0x40 8 false = false ∧ outsideWaits (debugged 0) 0x40 8 true = false ∧
      0x40 % 64 + 8 ≤ 64 ∧ anyPoison (Work.begin { dev := debugged 0 }) 0x40 8 = false) ∧
    ((linesOf 0x40 8).any (hostOwns (debugged 0)) = false ∧ hostWaits (debugged 0) 0x40 8 false = false ∧
      hostWaits { debugged 0 with cols := [(0, { retrain := some 5 })] } 0x40 8 true = true ∧ hostCaches (debugged 0) 0x40 8 = true) ∧
    (debugged 0).sock.dir = [] ∧ (debugged 0).host.dir = [] ∧ hostMay (debugged 0) 1 0x40000000 8 = false ∧
    hostCaches { debugged 0 with coh := { devBias := [0] } } 0x40 8 = false ∧
    (linesOf 0x40 8).any (hostOwns { debugged 0 with host := { dir := [{ line := 1, owned := true, rts := 0 }] } }) = true ∧
    rangeFault { debugged 0 with cols := [(0, { layers := 0 })] } 0 0x40 8 true ≠ 0 ∧
    regionOf 0x40 ≠ .host ∧ (regionOf (64 * hostLine) = .host ∧ granuleOwned (debugged 0) 16 (granuleOf (64 * hostLine)) = true) := by decide +kernel
/-- Window 0 of function 1 is bound to the queue at 0x20000. -/
def windowed (role elog used : Nat) : State :=
  let σ := placed 1 plain
  let w := (Work.begin { σ with dev := { σ.dev with parts := [(0, { placedPart {} with vfs := [1] })],
                                                    host := { wins := [(16, { handle := 0x20000, cb := 0x20000 })] } } }).setBlock 0x20000
    ((((freshBlock 2 role 0x21000 0 3 false).put 5 1 elog).put 16 8 used).put 24 8 (4 - used)).seal
  w.commit
/-- The same with a block whose check is wrong. -/
def broken : State := ((Work.begin (windowed 0 6 0)).pwrite 0x20038 1 9).commit
theorem witness_QueueWindows : (answers (windowed 0 6 0).dev 1 = true ∧ hasWindow 1 0 = true ∧ hasWindow 1 8 = false ∧ answers {} 1 = false) ∧
    2 ^ 56 ≤ 2 ^ 56 ∧ (0x20000 < 2 ^ 56 ∧ 0x20000 % 64 = 0 ∧ functionPart (windowed 0 6 0).dev 1 = some 0 ∧
      okAnd (translate (Work.begin (windowed 0 6 0)) (deviceAsker (windowed 0 6 0).dev 0 0) [] 0x20000) (fun x => x.pa == 0x20000) = true ∧
      wholeQueue (Work.begin (windowed 0 6 0)) 0x20000 = true) ∧
    ((windowCheck (Work.begin (windowed 0 6 0)) 1 0).isNone = true ∧ (windowCheck (Work.begin broken) 1 0).isSome = true ∧
      (broken.dev.window 1 0).handle ≠ 0) ∧
    ((windowed 0 6 0).dev.window 1 1).handle = 0 ∧ ((Work.begin (windowed 0 3 0)).block 0x20000).elog = 3 ∧
    (match ((Work.begin (windowed 0 3 0)).windowOp 1 0 (.enqueue 7 false)).1 with
      | .done _ _ _ => true
      | _ => false) = true ∧ mayProduce 0 (.host 0) = true ∧
    (match ((Work.begin (windowed 1 6 0)).windowOp 1 0 .claim).1 with
      | .done _ _ _ => true
      | _ => false) = true ∧ ((Work.begin (windowed 1 6 0)).block 0x20000).role = 1 ∧ ((Work.begin (windowed 2 6 0)).block 0x20000).role = 2 ∧
    (windowCheck (Work.begin (windowed 2 6 0)) 1 0).isNone = true ∧
    (match ((Work.begin (windowed 0 6 4)).windowOp 1 0 (.enqueue 7 false)).1 with
      | .full => true
      | _ => false) = true ∧
    (match ((Work.begin (windowed 1 6 4)).windowOp 1 0 .claim).1 with
      | .full => true
      | _ => false) = true := by
  refine ⟨?_, ?_, ?_, ?_, ?_, ?_, ?_, ?_, ?_, ?_, ?_, ?_, ?_, ?_⟩ <;> decide +kernel
/-- The same queue, reached over the link of port 0. -/
def peered : State := { windowed 0 6 0 with dev := { (windowed 0 6 0).dev with ports := [(0, { up := true })] } }
theorem witness_QueueWindows_peer : (({} : Dev).ports.get 0 {}).up = false ∧ (peered.dev.ports.get 0 {}).up = true ∧ peered.dev.mode = .running ∧
    rangeFault peered.dev (portDie 0) 0x20000 64 false = 0 ∧ mayProduce ((Work.begin peered).block 0x20000).role .peer = true ∧
    reachable peered.dev (portDie 0) (queueSlice (Work.begin peered) 0x20000) = true ∧
    homeCheck (Work.begin peered) 0x20000 (queueSlice (Work.begin peered) 0x20000) .peer = none ∧
    homeCheck (Work.begin broken) 0x20000 (queueSlice (Work.begin broken) 0x20000) .peer = some 18 ∧ mayProduce 2 .peer = false ∧
    (match ((Work.begin peered).atHome 0x20000 3 0 (peered.dev.agentTime (portAgent 0)) .peer (.enqueue 7 false)).1 with
      | .done _ _ _ => true
      | _ => false) = true ∧
    (match ((Work.begin broken).atHome 0x20000 3 0 (peered.dev.agentTime (portAgent 0)) .peer (.enqueue 7 false)).1 with
      | .refused c => decide (c = 18)
      | _ => false) = true := by
  refine ⟨?_, ?_, ?_, ?_, ?_, ?_, ?_, ?_, ?_, ?_, ?_⟩ <;> decide +kernel

-- The guest socket

theorem witness_GuestLink : (∀ st ∈ [0, 1, 2, 3, 4, 5, 6], ({ st := st } : Sock).st = st) ∧ (1 % 16 &&& (15 ^^^ ({ st := 1 } : Sock).off)) ≠ 0 ∧
    (16 % 16 &&& (15 ^^^ ({ st := 1 } : Sock).off)) = 0 ∧ ({ off := 7 } : Sock).off ||| 8 % 16 = 15 ∧
    (({ mods := 3 } : Sock).mods &&& (15 ^^^ 3 % 16) = 0 ∧ ({ mods := 3 } : Sock).mods &&& (15 ^^^ 1 % 16) ≠ 0) ∧
    (({ helloBy := some 5, st := 2 } : Sock).helloBy = some 5 ∧ ({ now := 5 } : Dev).now = 5) ∧ ({} : Sock).helloBy = none ∧
    ({ st := 5, fence := some { cause := 58, part := 0, was := 4 } } : Sock).fence = some { cause := 58, part := 0, was := 4 } := by decide
/-- A socket in a state, bound to partition 0, with one of its queues, at 0x20000. -/
def socketed (k used : Nat) (s : Sock) : State :=
  let σ := placed 1 plain
  let cb := 0x20000 + 64 * k
  let b := freshBlock (guestShape k).1 (guestShape k).2 0x40000 0 512 false
  ((Work.begin { σ with dev := { σ.dev with
    sock := { s with part := 0, cbs := (List.range 10).map fun k => 0x20000 + 64 * k } } }).setBlock cb
      ((b.put 16 8 used).put 24 8 (2 ^ (guestShape k).1 - used)).seal).commit
/-- A HELLO that declares a bound of 10 us, eight queues and 64 KiB; an ACK of a control packet of a kind with SEQ 0. -/
def helloPacket : Nat := sealed (0x42 + 2 ^ 64 * 10 + 2 ^ 72 * 8 + 2 ^ 96 * 64) true
def ackPacket (kind : Nat) : Nat := sealed (0x41 + 2 ^ 64 * kind) true
theorem witness_GuestControlPackets_packets : helloOk { st := 2 } helloPacket = true ∧ helloOk { st := 2 } 0 = false ∧
    (let c (kind : Nat) (due : Option Nat) : CtlPkt := { kind := kind, seq := 0, due := due }
     ackOf {} (0x41 + 2 ^ 64 * 0x24) = none ∧
     ([0x20, 0x21, 0x22, 0x23, 0x24, 0x25].all fun k => decide (ackOf { ctl := [c k none] } (0x41 + 2 ^ 64 * k) = some (c k none)) &&
       ackOk (c k none) (0x41 + 2 ^ 64 * k)) = true ∧ guestPacketOk { st := 4 } (ackPacket 0x24) = true ∧
     (c 0x24 (some 5)).late 5 = true ∧ (c 0x24 (some 5)).late 4 = false ∧ guestPacketOk { st := 4 } 0x41 = false) ∧
    (guestPacketOk { st := 4 } (sealed 0x40 true) = true ∧ packedBytes (sealed 0x40 true) 20 4 = 0) ∧ packedBytes helloPacket 9 1 = 8 := by
  decide +kernel
/-- In Measuring and Admitted the queues are of the unowned resources, in a granule that no partition owns; one slot of gfq is
taken, with what it holds. -/
def measuring (s : Sock) (used p : Nat) : State :=
  (((Work.begin { dev := { mode := .running, sock := { s with cbs := (List.range 10).map fun k => 0x2000000 + 64 * k } } }).setBlock
    0x2000240 (((freshBlock 9 6 0x2010000 16 521 false).put 16 8 used).put 24 8 (512 - used)).seal).pwrite 0x2010000 64 p).commit
/-- The answer of gfq to the guest's slot claim. -/
def gfqAnswer (w : Work) (p : Nat) : HomeAns :=
  (w.atHome (guestCb w 9) (queueSlice w (guestCb w 9)) (guestCb w 9) (w.dev.agentTime guestAgent) (.guest (guestPart w.dev))
    (.enqueue p false)).1
theorem witness_GuestControlPackets_claims : ([2, 3].all fun st => match gfqAnswer (Work.begin (measuring { st := st } 0 0)) helloPacket with
      | .done _ _ _ => true
      | _ => false) = true ∧
    (match gfqAnswer (Work.begin (measuring { st := 3 } 512 0)) helloPacket with
      | .full => true
      | _ => false) = true ∧
    64 < ((Work.begin (measuring { st := 3 } 0 0)).block (guestCb (Work.begin (measuring { st := 3 } 0 0)) 9)).free ∧
    (pkKind 0x41 ≠ 0x42 ∧ pkKind helloPacket = 0x42 ∧ pkV helloPacket = true ∧ pkV 0x42 = false) ∧
    homeCheck (Work.begin (measuring { st := 2 } 0 0)) 0x2000240 (queueSlice (Work.begin (measuring { st := 2 } 0 0)) 0x2000240) (.guest 16) = none ∧
    (let s : Sock := { claims := [{ pos := 0, open_ := true }] }
     s.claims.find? (fun x => x.open_) = some { pos := 0, open_ := true }) := by
  refine ⟨?_, ?_, ?_, ?_, ?_, ?_⟩ <;> decide +kernel
/-- What the front end reads in the slot of gfq. -/
def gfqRead (p : Nat) : Nat := (Work.agentRead (feAgent 1) 2 0x2010000 64 (Work.begin (measuring { st := 2 } 1 p))).1
theorem witness_GuestControlPackets_reads : ({ claims := [{ pos := 0, at_ := 7, since := 7 }] } : Sock).claims = { pos := 0, at_ := 7, since := 7 } :: [] ∧
    pkV (gfqRead 0) = false ∧ (pkV (gfqRead (2 ^ 15 + 5)) = true ∧ pkCheck (gfqRead (2 ^ 15 + 5)) = false) ∧
    (pkV (gfqRead helloPacket) = true ∧ pkCheck (gfqRead helloPacket) = true) ∧
    (gfqDue { st := 2, measured := true, claims := [{ pos := 0, at_ := 7, since := 7 }] } 7 = true ∧
      gfqDue { st := 2, measured := false, claims := [{ pos := 0, at_ := 7, since := 7 }] } 7 = false) ∧
    (let w := Work.begin (measuring { st := 2 } 1 helloPacket)
     match (w.atHome (guestCb w 9) (queueSlice w (guestCb w 9)) (guestCb w 9) (w.dev.agentTime (feAgent 1)) .device (.dequeue false)).1 with
      | .done _ _ _ => true
      | _ => false) = true := by
  refine ⟨?_, ?_, ⟨?_, ?_⟩, ⟨?_, ?_⟩, ⟨?_, ?_⟩, ?_⟩ <;> decide +kernel
theorem witness_GuestControlPackets_places : ((Work.begin (socketed 8 0 { st := 4 })).placeCtl { kind := 0x25, seq := 0 } 0 0 id).dev.sock.ctl.length = 1 ∧
    ({ dir := [{ line := 1 }], leaving := true } : Sock).leaving = true ∧
    ({ dir := [{ line := 1, owned := true, rts := 0 }] } : Sock).dir ≠ [] ∧ ({} : Sock).dir = [] ∧ (packedBytes helloPacket 10 1 < 2 ∧
      packedBytes helloPacket 11 1 = 0 ∧ packedBytes helloPacket 24 38 = 0 ∧ guestPacketOk { st := 4 } helloPacket = true) ∧
    2 ≤ packedBytes (2 * 2 ^ 80) 10 1 ∧ packedBytes (1 * 2 ^ 160) 20 4 ≠ 0 := by
  refine ⟨?_, ?_, ?_, ?_, ?_, ?_, ?_⟩ <;> decide +kernel
theorem witness_GuestControlPackets_deadlines :
    (let s : Sock := { ctl := [{ kind := 0x20, seq := 7 }] }
     (s.ctl.find? fun c => [0x20, 0x21].contains c.kind && decide (c.seq = 7)) = some { kind := 0x20, seq := 7 } ∧
     (s.ctl.find? fun c => [0x22].contains c.kind && decide (c.seq = 7)) = none) := by decide
/-- A bound guest, and lines that it holds. -/
def bindDev : Dev := { (placed 1 plain).dev with sock := { st := 4, part := 0, dir := [{ line := 1, owned := true, rts := 0 }, { line := 2, owned := false, rts := 0 }] } }
theorem witness_GuestPorts : (bindDev.sock.leaving = false ∧ notGranted bindDev 0x40 64 = false) ∧ notGranted bindDev 0x40000000 64 = true ∧
    rangeFault bindDev 1 0x40 64 false = 0 ∧ anyPrivate bindDev 0x40 64 = false ∧
    (guestWaits bindDev 0x40 64 true = false ∧ guestWaits { bindDev with cols := [(0, { retrain := some 5 })] } 0x40 64 true = true) ∧
    crowdedOut bindDev.sock 3 = none ∧ ((bindDev.sock.dir.find? fun x => decide (x.line = 1)).any fun x => x.owned) = true ∧
    ((bindDev.sock.dir.find? fun x => decide (x.line = 3)).any fun x => x.owned) = false ∧
    outsideWaits bindDev 0xC0 64 true = false ∧ outsideWaits bindDev 0x40 64 true = true := by decide +kernel
theorem witness_GuestPorts_full (n : Nat) (h : 131072 ≤ n) :
    crowdedOut { dir := List.replicate n { line := 1, owned := true, rts := 0 } } 3 = some 1 := by
  have h0 : n ≠ 0 := by omega
  simp [crowdedOut, List.getLast?_replicate, h, h0]
theorem witness_GuestPorts_translations : okAnd (translate (Work.begin (placed 1 plain)) { part := 0, sec := false, die := 1 } [.atomic] 0x10000)
      (fun _ => true) = true ∧
    okAnd (translate (Work.begin (placed 1 plain)) { part := 0, sec := false, die := 1 } [.read] 0x200000) (fun _ => true) = false := by
  refine ⟨?_, ?_⟩ <;> decide +kernel
theorem witness_GuestPorts_claims : [0, 1].all (fun used =>
    let w := Work.begin (socketed 0 used { st := 4 })
    match (w.atHome (guestCb w 0) (queueSlice w (guestCb w 0)) (guestCb w 0) (w.dev.agentTime guestAgent) (.guest (guestPart w.dev))
        (.dequeue false)).1 with
      | .done _ _ _ => decide (used = 1)
      | .empty => decide (used = 0)
      | _ => false) = true := by decide +kernel

end Sys2Proof.Tests
end

section
/-! The scalar results of R299, R301 and R302: what each value of the model's ALU and multiplier is as arithmetic on the
operands' numbers, and that each form lands it. -/

namespace Sys2Proof.Proofs.ScalarResults

open Sys2Proof Sys2Proof.Machine Sys2Proof.Safety Sys2Proof.Laws

-- Sums, shifts and the order

theorem add_eq_ofNat (a b : Word) : a + b = BitVec.ofNat 64 (a.toNat + b.toNat) := by
  simp [BitVec.ofNat_add]

theorem sub_eq_ofInt (a b : Word) : a - b = BitVec.ofInt 64 (a.toInt - b.toInt) := by
  apply BitVec.eq_of_toInt_eq
  rw [BitVec.toInt_sub, BitVec.toInt_ofInt]

theorem shiftLeft_eq_ofNat (a : Word) (n : Nat) : a <<< n = BitVec.ofNat 64 (a.toNat * 2 ^ n) := by
  apply BitVec.eq_of_toNat_eq
  rw [BitVec.toNat_shiftLeft, BitVec.toNat_ofNat, Nat.shiftLeft_eq]

theorem shiftRight_eq_ofNat (a : Word) (n : Nat) : a >>> n = BitVec.ofNat 64 (a.toNat / 2 ^ n) := by
  rw [← Nat.shiftRight_eq_div_pow, ← BitVec.toNat_ushiftRight, BitVec.ofNat_toNat, BitVec.setWidth_eq]

theorem sshiftRight_eq_ofInt (a : Word) (n : Nat) : a.sshiftRight n = BitVec.ofInt 64 (a.toInt / 2 ^ n) := by
  rw [BitVec.sshiftRight_eq, Int.shiftRight_eq_div_pow]
  exact congrArg (fun d => BitVec.ofInt 64 (a.toInt / d)) (Int.natCast_pow 2 n)

/-- The bits that a rotation moves out at the top come in below those it moves up, so that their OR is a sum. -/
theorem rotateLeft_eq_ofNat (a : Word) (n : Nat) (hn : n < 64) :
    a.rotateLeft n = BitVec.ofNat 64 (a.toNat * 2 ^ n + a.toNat / 2 ^ (64 - n)) := by
  have hdisjoint : a <<< n &&& a >>> (64 - n) = 0#64 := by
    ext i hi
    by_cases h : i < n
    · simp [h]
    · simp [BitVec.getLsbD_of_ge a (64 - n + i) (by omega)]
  rw [BitVec.rotateLeft_def, Nat.mod_eq_of_lt hn, ← BitVec.add_eq_or_of_and_eq_zero _ _ hdisjoint, shiftLeft_eq_ofNat,
    shiftRight_eq_ofNat, BitVec.ofNat_add]

theorem min_signed_eq (a b : Word) : (if a.slt b then a else b) = BitVec.ofInt 64 (min a.toInt b.toInt) := by
  by_cases h : a.toInt < b.toInt
  · simp [BitVec.slt_iff_toInt_lt, h, Int.min_eq_left (Int.le_of_lt h)]
  · simp [BitVec.slt_iff_toInt_lt, h, Int.min_eq_right (Int.not_lt.mp h)]

theorem max_signed_eq (a b : Word) : (if a.slt b then b else a) = BitVec.ofInt 64 (max a.toInt b.toInt) := by
  by_cases h : a.toInt < b.toInt
  · simp [BitVec.slt_iff_toInt_lt, h, Int.max_eq_right (Int.le_of_lt h)]
  · simp [BitVec.slt_iff_toInt_lt, h, Int.max_eq_left (Int.not_lt.mp h)]

theorem min_unsigned_eq (a b : Word) : (if a.ult b then a else b) = BitVec.ofNat 64 (min a.toNat b.toNat) := by
  by_cases h : a.toNat < b.toNat
  · simp [BitVec.ult_iff_lt, BitVec.lt_def, h, Nat.min_eq_left (Nat.le_of_lt h)]
  · simp [BitVec.ult_iff_lt, BitVec.lt_def, h, Nat.min_eq_right (Nat.not_lt.mp h)]

theorem max_unsigned_eq (a b : Word) : (if a.ult b then b else a) = BitVec.ofNat 64 (max a.toNat b.toNat) := by
  by_cases h : a.toNat < b.toNat
  · simp [BitVec.ult_iff_lt, BitVec.lt_def, h, Nat.max_eq_right (Nat.le_of_lt h)]
  · simp [BitVec.ult_iff_lt, BitVec.lt_def, h, Nat.max_eq_left (Nat.not_lt.mp h)]

theorem lea_eq_ofNat (a b : Word) (n : Nat) : a + (b <<< n) = BitVec.ofNat 64 (a.toNat + b.toNat * 2 ^ n) := by
  rw [shiftLeft_eq_ofNat, BitVec.ofNat_add, BitVec.ofNat_toNat, BitVec.setWidth_eq]

-- Fields (R301)

/-- The width of the field that a descriptor names: its request, cut at bit 64. -/
def fieldWidth (f : Word) : Nat := min (f.toNat / 64 % 128) (64 - f.toNat % 64)

/-- The mask of a descriptor holds the bits of its field. -/
theorem fieldMask_getLsbD (f : Word) (i : Nat) (hi : i < 64) :
    (fieldMask f).getLsbD i = (decide (f.toNat % 64 ≤ i) && decide (i - f.toNat % 64 < fieldWidth f)) := by
  rw [show fieldMask f = BitVec.ofNat 64 ((2 ^ fieldWidth f - 1) * 2 ^ (f.toNat % 64)) from rfl, BitVec.getLsbD_ofNat,
    Nat.testBit_mul_two_pow, Nat.testBit_two_pow_sub_one, decide_eq_true hi, Bool.true_and]

theorem extractField_eq_ofNat (a f : Word) :
    extractField a f = BitVec.ofNat 64 (a.toNat / 2 ^ (f.toNat % 64) % 2 ^ fieldWidth f) := by
  apply BitVec.eq_of_getLsbD_eq
  intro i hi
  have hw : fieldWidth f ≤ 64 - f.toNat % 64 := Nat.min_le_right _ _
  rw [extractField, BitVec.getLsbD_ushiftRight, BitVec.getLsbD_and, BitVec.getLsbD_ofNat, Nat.testBit_mod_two_pow,
    Nat.testBit_div_two_pow, Nat.add_comm i]
  by_cases h : i < fieldWidth f
  · rw [fieldMask_getLsbD f _ (by omega)]
    simp [h, hi, BitVec.testBit_toNat]
  · by_cases hlow : f.toNat % 64 + i < 64
    · rw [fieldMask_getLsbD f _ hlow]
      simp [h]
    · simp [h, BitVec.getLsbD_of_ge _ _ (Nat.not_lt.mp hlow)]

theorem placeField_eq_ofNat (a f : Word) :
    placeField a f = BitVec.ofNat 64 (a.toNat % 2 ^ fieldWidth f * 2 ^ (f.toNat % 64)) := by
  apply BitVec.eq_of_getLsbD_eq
  intro i hi
  rw [placeField, BitVec.getLsbD_and, BitVec.getLsbD_shiftLeft, fieldMask_getLsbD f i hi, BitVec.getLsbD_ofNat,
    Nat.testBit_mul_two_pow, Nat.testBit_mod_two_pow, BitVec.testBit_toNat]
  by_cases h : f.toNat % 64 ≤ i
  · simp [h, hi, Nat.not_lt.mpr h, Bool.and_comm]
  · simp [h]

-- Counts of bits

/-- The first n of N places satisfy p and the next does not: n is the length of the run. -/
theorem length_takeWhile_range (p : Nat → Bool) (n N : Nat) (hn : n ≤ N) (hrun : ∀ i < n, p i = true)
    (hstop : n < N → p n = false) : ((List.range N).takeWhile p).length = n := by
  obtain ⟨k, rfl⟩ := Nat.exists_eq_add_of_le hn
  rw [List.range_add, List.takeWhile_append_of_pos fun i hi => hrun i (List.mem_range.mp hi)]
  cases k with
  | zero => simp
  | succ k => simp [List.range_succ_eq_map, hstop]

theorem ctzFrom_eq_run (n x : Nat) : ctzFrom n x = ((List.range n).takeWhile fun i => !x.testBit i).length := by
  induction n generalizing x with
  | zero => rfl
  | succ n ih =>
    rw [ctzFrom, ih, List.range_succ_eq_map, List.takeWhile_cons, List.takeWhile_map]
    by_cases h : x % 2 = 1
    · simp [h, Nat.testBit_zero]
    · simp [h, Nat.testBit_zero, Function.comp_def, Nat.testBit_succ, Nat.add_comm]

theorem popFrom_eq_count (n x : Nat) : popFrom n x = ((List.range n).filter fun i => x.testBit i).length := by
  induction n generalizing x with
  | zero => rfl
  | succ n ih =>
    rw [popFrom, ih, List.range_succ_eq_map, List.filter_cons, List.filter_map]
    by_cases h : x % 2 = 1
    · simp [h, Nat.testBit_zero, Function.comp_def, Nat.testBit_succ, Nat.add_comm]
    · simp [Nat.mod_two_ne_one.mp h, Nat.testBit_zero, Function.comp_def, Nat.testBit_succ]

theorem lt_two_pow_bitLen (x : Nat) : x < 2 ^ bitLen x := by
  by_cases h : x = 0
  · simp [h, bitLen]
  · simpa [h, bitLen] using Nat.lt_log2_self

theorem bitLen_le {x n : Nat} (h : x < 2 ^ n) : bitLen x ≤ n := by
  by_cases hx : x = 0
  · simp [hx, bitLen]
  · simpa [hx, bitLen, Nat.succ_le_iff] using (Nat.log2_lt hx).mpr h

/-- The highest significant bit is one. -/
theorem testBit_bitLen {x : Nat} (h : 0 < bitLen x) : x.testBit (bitLen x - 1) = true := by
  have hx : x ≠ 0 := by rintro rfl; simp [bitLen] at h
  simpa [hx, bitLen] using Nat.testBit_log2 hx

theorem clz64_eq_run (a : Word) : clz64 a = ((List.range 64).takeWhile fun i => !a.getLsbD (63 - i)).length := by
  have hlen : bitLen a.toNat ≤ 64 := bitLen_le a.isLt
  refine (length_takeWhile_range _ (clz64 a) 64 (Nat.sub_le _ _) (fun i hi => ?_) fun hlt => ?_).symm
  · have hclear : a.toNat < 2 ^ (63 - i) :=
      Nat.lt_of_lt_of_le (lt_two_pow_bitLen _) (Nat.pow_le_pow_right (by decide) (by rw [clz64] at hi; omega))
    simp [← BitVec.testBit_toNat, Nat.testBit_lt_two_pow hclear]
  · rw [clz64] at hlt
    have htop : 63 - clz64 a = bitLen a.toNat - 1 := by rw [clz64]; omega
    simp [← BitVec.testBit_toNat, htop, testBit_bitLen (x := a.toNat) (by omega)]

-- Sizes

/-- The sign of an n-bit value, told by doubling it. -/
theorem ofInt_sx (n x : Nat) (hn : 0 < n) :
    BitVec.ofInt 64 (sx n x) = if 2 * (x % 2 ^ n) < 2 ^ n then BitVec.ofNat 64 (x % 2 ^ n)
      else BitVec.ofInt 64 ((x % 2 ^ n : Nat) - (2 : Int) ^ n) := by
  have hpow : 2 ^ (n - 1) * 2 = 2 ^ n := Nat.two_pow_pred_mul_two hn
  by_cases h : x % 2 ^ n < 2 ^ (n - 1)
  · have h2 : 2 * (x % 2 ^ n) < 2 ^ n := by omega
    simp only [sx, h, h2, if_true, BitVec.ofInt_natCast]
  · have h2 : ¬ 2 * (x % 2 ^ n) < 2 ^ n := by omega
    simp only [sx, h, h2, if_false]
    exact congrArg (fun d => BitVec.ofInt 64 ((x % 2 ^ n : Nat) - d)) (Int.natCast_pow 2 n)

-- Products and quotients (R302)

theorem mul_eq_ofNat (a b : Word) : a * b = BitVec.ofNat 64 (a.toNat * b.toNat) := by
  simp [BitVec.ofNat_mul]

/-- A zero divisor, as the model and as the rule test it. -/
theorem eq_zero_iff_toNat (b : Word) : b = 0 ↔ b.toNat = 0 := BitVec.toNat_eq

theorem divSigned_eq (a b : Word) : divSigned a b =
    if b.toNat = 0 then BitVec.ofInt 64 (-1) else BitVec.ofInt 64 (a.toInt.tdiv b.toInt) := by
  have hq : a.sdiv b = BitVec.ofInt 64 (a.toInt.tdiv b.toInt) := by
    apply BitVec.eq_of_toInt_eq
    rw [BitVec.toInt_sdiv, BitVec.toInt_ofInt]
  simp only [divSigned, eq_zero_iff_toNat, hq]
  rfl

theorem divUnsigned_eq (a b : Word) : divUnsigned a b =
    if b.toNat = 0 then BitVec.ofNat 64 (2 ^ 64 - 1) else BitVec.ofNat 64 (a.toNat / b.toNat) := by
  have hq : a / b = BitVec.ofNat 64 (a.toNat / b.toNat) := by
    rw [← BitVec.toNat_udiv, BitVec.ofNat_toNat, BitVec.setWidth_eq]
  simp only [divUnsigned, eq_zero_iff_toNat, hq]
  rfl

theorem remSigned_eq (a b : Word) : remSigned a b =
    if b.toNat = 0 then a else BitVec.ofInt 64 (a.toInt.tmod b.toInt) := by
  simp only [remSigned, eq_zero_iff_toNat, ← BitVec.toInt_srem, BitVec.ofInt_toInt]

theorem remUnsigned_eq (a b : Word) : remUnsigned a b =
    if b.toNat = 0 then a else BitVec.ofNat 64 (a.toNat % b.toNat) := by
  simp only [remUnsigned, eq_zero_iff_toNat, ← BitVec.toNat_umod, BitVec.ofNat_toNat, BitVec.setWidth_eq]

-- Forms

/-- A form whose arm of `exec` runs a landing plan of A and B (R209, R210, R296) lands any value v that its function is
shown to give; v is what a statement writes for it. -/
theorem exec_lands {i : Instr} {unit lat : Nat} {om : BitVec 2} {os ts : BitVec 7} {wd : BitVec 6} {we : BitVec 1}
    {f : Word → Word → Word} {v a b : Word} {σ : State}
    (hexec : exec i σ = .next (slotRun (scalarForm unit unit lat om os ts wd we f) σ)) (hval : f a b = v) (h : Takes σ)
    (hg : On σ) (ha : Reads σ ts a) (hb : Safety.Port σ unit om os b) :
    exec i σ = .next (withMe σ (inFlight σ lat (.scalar unit v (dest we wd.toNat) 0) (loaded unit b (me σ)))) := by
  rw [hexec, scalarForm_run h hg ha hb, hval]

/-- The same for a form of A alone. -/
theorem exec_lands_unary {i : Instr} {ts : BitVec 7} {wd : BitVec 6} {we : BitVec 1} {f : Word → Word} {v a : Word}
    {σ : State} (hexec : exec i σ = .next (slotRun (aluUnary ts wd we f) σ)) (hval : f a = v) (h : Takes σ) (hg : On σ)
    (ha : Reads σ ts a) :
    exec i σ = .next (withMe σ (inFlight σ 1 (.scalar 0 v (dest we wd.toNat) 0) (me σ))) := by
  rw [hexec, aluUnary_run h hg ha, hval]

/-- Settles O1: the plan of each form is one of the two landing shapes, and the value that it computes is the rule's.
The values of `and`, `or`, `xor`, `zext`, `mulh` and `mulhu` are written alike in the model and in the statement. -/
theorem scalarResults : Obligations.ScalarResults := by
  unfold Obligations.ScalarResults
  refine ⟨?alu, ⟨?counts, ?sizes, ?lea⟩, ?multiplier⟩
  case alu =>
    simp only [List.forall_mem_cons, List.not_mem_nil, false_imp_iff, implies_true, and_true]
    exact ⟨fun _ _ _ _ _ _ a b => exec_lands rfl (add_eq_ofNat a b),
      fun _ _ _ _ _ _ a b => exec_lands rfl (sub_eq_ofInt a b),
      fun _ _ _ _ _ _ _ _ => exec_lands rfl rfl,
      fun _ _ _ _ _ _ _ _ => exec_lands rfl rfl,
      fun _ _ _ _ _ _ _ _ => exec_lands rfl rfl,
      fun _ _ _ _ _ _ a b => exec_lands rfl (congrArg (a &&& ·) BitVec.xor_allOnes.symm),
      fun _ _ _ _ _ _ a b => exec_lands rfl (congrArg (a ||| ·) BitVec.xor_allOnes.symm),
      fun _ _ _ _ _ _ a _ => exec_lands rfl (shiftLeft_eq_ofNat a _),
      fun _ _ _ _ _ _ a _ => exec_lands rfl (shiftRight_eq_ofNat a _),
      fun _ _ _ _ _ _ a _ => exec_lands rfl (sshiftRight_eq_ofInt a _),
      fun _ _ _ _ _ _ a _ => exec_lands rfl (rotateLeft_eq_ofNat a _ (Nat.mod_lt _ (by decide))),
      fun _ _ _ _ _ _ a b => exec_lands rfl (min_signed_eq a b),
      fun _ _ _ _ _ _ a b => exec_lands rfl (max_signed_eq a b),
      fun _ _ _ _ _ _ a b => exec_lands rfl (min_unsigned_eq a b),
      fun _ _ _ _ _ _ a b => exec_lands rfl (max_unsigned_eq a b),
      fun _ _ _ _ _ _ a b => exec_lands rfl (extractField_eq_ofNat a b),
      fun _ _ _ _ _ _ a b => exec_lands rfl (placeField_eq_ofNat a b)⟩
  case counts =>
    simp only [List.forall_mem_cons, List.not_mem_nil, false_imp_iff, implies_true, and_true]
    exact ⟨fun _ _ _ _ a => exec_lands_unary rfl (congrArg _ (clz64_eq_run a)),
      fun _ _ _ _ a => exec_lands_unary rfl (congrArg _ (ctzFrom_eq_run 64 a.toNat)),
      fun _ _ _ _ a => exec_lands_unary rfl (congrArg _ (popFrom_eq_count 64 a.toNat))⟩
  case sizes =>
    simp only [List.forall_mem_cons, List.not_mem_nil, false_imp_iff, implies_true, and_true]
    exact ⟨fun _ _ _ _ _ a => exec_lands_unary rfl (ofInt_sx _ a.toNat (Nat.mul_pos (by decide) (Nat.two_pow_pos _))),
      fun _ _ _ _ _ _ => exec_lands_unary rfl rfl⟩
  case lea => exact fun _ _ _ _ _ _ q a b => exec_lands rfl (lea_eq_ofNat a b q.toNat)
  case multiplier =>
    simp only [List.forall_mem_cons, List.not_mem_nil, false_imp_iff, implies_true, and_true]
    exact ⟨fun _ _ _ _ _ _ a b => exec_lands rfl (mul_eq_ofNat a b),
      fun _ _ _ _ _ _ _ _ => exec_lands rfl rfl,
      fun _ _ _ _ _ _ _ _ => exec_lands rfl rfl,
      fun _ _ _ _ _ _ a b => exec_lands rfl (divSigned_eq a b),
      fun _ _ _ _ _ _ a b => exec_lands rfl (divUnsigned_eq a b),
      fun _ _ _ _ _ _ a b => exec_lands rfl (remSigned_eq a b),
      fun _ _ _ _ _ _ a b => exec_lands rfl (remUnsigned_eq a b)⟩

end Sys2Proof.Proofs.ScalarResults
end

section
/-! What the V-slot plans of one landing do when they issue (R331 to R333): one lemma for each landing, for the sources,
and for each plan that several forms share. -/

namespace Sys2Proof.Proofs.VectorPlans

open Sys2Proof Sys2Proof.Machine Sys2Proof.Safety Sys2Proof.Laws

-- The formats of Q (Table 11.1)

theorem vFmt_eq_floatOf (q : BitVec 2) : vFmt q = floatOf q := by
  simp only [vFmt, floatOf]
  split <;> simp_all

theorem vInt_eq_intOf (q : BitVec 2) : vInt q = intOf q := by
  simp only [vInt, intOf]
  split <;> simp_all

-- Sources

/-- The port's load leaves the lane mask and the slot as they are. -/
theorem laneMask_setVPort (σ : State) (b : Vec) : laneMask ((Work.begin σ).setVPort b) = lanes σ := by
  rw [laneMask, Work.setVPort, updMe_me]
  rfl

theorem vLatch_begin (σ : State) : (Work.begin σ).vLatch = alu σ := by
  simp only [Work.vLatch, Work.isV1, decide_eq_true_eq]
  rfl

theorem vLatch_setVPort (σ : State) (b : Vec) : ((Work.begin σ).setVPort b).vLatch = alu σ := vLatch_begin σ

theorem readVSel_ok {σ : State} {v : View} {ts : BitVec 7} {a : Vec} (ha : VReads σ v ts a) :
    readVSel (Work.begin σ) v ts.toNat = .ok a := ha

theorem readVAB_ok {σ : State} {va vb : View} {om : BitVec 2} {os ts : BitVec 7} {a b : Vec} (ha : VReads σ va ts a)
    (hb : VPort σ vb om os b) :
    readVAB (Work.begin σ) va vb om os ts = .ok (a, b, (Work.begin σ).setVPort b) := by
  simp [readVAB, readVSel_ok ha, show readVPort (Work.begin σ) vb om os = .ok b from hb]

/-- W is the register that its number names as a selector, in any view. -/
theorem readVSel_register (w : Work) (v : View) (wd : BitVec 5) : readVSel w v (wd.setWidth 7).toNat = readW w wd := by
  have hlt : wd.toNat < 32 := wd.isLt
  have hsel : (wd.setWidth 7).toNat = wd.toNat := by
    rw [BitVec.toNat_setWidth, Nat.mod_eq_of_lt (by omega)]
  simp only [readVSel, readW, hsel, if_pos (show wd.toNat ≤ 0x1F by omega)]

theorem readW_ok {σ : State} {v : View} {wd : BitVec 5} {c : Vec} (hc : VReads σ v (wd.setWidth 7) c) :
    readW (Work.begin σ) wd = .ok c := (readVSel_register _ v wd).symm.trans hc

-- Landings

theorem landMasked_commit (σ : State) (b : Vec) (lat latch : Nat) (val : Vec) (act : Mask) (dst : Option Nat)
    (mark : Nat) :
    (((Work.begin σ).setVPort b).landMasked lat latch val act dst mark).commit =
      withMe σ (vFlight σ lat latch val act dst mark (vloaded σ b (me σ))) := vlaunch_commit σ lat b _

theorem landElems_commit (σ : State) (b : Vec) (lat n : Nat) (res : List Nat) (dst : Option Nat) :
    (((Work.begin σ).setVPort b).landElems lat n res dst).commit =
      withMe σ (vFlight σ lat (alu σ) (packVec n res) (lanes σ) dst 0 (vloaded σ b (me σ))) := by
  rw [Work.landElems, vLatch_setVPort, laneMask_setVPort, landMasked_commit]

/-- Elements that land with no port load. -/
theorem landElems_only_commit (σ : State) (lat n : Nat) (res : List Nat) (dst : Option Nat) :
    ((Work.begin σ).landElems lat n res dst).commit =
      withMe σ (vFlight σ lat (alu σ) (packVec n res) (lanes σ) dst 0 (me σ)) := by
  rw [Work.landElems, vLatch_begin]
  exact launch_only_commit σ lat _

-- Plans that forms share

section Plans

variable {σ : State} {om : BitVec 2} {os ts : BitVec 7} {wd : BitVec 5} {we : BitVec 1} {a b : Vec}

theorem vUnary_run {lat : Nat} {f : Fmt} {op : Nat → Nat} (h : Takes σ) (ha : VReads σ (.fmt f) ts a) :
    slotRun (vUnary lat f op ts wd we) σ =
      withMe σ (vFlight σ lat (alu σ) (mapElems f.bits op a) (lanes σ) (dest we wd.toNat) 0 (me σ)) := by
  rw [mapElems, ← landElems_only_commit, slotRun_ok h]
  simp [vUnary, readVSel_ok ha]

theorem vBinary_run {lat : Nat} {f : Fmt} {op : Nat → Nat → Nat} (h : Takes σ) (ha : VReads σ (.fmt f) ts a)
    (hb : VPort σ (.fmt f) om os b) :
    slotRun (vBinary lat f op om os ts wd we) σ =
      withMe σ (vFlight σ lat (alu σ) (zipElems f.bits op a b) (lanes σ) (dest we wd.toNat) 0
        (vloaded σ b (me σ))) := by
  rw [zipElems, ← landElems_commit, slotRun_ok h]
  simp [vBinary, readVAB_ok ha hb]

/-- A logical form (R340). -/
theorem vLogic_run {op : Vec → Vec → Vec} (h : Takes σ) (ha : VReads σ .groups ts a) (hb : VPort σ .groups om os b) :
    slotRun (vLogic op om os ts wd we) σ =
      withMe σ (vFlight σ 2 (alu σ) (op a b) (lanes σ) (dest we wd.toNat) 0 (vloaded σ b (me σ))) := by
  rw [← landMasked_commit, slotRun_ok h]
  simp [vLogic, readVAB_ok ha hb, vLatch_begin, lanes]

/-- `vsel` (R338). -/
theorem vSelect_run {f : Fmt} (h : Takes σ) (ha : VReads σ (.fmt f) ts a) (hb : VPort σ (.fmt f) om os b) :
    slotRun (vSelect f om os ts wd we) σ =
      withMe σ (vFlight σ 4 (alu σ) (blend (elementMask f.bits (lanes σ)) a b) (BitVec.allOnes 256)
        (dest we wd.toNat) 0 (vloaded σ b (me σ))) := by
  rw [← landMasked_commit, slotRun_ok h]
  simp [vSelect, readVAB_ok ha hb, vLatch_begin, lanes, Work.landWhole]

/-- A comparison (R337). -/
theorem vCompare_run {k : VCond} {f : Fmt} {vmd : BitVec 3} (h : Takes σ) (ha : VReads σ (.fmt f) ts a)
    (hb : VPort σ (.fmt f) om os b) :
    let act := elementMask f.bits (lanes σ)
    let m := cmpMask f.bits (List.zipWith (fun x y => k.holds (floatValue f x) (floatValue f y)) (elements f.bits a)
      (elements f.bits b))
    slotRun (vCompare k f om os ts vmd we) σ =
      withMe σ (inFlight σ 4 (.mask (alu σ) (spreadMask (m &&& act)) m act (dest we vmd.toNat))
        (vloaded σ b (me σ))) := by
  intro act m
  rw [← vlaunch_commit, slotRun_ok h]
  simp [vCompare, readVAB_ok ha hb, vLatch_begin, act, m, lanes]

/-- A reduction (R346): the value lands unmasked in `vred.r`, latch 2. -/
theorem vReduce_run {f : Fmt} {op : List Nat → Nat} (h : Takes σ) (ha : VReads σ (.fmt f) ts a) :
    slotRun (vReduce f op ts wd we) σ =
      withMe σ (vFlight σ 6 2 (splat f.bits (op (actives (elements f.bits a) (activeList f.bits (lanes σ)))))
        (BitVec.allOnes 256) (dest we wd.toNat) 0 (me σ)) := by
  rw [vFlight, ← launch_only_commit, slotRun_ok h]
  simp [vReduce, readVSel_ok ha, lanes, Work.landWhole, Work.landMasked]

end Plans

end Sys2Proof.Proofs.VectorPlans
end

section
/-! The comparisons and the selection of R337 and R338. -/

namespace Sys2Proof.Proofs.VectorCompares

open Sys2Proof Sys2Proof.Machine Sys2Proof.Safety Sys2Proof.Laws Sys2Proof.Proofs.VectorPlans

/-- Settles O24: the four comparisons share one plan, whose condition on two values is the one that R337 gives. -/
theorem vectorComparesAndSelect : Obligations.VectorComparesAndSelect := by
  unfold Obligations.VectorComparesAndSelect
  simp only [← vFmt_eq_floatOf]
  refine ⟨?compares, ?select⟩
  case compares =>
    simp only [List.forall_mem_cons, List.not_mem_nil, false_imp_iff, implies_true, and_true]
    exact ⟨fun _ _ _ _ _ _ _ _ _ h ha hb => congrArg Host.Outcome.next (vCompare_run (k := .eq) h ha hb),
      fun _ _ _ _ _ _ _ _ _ h ha hb => congrArg Host.Outcome.next (vCompare_run (k := .ne) h ha hb),
      fun _ _ _ _ _ _ _ _ _ h ha hb => congrArg Host.Outcome.next (vCompare_run (k := .lt) h ha hb),
      fun _ _ _ _ _ _ _ _ _ h ha hb => congrArg Host.Outcome.next (vCompare_run (k := .le) h ha hb)⟩
  case select => exact fun _ _ _ _ _ _ _ _ _ h ha hb => congrArg Host.Outcome.next (vSelect_run h ha hb)

end Sys2Proof.Proofs.VectorCompares
end

section
/-! The integer and logical forms of R340: the model's operations on signed elements are the rule's on their patterns,
modulo 2^n. -/

namespace Sys2Proof.Proofs.VectorIntegers

open Sys2Proof Sys2Proof.Machine Sys2Proof.Safety Sys2Proof.Laws Sys2Proof.Proofs.VectorPlans

-- Elements

theorem unpackN_lt (n x k : Nat) : ∀ y ∈ unpackN n x k, y < 2 ^ n := by
  induction k generalizing x with
  | zero => simp [unpackN]
  | succ k ih =>
    rw [unpackN, List.forall_mem_cons]
    exact ⟨Nat.mod_lt _ (Nat.two_pow_pos n), ih _⟩

theorem elements_lt {n : Nat} {v : Vec} {x : Nat} (h : x ∈ elements n v) : x < 2 ^ n := unpackN_lt _ _ _ x h

/-- Two operations that agree on n-bit patterns combine elements alike. -/
theorem zipElems_congr {n : Nat} {f g : Nat → Nat → Nat} (a b : Vec)
    (h : ∀ x y, x < 2 ^ n → y < 2 ^ n → f x y = g x y) : zipElems n f a b = zipElems n g a b := by
  refine congrArg (packVec n) ?_
  rw [← List.map_uncurry_zip_eq_zipWith, ← List.map_uncurry_zip_eq_zipWith]
  refine List.map_congr_left fun p hp => ?_
  obtain ⟨hx, hy⟩ := List.of_mem_zip hp
  exact h _ _ (elements_lt hx) (elements_lt hy)

-- Signed elements modulo 2^n

theorem sx_emod (n x : Nat) : sx n x % (2 ^ n : Nat) = (x : Int) % (2 ^ n : Nat) := by
  have hmod : ((x % 2 ^ n : Nat) : Int) % (2 ^ n : Nat) = (x : Int) % (2 ^ n : Nat) := by
    rw [Int.natCast_emod, Int.emod_emod]
  simp only [sx]
  split
  · exact hmod
  · rw [Int.sub_emod_right, hmod]

theorem wrap_of_emod {n m : Nat} {z : Int} (h : z % (2 ^ n : Nat) = (m : Int) % (2 ^ n : Nat)) :
    wrap n z = m % 2 ^ n := by
  rw [wrap, h, ← Int.natCast_emod, Int.toNat_natCast]

theorem wrap_natCast (n m : Nat) : wrap n m = m % 2 ^ n := wrap_of_emod rfl

theorem wrap_sx {n x : Nat} (hx : x < 2 ^ n) : wrap n (sx n x) = x := by
  rw [wrap_of_emod (sx_emod n x), Nat.mod_eq_of_lt hx]

theorem vSigned_add (n x y : Nat) : vSigned n (fun s t => s + t) x y = (x + y) % 2 ^ n := by
  refine wrap_of_emod ?_
  rw [Int.add_emod, sx_emod, sx_emod, ← Int.add_emod, Int.natCast_add]

theorem vSigned_mul (n x y : Nat) : vSigned n (fun s t => s * t) x y = x * y % 2 ^ n := by
  refine wrap_of_emod ?_
  rw [Int.mul_emod, sx_emod, sx_emod, ← Int.mul_emod, Int.natCast_mul]

/-- The rule's difference stays natural by a 2^n more, which is nothing modulo 2^n. -/
theorem vSigned_sub {n x y : Nat} (hy : y < 2 ^ n) : vSigned n (fun s t => s - t) x y = (x + 2 ^ n - y) % 2 ^ n := by
  have hcast : ((x + 2 ^ n - y : Nat) : Int) = (x - y : Int) + (2 ^ n : Nat) := by omega
  refine wrap_of_emod ?_
  rw [hcast, Int.add_emod_right, Int.sub_emod, sx_emod, sx_emod, ← Int.sub_emod]

theorem vSigned_min {n x y : Nat} (hx : x < 2 ^ n) (hy : y < 2 ^ n) :
    vSigned n min x y = if sx n x ≤ sx n y then x else y := by
  rw [vSigned, Int.min_def, apply_ite (wrap n), wrap_sx hx, wrap_sx hy]

theorem vSigned_max {n x y : Nat} (hx : x < 2 ^ n) (hy : y < 2 ^ n) :
    vSigned n max x y = if sx n x ≤ sx n y then y else x := by
  rw [vSigned, Int.max_def, apply_ite (wrap n), wrap_sx hx, wrap_sx hy]

-- Forms

/-- A two-source integer form lands any operation that agrees with its own on n-bit patterns. -/
theorem exec_vBinary {i : Instr} {lat : Nat} {f : Fmt} {op op' : Nat → Nat → Nat} {om : BitVec 2} {os ts : BitVec 7}
    {wd : BitVec 5} {we : BitVec 1} {a b : Vec} {σ : State}
    (hexec : exec i σ = .next (slotRun (vBinary lat f op om os ts wd we) σ))
    (hop : ∀ x y, x < 2 ^ f.bits → y < 2 ^ f.bits → op x y = op' x y) (h : Takes σ) (ha : VReads σ (.fmt f) ts a)
    (hb : VPort σ (.fmt f) om os b) :
    exec i σ = .next (withMe σ (vFlight σ lat (alu σ) (zipElems f.bits op' a b) (lanes σ) (dest we wd.toNat) 0
      (vloaded σ b (me σ)))) := by
  rw [hexec, vBinary_run h ha hb, zipElems_congr a b hop]

/-- Settles O25: the sum, the difference, the product and the order agree on the n-bit patterns of signed elements; the
high product, the shifts and the logical forms are written alike in the model and in the statement. -/
theorem vectorIntegerForms : Obligations.VectorIntegerForms := by
  unfold Obligations.VectorIntegerForms
  simp only [← vInt_eq_intOf]
  refine ⟨?arithmetic, ?magnitude, ?logic⟩
  case arithmetic =>
    simp only [List.forall_mem_cons, List.not_mem_nil, false_imp_iff, implies_true, and_true]
    exact ⟨fun _ _ _ _ _ _ _ _ _ => exec_vBinary rfl fun x y _ _ => vSigned_add _ x y,
      fun _ _ _ _ _ _ _ _ _ => exec_vBinary rfl fun _ _ _ hy => vSigned_sub hy,
      fun _ _ _ _ _ _ _ _ _ => exec_vBinary rfl fun x y _ _ => vSigned_mul _ x y,
      fun _ _ _ _ _ _ _ _ _ => exec_vBinary rfl fun _ _ _ _ => rfl,
      fun _ _ _ _ _ _ _ _ _ => exec_vBinary rfl fun _ _ hx hy => vSigned_min hx hy,
      fun _ _ _ _ _ _ _ _ _ => exec_vBinary rfl fun _ _ hx hy => vSigned_max hx hy,
      fun _ _ _ _ _ _ _ _ _ => exec_vBinary rfl fun _ _ _ _ => rfl,
      fun _ _ _ _ _ _ _ _ _ => exec_vBinary rfl fun _ _ _ _ => rfl,
      fun _ _ _ _ _ _ _ _ _ => exec_vBinary rfl fun _ _ _ _ => rfl⟩
  case magnitude =>
    exact fun _ _ _ _ _ _ h ha => congrArg Host.Outcome.next ((vUnary_run h ha).trans (by simp only [wrap_natCast]))
  case logic =>
    simp only [List.forall_mem_cons, List.not_mem_nil, false_imp_iff, implies_true, and_true]
    exact ⟨fun _ _ _ _ _ _ _ _ h ha hb => congrArg Host.Outcome.next (vLogic_run h ha hb),
      fun _ _ _ _ _ _ _ _ h ha hb => congrArg Host.Outcome.next (vLogic_run h ha hb),
      fun _ _ _ _ _ _ _ _ h ha hb => congrArg Host.Outcome.next (vLogic_run h ha hb)⟩

end Sys2Proof.Proofs.VectorIntegers
end

section
/-! The movement forms of R345 and the reductions of R346. -/

namespace Sys2Proof.Proofs.VectorMoves

open Sys2Proof Sys2Proof.Machine Sys2Proof.Safety Sys2Proof.Laws Sys2Proof.Proofs.VectorPlans

-- Elements by index

theorem unpackN_length (n x k : Nat) : (unpackN n x k).length = k := by
  induction k generalizing x with
  | zero => rfl
  | succ k ih => rw [unpackN, List.length_cons, ih]

theorem elements_length (n : Nat) (v : Vec) : (elements n v).length = 2048 / n := unpackN_length _ _ _

/-- The elements of C, A followed by W, by index (Table 13.5). -/
theorem getD_append_eq {e : Nat} {a : List Nat} (ha : a.length = e) (c : List Nat) (k : Nat) :
    (a ++ c).getD k 0 = if k < e then a.getD k 0 else c.getD (k - e) 0 := by
  simp only [List.getD_eq_getElem?_getD, List.getElem?_append, ha]
  split <;> rfl

/-- Table 13.5 by its codes; a code above 5 copies A. -/
theorem shuffled_eq {e : Nat} {a : List Nat} (ha : a.length = e) (c : List Nat) (code m i : Nat) :
    let xy (k : Nat) : Nat := if k < e then a.getD k 0 else c.getD (k - e) 0
    shuffled code m e a c i =
      if code = 0 then (if i % 2 = 0 then a.getD (i / 2) 0 else c.getD ((i - 1) / 2) 0)
      else if code = 1 then (if i % 2 = 0 then a.getD (e / 2 + i / 2) 0 else c.getD (e / 2 + (i - 1) / 2) 0)
      else if code = 2 then xy (2 * i) else if code = 3 then xy (2 * i + 1)
      else if code = 4 then a.getD (e - 1 - i) 0 else if code = 5 then a.getD ((i + m) % e) 0 else a.getD i 0 := by
  match code with
  | 0 | 1 | 4 | 5 | _ + 6 => rfl
  | 2 | 3 => exact getD_append_eq ha c _

-- Plans

section Plans

variable {σ : State} {n : Nat} {om : BitVec 2} {os ts : BitVec 7} {wd : BitVec 5} {we : BitVec 1} {a b : Vec}

theorem vmovPlan_run (h : Takes σ) (ha : VReads σ (.bare n) ts a) :
    slotRun (vmovPlan n ts wd we) σ =
      withMe σ (vFlight σ 2 (alu σ) (mapElems n id a) (lanes σ) (dest we wd.toNat) 0 (me σ)) := by
  rw [mapElems, List.map_id, ← landElems_only_commit, slotRun_ok h]
  simp [vmovPlan, readVSel_ok ha]

theorem vbcPlan_run (h : Takes σ) (ha : VReads σ (.bare n) ts a) (hb : VPort σ .groups om os b) :
    slotRun (vbcPlan n om os ts wd we) σ =
      withMe σ (vFlight σ 2 (alu σ)
        (packVec n ((List.range (2048 / n)).map fun _ =>
          (elements n a).getD ((lane0 b).toNat % 256 % (2048 / n)) 0)) (lanes σ)
        (dest we wd.toNat) 0 (vloaded σ b (me σ))) := by
  rw [List.map_const', List.length_range, ← landElems_commit, slotRun_ok h]
  simp [vbcPlan, readVAB_ok ha hb]

theorem vpermPlan_run (h : Takes σ) (ha : VReads σ (.bare n) ts a) (hb : VPort σ (.bare n) om os b) :
    slotRun (vpermPlan n om os ts wd we) σ =
      withMe σ (vFlight σ 3 (alu σ) (mapElems n (fun k => (elements n a).getD (k % (2048 / n)) 0) b) (lanes σ)
        (dest we wd.toNat) 0 (vloaded σ b (me σ))) := by
  rw [mapElems, ← landElems_commit, slotRun_ok h]
  simp [vpermPlan, readVAB_ok ha hb]

theorem vshufPlan_run {v : View} {c : Vec} (h : Takes σ) (ha : VReads σ (.bare n) ts a) (hb : VPort σ .groups om os b)
    (hc : VReads σ v (wd.setWidth 7) c) :
    slotRun (vshufPlan n om os ts wd we) σ =
      withMe σ (vFlight σ 3 (alu σ)
        (packVec n ((List.range (2048 / n)).map
          (shuffled ((lane0 b).toNat % 256) (bits (lane0 b).toNat 15 8) (2048 / n) (elements n a) (elements n c))))
        (lanes σ) (dest we wd.toNat) 0 (vloaded σ b (me σ))) := by
  rw [← landElems_commit, slotRun_ok h]
  simp [vshufPlan, readVAB_ok ha hb, readW_ok hc]

end Plans

/-- Settles O27: each plan's list of elements is the rule's, and `vshuf`'s by Table 13.5, read as A followed by W. -/
theorem vectorMovesAndReductions : Obligations.VectorMovesAndReductions := by
  unfold Obligations.VectorMovesAndReductions
  refine ⟨⟨?vmov, ?vbc, ?vperm, ?vshuf⟩, ?reductions⟩
  case vmov => exact fun _ _ _ _ _ _ h ha => congrArg Host.Outcome.next (vmovPlan_run h ha)
  case vbc => exact fun _ _ _ _ _ _ _ _ _ h ha hb => congrArg Host.Outcome.next (vbcPlan_run h ha hb)
  case vperm => exact fun _ _ _ _ _ _ _ _ _ h ha hb => congrArg Host.Outcome.next (vpermPlan_run h ha hb)
  case vshuf =>
    intro σ om os ts wd we q a b c h n e d x y xy ha hb hc
    have htable := funext (shuffled_eq (elements_length n a) (elements n c) (d % 256) (bits d 15 8))
    exact congrArg Host.Outcome.next ((vshufPlan_run h ha hb hc).trans (by rw [htable]))
  case reductions =>
    simp only [← vFmt_eq_floatOf]
    intro σ ts wd we q a h ha
    refine ⟨congrArg Host.Outcome.next (vReduce_run h ha), congrArg Host.Outcome.next (vReduce_run h ha), ?none⟩
    intro hnone
    rw [hnone, largest]

end Sys2Proof.Proofs.VectorMoves
end

section
/-! Slot words (R264, R267 to R279): the fields of a word and their concatenation, the forms that each map gives, and the
round trip between them. -/

namespace Sys2Proof.Proofs.Encoding

open Sys2Proof

-- Fields of a word

theorem fld_toNat (w : Word32) (lo n : Nat) : (fld w lo n).toNat = w.toNat / 2 ^ lo % 2 ^ n := by
  simp [fld, BitVec.extractLsb'_toNat, Nat.shiftRight_eq_div_pow]

theorem append_toNat {m n : Nat} (x : BitVec m) (y : BitVec n) : (x ++ y).toNat = x.toNat * 2 ^ n + y.toNat := by
  rw [BitVec.toNat_append, ← Nat.shiftLeft_add_eq_or_of_lt y.isLt, Nat.shiftLeft_eq]

theorem fld_whole (w : Word32) : fld w 0 32 = w := BitVec.extractLsb'_eq_self

/-- Two adjacent fields are one. -/
theorem append_eq_fld {w : Word32} {lo m n : Nat} {x : BitVec m} {y : BitVec n} (hx : x = fld w (lo + n) m)
    (hy : y = fld w lo n) : x ++ y = fld w lo (m + n) := by
  subst hx hy
  apply BitVec.eq_of_toNat_eq
  rw [append_toNat, fld_toNat, fld_toNat, fld_toNat, Nat.pow_add, ← Nat.div_div_eq_div_mul, Nat.add_comm m n,
    Nat.pow_add, Nat.mod_mul, Nat.mul_comm, Nat.add_comm]

/-- A field that is a concatenation is two adjacent fields. -/
theorem fields_of_append {w : Word32} {lo m n : Nat} {x : BitVec m} {y : BitVec n} (h : x ++ y = fld w lo (m + n)) :
    x = fld w (lo + n) m ∧ fld w lo n = y := by
  rw [← append_eq_fld rfl rfl] at h
  have hx := congrArg (BitVec.extractLsb' n m) h
  have hy := congrArg (BitVec.extractLsb' 0 n) h
  simpa only [BitVec.extractLsb'_append_eq_left, BitVec.extractLsb'_append_eq_right] using And.intro hx hy.symm

theorem opcode_fld {w : Word32} {n : Nat} (h : (w.extractLsb' 25 7).toNat = n) : fld w 25 7 = BitVec.ofNat 7 n := by
  rw [← h, BitVec.ofNat_toNat, BitVec.setWidth_eq]
  rfl

theorem opcode_of_fld {w : Word32} {n : BitVec 7} (h : n = fld w 25 7) : (w.extractLsb' 25 7).toNat = n.toNat :=
  congrArg BitVec.toNat h.symm

-- The maps of the slots

/-- The form that a slot's map gives a word, before the operand checks. -/
def formOf : Slot → Word32 → Except DecodeError Instr
  | .s => formS
  | .v0 | .v1 => formV
  | .m => formM
  | .c0 | .c1 => formC

/-- The first slot whose map lists a slot form. -/
def homeSlot : Instr → Slot
  | .vadd .. | .vsub .. | .vmul .. | .vfma .. | .vfms .. | .vfnma .. | .vmin .. | .vmax .. | .vabs ..
  | .vneg .. | .vsel .. | .vround .. | .vscale .. | .vcmpEq .. | .vcmpNe .. | .vcmpLt .. | .vcmpLe ..
  | .vaddI .. | .vsubI .. | .vmulI .. | .vmulhI .. | .vand .. | .vor .. | .vxor .. | .vshl .. | .vshr ..
  | .vsra .. | .vminI .. | .vmaxI .. | .vabsI .. | .vcvt .. | .vrq .. | .vexp2 .. | .vlog2 .. | .vrcp ..
  | .vrsqrt .. | .vsigm .. | .vtanh .. | .vmov .. | .vbc .. | .vperm .. | .vshuf .. | .vredAdd .. | .vredMax ..
  | .vld .. | .vst .. | .vaccRd .. | .vaccWr .. | .vmrow .. | .vmand .. | .vmor .. | .vmnot .. | .vmcnt .. => .v0
  | .mwld .. | .mwldB .. | .mswap .. | .mrun .. | .mrunF .. | .mzero .. | .mstat .. | .mcal .. | .mclip ..
  | .mmode .. | .mbound .. | .mboundSet .. => .m
  | .cp .. | .cpSh .. | .cpRed .. | .cpG .. | .cpS .. | .bk .. | .bkRed .. | .cpQ .. | .cpFence .. | .cpStat ..
  | .cpQuiesce .. | .cpAbort .. | .cpPub .. => .c0
  | _ => .s

theorem formOf_homeSlot {i : Instr} {sl : Slot} {w : Word32} {r : Except DecodeError Instr} (hsl : homeSlot i = sl)
    (h : formOf sl w = r) : formOf (homeSlot i) w = r := hsl ▸ h

-- From a form to its word: in each row of a map the fields of the word, its fixed ones included, make up the word.

theorem formS_word {w : Word32} {i : Instr} (h : formS w = .ok i) : encode i = [w] := by
  unfold formS at h
  split at h <;> rename_i hop
  all_goals repeat' split at h
  all_goals cases h
  all_goals
    replace hop := opcode_fld hop
    refine congrArg (· :: []) (Eq.trans ?_ (fld_whole w))
    repeat' with_reducible apply append_eq_fld
    all_goals simp only [*, BitVec.ofNat_eq_ofNat]

theorem formV_word {w : Word32} {i : Instr} (h : formV w = .ok i) : encode i = [w] := by
  unfold formV at h
  split at h <;> rename_i hop
  all_goals repeat' split at h
  all_goals cases h
  all_goals
    replace hop := opcode_fld hop
    refine congrArg (· :: []) (Eq.trans ?_ (fld_whole w))
    repeat' with_reducible apply append_eq_fld
    all_goals simp only [*, BitVec.ofNat_eq_ofNat]

theorem formM_word {w : Word32} {i : Instr} (h : formM w = .ok i) : encode i = [w] := by
  unfold formM at h
  split at h <;> rename_i hop
  all_goals repeat' split at h
  all_goals cases h
  all_goals
    replace hop := opcode_fld hop
    refine congrArg (· :: []) (Eq.trans ?_ (fld_whole w))
    repeat' with_reducible apply append_eq_fld
    all_goals simp only [*, BitVec.ofNat_eq_ofNat]

theorem formC_word {w : Word32} {i : Instr} (h : formC w = .ok i) : encode i = [w] := by
  unfold formC at h
  split at h <;> rename_i hop
  all_goals repeat' split at h
  all_goals cases h
  all_goals
    replace hop := opcode_fld hop
    refine congrArg (· :: []) (Eq.trans ?_ (fld_whole w))
    repeat' with_reducible apply append_eq_fld
    all_goals simp only [*, BitVec.ofNat_eq_ofNat]

/-- The word of the form that a map gives a word is that word. -/
theorem formOf_word {sl : Slot} {w : Word32} {i : Instr} (h : formOf sl w = .ok i) : encode i = [w] := by
  cases sl
  case s => exact formS_word h
  case v0 | v1 => exact formV_word h
  case m => exact formM_word h
  case c0 | c1 => exact formC_word h

-- From a word to its form

theorem ne_of_eq_ne {α : Type} {a b c : α} (hab : a = b) (hbc : b ≠ c) : a ≠ c := fun hac => hbc (hab.symm.trans hac)

/-- The map of a form's slot gives its word that form: the fields of the word are the operands and the fixed fields, so
that the row of its opcode is taken, and in a row of several forms the one of the word's low field. -/
theorem formOf_encode {i : Instr} {w : Word32} (h : encode i = [w]) : formOf (homeSlot i) w = .ok i := by
  cases i
  all_goals first | replace h := (List.cons.inj h).1.trans (fld_whole w).symm | exact nomatch h
  all_goals
    repeat
      have hsplit := fields_of_append h
      clear h
      obtain ⟨h, _⟩ := hsplit
    subst_vars
    replace h := opcode_of_fld h
  all_goals
    first
    | (refine formOf_homeSlot (sl := .s) rfl ?_; rw [formOf, formS, h])
    | (refine formOf_homeSlot (sl := .v0) rfl ?_; rw [formOf, formV, h])
    | (refine formOf_homeSlot (sl := .m) rfl ?_; rw [formOf, formM, h])
    | (refine formOf_homeSlot (sl := .c0) rfl ?_; rw [formOf, formC, h])
  case shr | max => exact (if_neg (ne_of_eq_ne ‹_› (by decide))).trans (if_pos ‹_›)
  case sra | minu =>
    exact (if_neg (ne_of_eq_ne ‹_› (by decide))).trans
      ((if_neg (ne_of_eq_ne ‹_› (by decide))).trans (if_pos ‹_›))
  case rotl | maxu =>
    exact (if_neg (ne_of_eq_ne ‹_› (by decide))).trans ((if_neg (ne_of_eq_ne ‹_› (by decide))).trans
      ((if_neg (ne_of_eq_ne ‹_› (by decide))).trans (if_pos ‹_›)))
  case mboundSet => exact (if_neg fun hc => ne_of_eq_ne ‹_› (by decide) hc.2).trans (if_pos ‹_›)
  all_goals first | exact if_pos (by and_intros <;> assumption) | rfl

-- Decoding a slot's word

/-- No map lists opcode 0. -/
theorem opcode_ne_zero {sl : Slot} {w : Word32} {i : Instr} (h : formOf sl w = .ok i) : w.extractLsb' 25 7 ≠ 0 := by
  intro h0
  have hop : (w.extractLsb' 25 7).toNat = 0 := congrArg BitVec.toNat h0
  cases sl
  case s => rw [formOf, formS, hop] at h; exact nomatch h
  case v0 | v1 => rw [formOf, formV, hop] at h; exact nomatch h
  case m => rw [formOf, formM, hop] at h; exact nomatch h
  case c0 | c1 => rw [formOf, formC, hop] at h; exact nomatch h

theorem decodeSlot_of_opcode {sl : Slot} {w : Word32} (h : w.extractLsb' 25 7 ≠ 0) :
    decodeSlot sl w = checked (formOf sl w) := by
  cases sl <;> exact if_neg h

theorem decodeSlot_of_opcode_zero {sl : Slot} {w : Word32} (h : w.extractLsb' 25 7 = 0) :
    decodeSlot sl w = if w = 0 then .ok none else .error .reservedField := by
  cases sl <;> exact if_pos h

theorem decodeSlot_unassigned {sl : Slot} {w : Word32} (h0 : (w.extractLsb' 25 7).toNat ≠ 0)
    (h : formOf sl w = .error .unassignedOpcode) : decodeSlot sl w = .error .unassignedOpcode := by
  rw [decodeSlot_of_opcode fun hz => h0 (congrArg BitVec.toNat hz), h]
  rfl

/-- A slot reads a word as an instruction where its map gives that form and the operand checks pass. -/
theorem readWord_eq_some_iff {sl : Slot} {w : Word32} {i : Instr} :
    readWord sl w = some i ↔ formOf sl w = .ok i ∧ i.wf = true := by
  by_cases hop : w.extractLsb' 25 7 = 0
  · have hnone : readWord sl w = none := by
      rw [readWord, decodeSlot_of_opcode_zero hop]
      by_cases hw : w = 0 <;> simp only [hw, if_true, if_false]
    rw [hnone]
    exact ⟨nofun, fun h => absurd hop (opcode_ne_zero h.1)⟩
  · rw [readWord, decodeSlot_of_opcode hop]
    cases formOf sl w with
    | error e => exact ⟨nofun, nofun⟩
    | ok j =>
      by_cases hwf : j.wf = true
      · simp only [checked, hwf, if_true, Option.some.injEq, Except.ok.injEq]
        exact ⟨fun h => ⟨h, h ▸ hwf⟩, fun h => h.1⟩
      · simp only [checked, hwf, Bool.false_eq_true, if_false]
        exact ⟨nofun, fun h => absurd (Except.ok.inj h.1 ▸ h.2) hwf⟩

/-- Settles O34: a word and its form determine each other by the fields of the word, row by row of the four maps. -/
theorem encodingRoundTrip : Obligations.EncodingRoundTrip := by
  unfold Obligations.EncodingRoundTrip
  refine ⟨fun sl w i h => ?read, fun i w hwf h => ?write, fun w => ⟨rfl, rfl⟩⟩
  case read =>
    obtain ⟨hform, hwf⟩ := readWord_eq_some_iff.mp h
    exact ⟨hwf, formOf_word hform⟩
  case write => exact ⟨homeSlot i, readWord_eq_some_iff.mpr ⟨formOf_encode h, hwf⟩⟩

/-- Settles O35: the opcodes named have no row in the slot's map. -/
theorem unassignedWords : Obligations.UnassignedWords := by
  unfold Obligations.UnassignedWords
  refine ⟨fun sl => decodeSlot_of_opcode_zero rfl, fun sl w hw h => ?zero, fun w h => ?s, fun w h => ?v, fun w h => ?m,
    fun w h => ?c, rfl, rfl⟩
  case zero => rw [decodeSlot_of_opcode_zero h, if_neg hw]
  case s =>
    refine decodeSlot_unassigned (fun h0 => absurd (h0 ▸ h) (by decide)) ?_
    rw [formOf, formS]
    generalize (w.extractLsb' 25 7).toNat = n at h ⊢
    repeat' first | exact absurd h List.not_mem_nil | obtain rfl | h := List.mem_cons.1 h
    all_goals rfl
  case v =>
    refine decodeSlot_unassigned (fun h0 => absurd (h0 ▸ h) (by decide)) ?_
    rw [formOf, formV]
    generalize (w.extractLsb' 25 7).toNat = n at h ⊢
    repeat' first | exact absurd h List.not_mem_nil | obtain rfl | h := List.mem_cons.1 h
    all_goals rfl
  case m =>
    refine decodeSlot_unassigned (by omega) ?_
    rw [formOf, formM]
    split
    case h_12 => rfl
    all_goals omega
  case c =>
    refine decodeSlot_unassigned (by omega) ?_
    rw [formOf, formC]
    split
    case h_14 => rfl
    all_goals omega

/-- Settles O36: sixteen closed instances of the decoder. -/
theorem sampleWords : Obligations.SampleWords := by
  unfold Obligations.SampleWords
  decide

end Sys2Proof.Proofs.Encoding
end

section
/-! What every execution and every step comes to: a next state, whose memory keeps its canonical form. -/

namespace Sys2Proof.Proofs.Steps

open Sys2Proof Sys2Proof.Machine Sys2Proof.Safety Sys2Proof.Laws

/-- The outcome is a next state, in canonical form where the state before is. -/
def GoesOnInForm (σ : State) (r : Host.Outcome State Fault Refusal) : Prop := ∃ t, r = .next t ∧ (Inv σ → Inv t)

theorem goesOnInForm_commit (σ : State) (w : Work) : GoesOnInForm σ (.next w.commit) := ⟨_, rfl, fun _ => commit_wf w⟩

/-- The two shapes of an arm of `exec`: an event closes a transaction, and a slot form runs its plan. -/
theorem exec_closes (i : Instr) (σ : State) :
    (∃ w : Work, exec i σ = .next w.commit) ∨ ∃ p, exec i σ = .next (slotRun p σ) := by
  cases i
  all_goals first | exact .inr ⟨_, rfl⟩ | exact .inl ⟨_, rfl⟩

theorem exec_goesOnInForm (i : Instr) (σ : State) : GoesOnInForm σ (exec i σ) := by
  obtain ⟨w, h⟩ | ⟨p, h⟩ := exec_closes i σ
  · rw [h]; exact goesOnInForm_commit σ w
  · exact ⟨_, h, slotRun_wf p σ⟩

theorem takeInput_goesOnInForm (σ : State) : GoesOnInForm σ (takeInput σ) := by
  unfold takeInput
  split
  case h_1 => exact ⟨_, rfl, id⟩
  case h_2 i rest _ =>
    obtain ⟨r, hr, hform⟩ := exec_goesOnInForm i { σ with dev := { σ.dev with inputs := rest } }
    split
    · exact ⟨_, rfl, id⟩
    · simp only [hr]
      split
      · exact ⟨_, rfl, hform⟩
      · exact goesOnInForm_commit σ _

theorem choose_goesOnInForm (ms : List Move) (σ : State) : GoesOnInForm σ (choose ms σ) := by
  unfold choose
  extract_lets n f k
  split
  · exact goesOnInForm_commit σ _
  · split
    · exact goesOnInForm_commit σ _
    · split
      · exact goesOnInForm_commit σ _
      · obtain ⟨t, ht, hform⟩ := takeInput_goesOnInForm f.2.commit
        exact ⟨t, ht, fun _ => hform (commit_wf _)⟩

theorem runStep_goesOnInForm (σ : State) : GoesOnInForm σ (runStep σ) := by
  unfold runStep
  split
  case h_1 => exact goesOnInForm_commit σ _
  case h_2 =>
    split
    case h_1 => exact choose_goesOnInForm _ σ
    case h_2 =>
      split
      · exact goesOnInForm_commit σ _
      · exact choose_goesOnInForm _ σ

/-- A step of a part that has not tripped, or for which something waits outside. -/
theorem step_goesOnInForm {σ : State} (h : ¬ (σ.dev.mode = .tripped ∧ σ.dev.inputs = [])) :
    GoesOnInForm σ (step σ) := by
  unfold step
  cases hmode : σ.dev.mode with
  | bringUp => exact goesOnInForm_commit σ _
  | running => exact runStep_goesOnInForm σ
  | recovery => exact choose_goesOnInForm _ σ
  | tripped =>
    cases hin : σ.dev.inputs with
    | nil => exact absurd ⟨hmode, hin⟩ h
    | cons i rest => exact takeInput_goesOnInForm σ

theorem step_tripped {σ : State} (hmode : σ.dev.mode = .tripped) (hin : σ.dev.inputs = []) :
    step σ = .fault .thermalTrip := by
  simp only [step, hmode, hin]

/-- Settles O38: a step ends in a closed transaction or leaves the bytes as they are. -/
theorem stepKeepsMemoryForm : Obligations.StepKeepsMemoryForm := by
  unfold Obligations.StepKeepsMemoryForm
  intro s t hinv hstep
  by_cases h : s.dev.mode = .tripped ∧ s.dev.inputs = []
  · rw [step_tripped h.1 h.2] at hstep
    exact nomatch hstep
  · obtain ⟨t', ht, hform⟩ := step_goesOnInForm h
    cases ht.symm.trans hstep
    exact hform hinv

/-- Settles O39: no arm of `exec` refuses or faults, and so no step does but that of a tripped part with no input. -/
theorem everyStepGoesOn : Obligations.EveryStepGoesOn := by
  unfold Obligations.EveryStepGoesOn
  refine ⟨fun i s => ?exec, fun s => ?step, fun s => step_tripped⟩
  case exec =>
    obtain ⟨t, ht, _⟩ := exec_goesOnInForm i s
    exact ⟨t, ht⟩
  case step =>
    refine Decidable.or_iff_not_imp_left.mpr fun h => ?_
    obtain ⟨t, ht, _⟩ := step_goesOnInForm h
    exact ⟨t, ht⟩

/-- Settles O40: the tables of the reset state list no partition, launch or context. -/
theorem resetState : Obligations.ResetState := by
  unfold Obligations.ResetState
  refine ⟨rfl, rfl, rfl, rfl, rfl, fun _ => rfl, fun _ => rfl, fun core bank => ?_⟩
  exact ⟨rfl, rfl, rfl, rfl, fun n => by cases n <;> rfl, rfl, rfl⟩

end Sys2Proof.Proofs.Steps
end

section
/-! Comparisons, predicate forms, `sel` and `bins` (R300, R301), and forms whose guard is false (R209). -/

namespace Sys2Proof.Proofs.Predicates

open Sys2Proof Sys2Proof.Machine Sys2Proof.Safety Sys2Proof.Laws Sys2Proof.Proofs.ScalarResults

/-- A comparison's arm lands any predicate that its condition is shown to give. -/
theorem exec_lands_pred {i : Instr} {om : BitVec 2} {os ts : BitVec 7} {wd : BitVec 3} {we : BitVec 1} {k : Cond}
    {v : Bool} {a b : Word} {σ : State} (hexec : exec i σ = .next (slotRun (predForm om os ts wd we k) σ))
    (hval : k.holds a b = v) (h : Takes σ) (hg : On σ) (ha : Reads σ ts a) (hb : Safety.Port σ 0 om os b) :
    exec i σ = .next (withMe σ (inFlight σ 1 (.pred v (dest we wd.toNat)) (loaded 0 b (me σ)))) := by
  rw [hexec, predForm_run h hg ha hb, hval]

/-- A place of a number put together from one of lo bits, one of n bits and the rest. -/
theorem testBit_three_parts (lo n x y z i : Nat) (hx : x < 2 ^ lo) (hy : y < 2 ^ n) :
    (x + 2 ^ lo * y + 2 ^ (lo + n) * z).testBit i =
      if i < lo then x.testBit i else if i < lo + n then y.testBit (i - lo) else z.testBit (i - (lo + n)) := by
  rw [show x + 2 ^ lo * y + 2 ^ (lo + n) * z = 2 ^ lo * (2 ^ n * z + y) + x by rw [Nat.pow_add, Nat.mul_add, Nat.mul_assoc]; omega,
    Nat.testBit_two_pow_mul_add _ hx, Nat.testBit_two_pow_mul_add _ hy, Nat.sub_sub]
  by_cases hlo : i < lo
  · simp only [hlo, if_true]
  · simp only [hlo, if_false, show i - lo < n ↔ i < lo + n by omega]

/-- `bins` replaces the bits from lo up to lo + n and no other (R301). -/
theorem insertField_eq_ofNat (x a f : Word) :
    insertField x a f = BitVec.ofNat 64 (x.toNat % 2 ^ (f.toNat % 64) +
      2 ^ (f.toNat % 64) * (a.toNat % 2 ^ fieldWidth f) +
      2 ^ (f.toNat % 64 + fieldWidth f) * (x.toNat / 2 ^ (f.toNat % 64 + fieldWidth f))) := by
  refine BitVec.eq_of_getLsbD_eq fun i hi => ?_
  rw [insertField, BitVec.getLsbD_or, BitVec.getLsbD_and, BitVec.getLsbD_not, fieldMask_getLsbD f i hi,
    placeField_eq_ofNat, BitVec.getLsbD_ofNat, Nat.testBit_mul_two_pow, Nat.testBit_mod_two_pow, BitVec.getLsbD_ofNat,
    testBit_three_parts _ _ _ _ _ _ (Nat.mod_lt _ (Nat.two_pow_pos _)) (Nat.mod_lt _ (Nat.two_pow_pos _)),
    Nat.testBit_mod_two_pow, Nat.testBit_mod_two_pow, Nat.testBit_div_two_pow]
  generalize f.toNat % 64 = lo, fieldWidth f = n
  by_cases hlo : i < lo
  · simp [hlo, hi, Nat.not_le.mpr hlo, BitVec.testBit_toNat]
  · by_cases hn : i < lo + n
    · simp [hlo, hn, hi, show lo ≤ i by omega, show i - lo < n by omega]
    · simp [hlo, hn, hi, show lo ≤ i by omega, show ¬ i - lo < n by omega, show i - (lo + n) + (lo + n) = i by omega,
        BitVec.testBit_toNat]

/-- Settles O2: each comparison's condition is the one that R300 gives, and the bits of `bins` are those of R301. -/
theorem predicateForms : Obligations.PredicateForms := by
  unfold Obligations.PredicateForms
  refine ⟨⟨?comparisons, ?pairs⟩, ?sel, ?bins⟩
  case comparisons =>
    simp only [List.forall_mem_cons, List.not_mem_nil, false_imp_iff, implies_true, and_true]
    exact ⟨fun _ _ _ _ _ _ a b => exec_lands_pred rfl (by simp [Cond.holds, BitVec.toNat_eq]),
      fun _ _ _ _ _ _ a b => exec_lands_pred rfl (by simp [Cond.holds, BitVec.toNat_eq]),
      fun _ _ _ _ _ _ a b => exec_lands_pred rfl rfl,
      fun _ _ _ _ _ _ a b => exec_lands_pred rfl rfl,
      fun _ _ _ _ _ _ a b => exec_lands_pred rfl rfl,
      fun _ _ _ _ _ _ a b => exec_lands_pred rfl rfl,
      fun _ _ _ _ _ _ a b => exec_lands_pred rfl (by simp [Cond.holds, BitVec.toNat_eq])⟩
  case pairs =>
    simp only [List.forall_mem_cons, List.not_mem_nil, false_imp_iff, implies_true, and_true]
    exact ⟨fun _ _ _ _ _ h hg => congrArg Host.Outcome.next (predPair_run h hg),
      fun _ _ _ _ _ h hg => congrArg Host.Outcome.next (predPair_run h hg),
      fun _ _ _ _ _ h hg => congrArg Host.Outcome.next (predPair_run h hg)⟩
  case sel =>
    intro σ om os ts wd we a b h ha hb
    have hrun : exec (.sel om os ts wd we) σ = _ := congrArg Host.Outcome.next (selPlan_run h ha hb)
    exact ⟨fun hon => by rw [hrun, show guardTrue (Work.begin σ) = true from hon]; rfl,
      fun hoff => by rw [hrun, show guardTrue (Work.begin σ) = false from hoff]; rfl⟩
  case bins =>
    intro σ om os ts wd a b x h hg ha hb hx
    have hrun : exec (.bins om os ts wd) σ = _ := congrArg Host.Outcome.next (binsPlan_run h hg ha hb (reads_field hx))
    rw [hrun, insertField_eq_ofNat]
    rfl

-- A false guard (R209)

/-- A form whose plan begins with the guard changes nothing where the guard is false. -/
theorem exec_off {i : Instr} {p : Work → Plan} {σ : State} (hexec : exec i σ = .next (slotRun p σ))
    (hp : guardTrue (Work.begin σ) = false → p (Work.begin σ) = .ok (Work.begin σ)) (h : Takes σ) (ho : Off σ) :
    exec i σ = .next (same σ) := by
  rw [hexec, slotRun_same h (hp ho)]

/-- Settles O3: the plan of every form listed begins with the guard. -/
theorem guardFalseDoesNothing : Obligations.GuardFalseDoesNothing := by
  unfold Obligations.GuardFalseDoesNothing
  simp only [List.forall_mem_cons, List.not_mem_nil, false_imp_iff, implies_true, and_true]
  and_intros
  all_goals
    intros
    and_intros
  all_goals
    refine exec_off rfl ?_ ‹_› ‹_›
    exact fun hoff => if_pos hoff

end Sys2Proof.Proofs.Predicates
end

section
/-! Landings (R208 to R212, R332, R334): the bits of packed elements and of a blend, what each result changes, and the
order in which the results of a cycle land. -/

namespace Sys2Proof.Proofs.Landing

open Sys2Proof Sys2Proof.Machine Sys2Proof.Safety Sys2Proof.Laws

-- Bits of packed elements

theorem testBit_packN {n : Nat} (hn : 0 < n) (xs : List Nat) (i : Nat) :
    (packN n xs).testBit i = (xs.getD (i / n) 0).testBit (i % n) := by
  induction xs generalizing i with
  | nil => simp [packN]
  | cons x t ih =>
    rw [packN, Nat.add_comm, Nat.testBit_two_pow_mul_add _ (Nat.mod_lt x (Nat.two_pow_pos n))]
    by_cases hi : i < n
    · simp [hi, Nat.div_eq_of_lt hi, Nat.mod_eq_of_lt hi]
    · obtain ⟨j, rfl⟩ := Nat.exists_eq_add_of_le (Nat.not_lt.mp hi)
      simp [ih, hi, Nat.add_div_left j hn, Nat.add_mod_left]

theorem unpackN_getD (n x k j : Nat) : (unpackN n x k).getD j 0 = if j < k then x / 2 ^ (n * j) % 2 ^ n else 0 := by
  induction k generalizing x j with
  | zero => simp [unpackN]
  | succ k ih =>
    cases j with
    | zero => simp [unpackN]
    | succ j =>
      rw [unpackN, List.getD_cons_succ, ih, Nat.div_div_eq_div_mul, ← Nat.pow_add, Nat.mul_succ, Nat.add_comm n]
      simp only [Nat.add_lt_add_iff_right]

theorem spreadMask_getLsbD (m : Mask) (i : Nat) (hi : i < 2048) : (spreadMask m).getLsbD i = m.getLsbD (i / 8) := by
  have hbyte : i / 8 < 256 := by omega
  have hones : (255 : Nat).testBit (i % 8) = true := by
    rw [show 255 = 2 ^ 8 - 1 from rfl, Nat.testBit_two_pow_sub_one]
    simpa using Nat.mod_lt i (by decide)
  have hbit : m.getLsbD (i / 8) = decide (m.toNat / 2 ^ (i / 8) % 2 = 1) := by
    rw [← BitVec.testBit_toNat, Nat.testBit_eq_decide_div_mod_eq]
  have hmap : ((unpackN 1 m.toNat 256).map fun b => if b = 1 then 255 else 0).getD (i / 8) 0 =
      if (unpackN 1 m.toNat 256).getD (i / 8) 0 = 1 then 255 else 0 := by
    rw [List.getD_eq_getElem?_getD, List.getD_eq_getElem?_getD, List.getElem?_map]
    cases (unpackN 1 m.toNat 256)[i / 8]? <;> rfl
  rw [spreadMask, packVec, BitVec.getLsbD_ofNat, testBit_packN (by decide), decide_eq_true hi, Bool.true_and,
    hmap, unpackN_getD, if_pos hbyte, Nat.one_mul, hbit]
  by_cases h : m.toNat / 2 ^ (i / 8) % 2 = 1 <;> simp [h, hones]

theorem blend_getLsbD (m : Mask) (x y : Vec) (i : Nat) (hi : i < 2048) :
    (blend m x y).getLsbD i = if m.getLsbD (i / 8) then x.getLsbD i else y.getLsbD i := by
  rw [blend]
  simp only [BitVec.getLsbD_or, BitVec.getLsbD_and, BitVec.getLsbD_not, spreadMask_getLsbD m i hi]
  cases m.getLsbD (i / 8) <;> simp [hi]

-- Marks

theorem tab_get?_del_same {α : Type} (t : Tab α) (k : Nat) : (t.del k).get? k = none := by
  induction t with
  | nil => rfl
  | cons c u ih =>
    obtain ⟨j, b⟩ := c
    by_cases h : j = k <;> simp [Tab.del, Tab.get?, h, ih]

theorem tab_get?_del_other {α : Type} (t : Tab α) {k l : Nat} (h : l ≠ k) : (t.del k).get? l = t.get? l := by
  induction t with
  | nil => rfl
  | cons c u ih =>
    obtain ⟨j, b⟩ := c
    by_cases hj : j = k
    · simp [Tab.del, Tab.get?, hj, ih, Ne.symm h]
    · simp [Tab.del, Tab.get?, hj, ih]

@[simp] theorem marked_setMark_same (c : Ctx) (k m : Nat) : (c.setMark k m).marked k = m := by
  by_cases h : m = 0
  · simp [Ctx.setMark, Ctx.marked, h, Tab.get, tab_get?_del_same]
  · simp [Ctx.setMark, Ctx.marked, h]

theorem marked_setMark_other (c : Ctx) {j k : Nat} (m : Nat) (h : j ≠ k) : (c.setMark k m).marked j = c.marked j := by
  by_cases hm : m = 0
  · simp [Ctx.setMark, Ctx.marked, hm, Tab.get, tab_get?_del_other _ h]
  · simp [Ctx.setMark, Ctx.marked, hm, tab_get_set_other _ _ _ _ _ h]

-- What each result leaves of its context

/-- A scalar result landed. -/
def scalarLanded (latch : Nat) (val : Word) (dst : Option Nat) (mark : Nat) (c : Ctx) : Ctx :=
  ({ c with lat := c.lat.set latch val }.setMark (64 + latch) mark).putS dst val mark

/-- A vector result for register n landed. -/
def vectorLanded (latch : Nat) (lat val : Vec) (act : Mask) (n mark : Nat) (c : Ctx) : Ctx :=
  let c1 := { c with vlat := c.vlat.set latch lat, v := c.v.set n (blend act val (c.vreg n)) }.setMark (80 + latch) mark
  if mark ≠ 0 ∨ act = BitVec.allOnes 256 then c1.setMark (96 + n) mark else c1

/-- A predicate for register n landed. -/
def predLanded (val : Bool) (n : Nat) (c : Ctx) : Ctx :=
  { c with lat := c.lat.set 0 (if val then 1 else 0), p := if n = 0 then c.p else c.p.set n val }.setMark 64 0

/-- A lane mask for register n landed. -/
def maskLanded (latch : Nat) (lat : Vec) (val act : Mask) (n : Nat) (c : Ctx) : Ctx :=
  { c with vlat := c.vlat.set latch lat,
           vm := if n = 0 then c.vm else c.vm.set n ((val &&& act) ||| (c.vmreg n &&& ~~~act)) }.setMark (80 + latch) 0

section Results

variable {latch n mark k : Nat} {val : Word} {dst : Option Nat} {c : Ctx} {x y : Vec} {act : Mask}

theorem scalarLanded_frame :
    scalarLanded latch val dst mark c =
      { c with lat := (scalarLanded latch val dst mark c).lat, s := (scalarLanded latch val dst mark c).s,
               mark := (scalarLanded latch val dst mark c).mark } := by
  cases dst with
  | none => rfl
  | some n => by_cases h : n = 0 <;> simp [scalarLanded, Ctx.putS, h, Ctx.setMark]

theorem scalarLanded_lat : (scalarLanded latch val dst mark c).lat = c.lat.set latch val := by
  cases dst with
  | none => rfl
  | some n => by_cases h : n = 0 <;> simp [scalarLanded, Ctx.putS, h, Ctx.setMark]

theorem scalarLanded_sreg (hn : n ≠ 0) :
    (scalarLanded latch val dst mark c).sreg n = if dst = some n then val else c.sreg n := by
  cases dst with
  | none => simp [scalarLanded, Ctx.putS, Ctx.setMark, Ctx.sreg]
  | some m =>
    by_cases hm : m = 0
    · simp [scalarLanded, Ctx.putS, hm, Ctx.setMark, Ctx.sreg, Ne.symm hn]
    · by_cases hnm : n = m
      · subst hnm; simp [scalarLanded, Ctx.putS, hm, Ctx.setMark, Ctx.sreg]
      · simp [scalarLanded, Ctx.putS, hm, Ctx.setMark, Ctx.sreg, hn, Ne.symm hnm, tab_get_set_other _ _ _ _ _ hnm]

theorem scalarLanded_marked : (scalarLanded latch val dst mark c).marked k =
    if k = 64 + latch ∨ k ≠ 0 ∧ dst = some k then mark else c.marked k := by
  have hlatch : ({ c with lat := c.lat.set latch val }.setMark (64 + latch) mark).marked k =
      if k = 64 + latch then mark else c.marked k := by
    by_cases h : k = 64 + latch
    · rw [h, marked_setMark_same, if_pos rfl]
    · rw [marked_setMark_other _ _ h, if_neg h]
      rfl
  cases dst with
  | none => simpa [scalarLanded, Ctx.putS] using hlatch
  | some m =>
    by_cases hm : m = 0
    · subst hm
      have hiff : (k = 64 + latch ∨ k ≠ 0 ∧ some 0 = some k) ↔ k = 64 + latch := by
        rw [Option.some.injEq]; omega
      simp only [hiff]
      exact hlatch
    · by_cases hk : k = m
      · subst hk; simp [scalarLanded, Ctx.putS, hm]
      · simp only [scalarLanded, Ctx.putS, hm, if_false, Option.some.injEq, Ne.symm hk, and_false, or_false]
        rw [marked_setMark_other _ _ hk]
        exact hlatch

theorem vectorLanded_frame :
    vectorLanded latch x y act n mark c =
      { c with vlat := (vectorLanded latch x y act n mark c).vlat, v := (vectorLanded latch x y act n mark c).v,
               mark := (vectorLanded latch x y act n mark c).mark } := by
  simp only [vectorLanded]
  split <;> rfl

theorem vectorLanded_vlat : (vectorLanded latch x y act n mark c).vlat = c.vlat.set latch x := by
  simp only [vectorLanded]
  split <;> rfl

theorem vectorLanded_v : (vectorLanded latch x y act n mark c).v = c.v.set n (blend act y (c.vreg n)) := by
  simp only [vectorLanded]
  split <;> rfl

theorem vectorLanded_marked (hl : latch < 8) : (vectorLanded latch x y act n mark c).marked k =
    if k = 80 + latch then mark
    else if k = 96 + n ∧ (mark ≠ 0 ∨ act = BitVec.allOnes 256) then mark else c.marked k := by
  have hlatch : ({ c with vlat := c.vlat.set latch x, v := c.v.set n (blend act y (c.vreg n)) }.setMark (80 + latch)
      mark).marked k = if k = 80 + latch then mark else c.marked k := by
    by_cases h : k = 80 + latch
    · rw [h, marked_setMark_same, if_pos rfl]
    · rw [marked_setMark_other _ _ h, if_neg h]
      rfl
  simp only [vectorLanded]
  by_cases hw : mark ≠ 0 ∨ act = BitVec.allOnes 256
  · rw [if_pos hw]
    by_cases hk : k = 96 + n
    · have : ¬ 96 + n = 80 + latch := by omega
      rw [hk, marked_setMark_same, if_neg this, if_pos ⟨rfl, hw⟩]
    · rw [marked_setMark_other _ _ hk, hlatch]
      simp only [hk, false_and, if_false]
  · simp only [hw, if_false, and_false]
    exact hlatch

theorem predLanded_preds {v : Bool} : (predLanded v n c).p = if n = 0 then c.p else c.p.set n v := rfl

theorem maskLanded_masks {m : Mask} : (maskLanded latch x m act n c).vm =
    if n = 0 then c.vm else c.vm.set n ((m &&& act) ||| (c.vmreg n &&& ~~~act)) := rfl

theorem predLanded_marked {v : Bool} : (predLanded v n c).marked k = if k = 64 then 0 else c.marked k := by
  by_cases h : k = 64
  · rw [predLanded, h, marked_setMark_same, if_pos rfl]
  · rw [predLanded, marked_setMark_other _ _ h, if_neg h]
    rfl

theorem maskLanded_marked {m : Mask} : (maskLanded latch x m act n c).marked k = if k = 80 + latch then 0 else c.marked k := by
  by_cases h : k = 80 + latch
  · rw [maskLanded, h, marked_setMark_same, if_pos rfl]
  · rw [maskLanded, marked_setMark_other _ _ h, if_neg h]
    rfl

end Results

theorem landEffect_scalar (w : Work) (core bank latch : Nat) (val : Word) (dst : Option Nat) (mark : Nat) :
    landEffect w core bank (.scalar latch val dst mark) = w.updCtx core bank (scalarLanded latch val dst mark) := rfl

theorem landEffect_vector (w : Work) (core bank latch : Nat) (x y : Vec) (act : Mask) (n mark : Nat) :
    landEffect w core bank (.vector latch x y act (some n) mark) =
      w.updCtx core bank (vectorLanded latch x y act n mark) := by
  simp only [landEffect]
  congr 1
  funext c
  by_cases hm : mark = 0
  · by_cases ha : act = BitVec.allOnes 256 <;> simp [vectorLanded, hm, ha, Ctx.setMark, Ctx.vreg]
  · simp [vectorLanded, hm, Ctx.setMark, Ctx.vreg]

theorem landEffect_pred (w : Work) (core bank : Nat) (val : Bool) (n : Nat) :
    landEffect w core bank (.pred val (some n)) = w.updCtx core bank (predLanded val n) := by
  simp only [landEffect]
  congr 1
  funext c
  by_cases hn : n = 0 <;> simp [predLanded, hn, Ctx.setMark]

theorem landEffect_mask (w : Work) (core bank latch : Nat) (lat : Vec) (val act : Mask) (n : Nat) :
    landEffect w core bank (.mask latch lat val act (some n)) = w.updCtx core bank (maskLanded latch lat val act n) := by
  simp only [landEffect]
  congr 1
  funext c
  by_cases hn : n = 0 <;> simp [maskLanded, hn, Ctx.setMark, Ctx.vmreg]

theorem latch_of_set {c d : Ctx} {latch : Nat} {val : Word} (h : d.lat = c.lat.set latch val) :
    d.latch latch = val ∧ ∀ m, m ≠ latch → d.latch m = c.latch m := by
  simp only [Ctx.latch, h]
  exact ⟨tab_get_set_same _ _ _ _, fun m hm => tab_get_set_other _ _ _ _ _ hm⟩

theorem vlatch_of_set {c d : Ctx} {latch : Nat} {val : Vec} (h : d.vlat = c.vlat.set latch val) :
    d.vlatch latch = val ∧ ∀ m, m ≠ latch → d.vlatch m = c.vlatch m := by
  simp only [Ctx.vlatch, h]
  exact ⟨tab_get_set_same _ _ _ _, fun m hm => tab_get_set_other _ _ _ _ _ hm⟩

/-- A change of one context, written with what it leaves there. -/
theorem updCtx_eq_const {w : Work} {core bank : Nat} {f : Ctx → Ctx} {c : Ctx} (h : f (w.ctx core bank) = c) :
    w.updCtx core bank f = w.updCtx core bank fun _ => c := by
  subst h; rfl

@[simp] theorem ctx_of_updCtx (w : Work) (core bank : Nat) (f : Ctx → Ctx) :
    (w.updCtx core bank f).ctx core bank = f (w.ctx core bank) := ctx_updCtx_same w core bank f

-- The order of landings (R211)

/-- A landing that comes strictly before another. -/
def Earlier (f g : Flight) : Prop := f.due < g.due ∨ f.due = g.due ∧ (f.slot < g.slot ∨ f.slot = g.slot ∧ f.seq < g.seq)

theorem before_iff_not_earlier {g f : Flight} : g.before f = true ↔ ¬ Earlier f g := by
  simp only [Flight.before, Earlier, Bool.or_eq_true, Bool.and_eq_true, decide_eq_true_eq]
  omega

theorem mem_insertFlight {f x : Flight} {l : List Flight} : x ∈ insertFlight f l ↔ x = f ∨ x ∈ l := by
  induction l with
  | nil => simp [insertFlight]
  | cons g t ih =>
    rw [insertFlight]
    split
    · rw [List.mem_cons, ih, List.mem_cons]
      exact or_left_comm
    · rw [List.mem_cons]

theorem mem_sortFlights {x : Flight} {l : List Flight} : x ∈ sortFlights l ↔ x ∈ l := by
  induction l with
  | nil => rfl
  | cons f t ih => rw [sortFlights, mem_insertFlight, ih, List.mem_cons]

theorem pairwise_insertFlight {f : Flight} {l : List Flight} (h : l.Pairwise fun a b => ¬ Earlier b a) :
    (insertFlight f l).Pairwise fun a b => ¬ Earlier b a := by
  induction l with
  | nil => exact List.pairwise_singleton _ _
  | cons g t ih =>
    obtain ⟨hg, ht⟩ := List.pairwise_cons.mp h
    rw [insertFlight]
    split
    case isTrue hb =>
      refine List.pairwise_cons.mpr ⟨fun x hx => ?_, ih ht⟩
      obtain rfl | hx := mem_insertFlight.mp hx
      · exact before_iff_not_earlier.mp hb
      · exact hg x hx
    case isFalse hb =>
      have hfg : ¬ Earlier g f := fun he => by
        rw [before_iff_not_earlier] at hb
        unfold Earlier at hb he
        omega
      refine List.pairwise_cons.mpr ⟨fun x hx => ?_, h⟩
      obtain rfl | hx := List.mem_cons.mp hx
      · exact hfg
      · have hgx := hg x hx
        unfold Earlier at hfg hgx ⊢
        omega

theorem pairwise_sortFlights (l : List Flight) : (sortFlights l).Pairwise fun a b => ¬ Earlier b a := by
  induction l with
  | nil => exact List.Pairwise.nil
  | cons f t ih => exact pairwise_insertFlight ih

/-- What every landing of a list keeps, the list keeps. -/
theorem foldl_landEffect_keeps {core bank : Nat} {P : Ctx → Prop} {l : List Flight} {w : Work}
    (h : ∀ f ∈ l, ∀ u : Work, P (u.ctx core bank) → P ((landEffect u core bank f.eff).ctx core bank))
    (hw : P (w.ctx core bank)) : P ((l.foldl (fun a f => landEffect a core bank f.eff) w).ctx core bank) := by
  induction l generalizing w with
  | nil => exact hw
  | cons f t ih =>
    exact ih (fun g hg => h g (List.mem_cons_of_mem f hg)) (h f List.mem_cons_self w hw)

/-- What a due landing leaves, and no other that is not earlier changes, stands when all that are due have landed. -/
theorem landDue_winner {w : Work} {core bank t : Nat} {g : Flight} {P : Ctx → Prop}
    (hg : g ∈ (w.ctx core bank).flights) (hdue : g.due ≤ t)
    (hset : ∀ u : Work, P ((landEffect u core bank g.eff).ctx core bank))
    (hkeep : ∀ f ∈ (w.ctx core bank).flights, f ≠ g → f.due ≤ t → ¬ Earlier f g →
      ∀ u : Work, P (u.ctx core bank) → P ((landEffect u core bank f.eff).ctx core bank)) :
    P ((w.landDue core bank t).ctx core bank) := by
  have hmem : g ∈ sortFlights ((w.ctx core bank).flights.filter fun f => decide (f.due ≤ t)) :=
    mem_sortFlights.mpr (List.mem_filter.mpr ⟨hg, decide_eq_true hdue⟩)
  obtain ⟨pre, post, hsplit⟩ := List.append_of_mem hmem
  have hafter : ∀ f ∈ post, ¬ Earlier f g := by
    have hsorted := hsplit ▸ pairwise_sortFlights ((w.ctx core bank).flights.filter fun f => decide (f.due ≤ t))
    exact (List.pairwise_cons.mp (List.pairwise_append.mp hsorted).2.1).1
  rw [Work.landDue, hsplit, List.foldl_append, List.foldl_cons]
  refine foldl_landEffect_keeps (fun f hf u hu => ?_) (hset _)
  by_cases hfg : f = g
  · exact hfg ▸ hset u
  · have hin : f ∈ (w.ctx core bank).flights.filter fun f => decide (f.due ≤ t) :=
      mem_sortFlights.mp (hsplit ▸ List.mem_append_right pre (List.mem_cons_of_mem g hf))
    obtain ⟨hin, hle⟩ := List.mem_filter.mp hin
    exact hkeep f hin hfg (of_decide_eq_true hle) (hafter f hf) u hu

/-- A vector result that names no register. -/
theorem landEffect_vector_none (w : Work) (core bank latch : Nat) (x y : Vec) (act : Mask) (mark : Nat) :
    landEffect w core bank (.vector latch x y act none mark) =
      w.updCtx core bank fun c => { c with vlat := c.vlat.set latch x }.setMark (80 + latch) mark := rfl

/-- A vector result changes no scalar register and no scalar latch. -/
theorem landEffect_vector_scalars (w : Work) (core bank latch : Nat) (x y : Vec) (act : Mask) (d : Option Nat)
    (mark : Nat) :
    let c := w.ctx core bank
    let t := (landEffect w core bank (.vector latch x y act d mark)).ctx core bank
    t.s = c.s ∧ t.lat = c.lat ∧ t.flights = c.flights := by
  cases d with
  | none => rw [landEffect_vector_none, ctx_of_updCtx]; exact ⟨rfl, rfl, rfl⟩
  | some n => rw [landEffect_vector, ctx_of_updCtx, vectorLanded_frame]; exact ⟨rfl, rfl, rfl⟩

section Order

variable {w : Work} {core bank t : Nat} {g : Flight} (hg : g ∈ (w.ctx core bank).flights) (hdue : g.due ≤ t)
  (hkind : ∀ f ∈ (w.ctx core bank).flights, (∃ l x d m, f.eff = .scalar l x d m) ∨
    ∃ l x y a d m, f.eff = .vector l x y a d m)

include hkind

theorem landDue_flights : ((w.landDue core bank t).ctx core bank).flights =
    (w.ctx core bank).flights.filter fun f => decide (t < f.due) := by
  refine foldl_landEffect_keeps (P := fun c => c.flights = (w.ctx core bank).flights.filter fun f => decide (t < f.due))
    (fun f hf u hu => ?_) (by rw [ctx_of_updCtx])
  obtain ⟨l, x, d, m, he⟩ | ⟨l, x, y, a, d, m, he⟩ := hkind f (List.mem_filter.mp (mem_sortFlights.mp hf)).1
  · rw [he, landEffect_scalar, ctx_of_updCtx, scalarLanded_frame]
    exact hu
  · rw [he]
    exact (landEffect_vector_scalars ..).2.2.trans hu

include hg hdue

theorem landDue_scalar_winner {l n m : Nat} {y : Word} (he : g.eff = .scalar l y (some n) m) (hn : n ≠ 0)
    (hlast : ∀ f ∈ (w.ctx core bank).flights, f ≠ g → f.due ≤ t → ∀ k x d i, f.eff = .scalar k x d i →
      d = some n ∨ k = l → Earlier f g) :
    ((w.landDue core bank t).ctx core bank).sreg n = y ∧ ((w.landDue core bank t).ctx core bank).latch l = y := by
  refine landDue_winner (P := fun c => c.sreg n = y ∧ c.latch l = y) hg hdue (fun u => ?own)
    fun f hf hfg hle hnot u hu => ?other
  case own =>
    rw [he, landEffect_scalar, ctx_of_updCtx, scalarLanded_sreg hn, if_pos rfl]
    exact ⟨rfl, (latch_of_set scalarLanded_lat).1⟩
  case other =>
    obtain ⟨k, x, d, i, hf'⟩ | ⟨j, x, z, a, d, i, hf'⟩ := hkind f hf
    · obtain ⟨hd, hk⟩ := not_or.mp fun h => hnot (hlast f hf hfg hle k x d i hf' h)
      rw [hf', landEffect_scalar, ctx_of_updCtx, scalarLanded_sreg hn, if_neg hd,
        (latch_of_set scalarLanded_lat).2 l (Ne.symm hk)]
      exact hu
    · obtain ⟨hs, hlat, _⟩ := landEffect_vector_scalars u core bank j x z a d i
      rw [hf']
      simpa only [Ctx.sreg, Ctx.latch, hs, hlat] using hu

theorem landDue_vector_winner {l n m k b : Nat} {x y : Vec} {act : Mask} (he : g.eff = .vector l x y act (some n) m)
    (hk : k < 256) (hb : b < 8) (hact : act.getLsbD k = true)
    (hlast : ∀ f ∈ (w.ctx core bank).flights, f ≠ g → f.due ≤ t → ∀ j u v a i, f.eff = .vector j u v a (some n) i →
      a.getLsbD k = true → Earlier f g) :
    (((w.landDue core bank t).ctx core bank).vreg n).getLsbD (8 * k + b) = y.getLsbD (8 * k + b) := by
  have hbyte : (8 * k + b) / 8 = k := by omega
  have hlt : 8 * k + b < 2048 := by omega
  refine landDue_winner (P := fun c => (c.vreg n).getLsbD (8 * k + b) = y.getLsbD (8 * k + b)) hg hdue (fun u => ?own)
    fun f hf hfg hle hnot u hu => ?other
  case own =>
    rw [he, landEffect_vector, ctx_of_updCtx, Ctx.vreg, vectorLanded_v, tab_get_set_same, blend_getLsbD _ _ _ _ hlt,
      hbyte, if_pos hact]
  case other =>
    obtain ⟨j, z, d, i, hf'⟩ | ⟨j, z, v, a, d, i, hf'⟩ := hkind f hf
    · rw [hf', landEffect_scalar, ctx_of_updCtx, scalarLanded_frame]
      exact hu
    · rw [hf']
      cases d with
      | none =>
        rw [landEffect_vector_none, ctx_of_updCtx]
        exact hu
      | some n' =>
        rw [landEffect_vector, ctx_of_updCtx, Ctx.vreg, vectorLanded_v]
        by_cases hn : n = n'
        · subst hn
          rw [tab_get_set_same, blend_getLsbD _ _ _ _ hlt, hbyte,
            if_neg fun h => hnot (hlast f hf hfg hle j z v a i hf' h)]
          exact hu
        · rw [tab_get_set_other _ _ _ _ _ hn]
          exact hu

end Order

/-- Settles O4: each result is one function of its context, and the landings of a cycle are sorted by R211. -/
theorem landings : Obligations.Landings := by
  unfold Obligations.Landings
  refine ⟨?scalar, ⟨?vector, ?pred, ?mask⟩, ?order⟩
  case scalar =>
    intro w core bank latch val dst mark
    simp only [landEffect_scalar, ctx_of_updCtx]
    obtain ⟨hsame, hother⟩ := latch_of_set (c := w.ctx core bank) (scalarLanded_lat (dst := dst) (mark := mark))
    exact ⟨updCtx_eq_const scalarLanded_frame, hsame, hother, fun n hn => scalarLanded_sreg hn, rfl,
      by rw [scalarLanded_marked, if_pos (.inl rfl)], fun n hn _ hd => by rw [scalarLanded_marked, if_pos (.inr ⟨hn, hd⟩)],
      fun k hk hd => by rw [scalarLanded_marked, if_neg fun h => h.elim hk fun h => hd h.2], fun a => rfl⟩
  case vector =>
    intro w core bank latch lat val act n mark hl hn
    simp only [landEffect_vector, ctx_of_updCtx]
    obtain ⟨hsame, hother⟩ := vlatch_of_set (c := w.ctx core bank)
      (vectorLanded_vlat (y := val) (act := act) (n := n) (mark := mark))
    have hne : ¬ 96 + n = 80 + latch := by omega
    refine ⟨updCtx_eq_const vectorLanded_frame, hsame, hother, fun i hi => ?_, fun m hm => ?_, ?_, ?_, fun k hk hk' => ?_⟩
    · simp only [Ctx.vreg, vectorLanded_v, tab_get_set_same]
      exact blend_getLsbD _ _ _ i hi
    · simp only [Ctx.vreg, vectorLanded_v, tab_get_set_other _ _ _ _ _ hm]
    · rw [vectorLanded_marked hl, if_pos rfl]
    · rw [vectorLanded_marked hl, if_neg hne]; simp only [true_and]
    · rw [vectorLanded_marked hl, if_neg hk, if_neg (fun h => hk' h.1)]
  case pred =>
    intro w core bank val n
    simp only [landEffect_pred, ctx_of_updCtx]
    obtain ⟨hsame, hother⟩ := latch_of_set (show (predLanded val n (w.ctx core bank)).lat = _ from rfl)
    refine ⟨updCtx_eq_const rfl, hsame, hother, fun hn => ?_, fun m hm => ?_, rfl, ?_, fun k hk => ?_⟩
    · simp [Ctx.preg, predLanded_preds, hn]
    · by_cases hn : n = 0
      · simp [Ctx.preg, predLanded_preds, hn]
      · simp [Ctx.preg, predLanded_preds, hn, tab_get_set_other _ _ _ _ _ hm]
    · rw [predLanded_marked, if_pos rfl]
    · rw [predLanded_marked, if_neg hk]
  case mask =>
    intro w core bank latch lat val act n
    simp only [landEffect_mask, ctx_of_updCtx]
    obtain ⟨hsame, hother⟩ := vlatch_of_set (c := w.ctx core bank)
      (show (maskLanded latch lat val act n (w.ctx core bank)).vlat = _ from rfl)
    refine ⟨updCtx_eq_const rfl, hsame, hother, fun hn i hi => ?_, fun m hm => ?_, rfl, ?_, fun k hk => ?_⟩
    · simp only [Ctx.vmreg, maskLanded_masks, hn, if_false, tab_get_set_same, BitVec.getLsbD_or, BitVec.getLsbD_and, BitVec.getLsbD_not]
      cases act.getLsbD i <;> simp [hi]
    · by_cases hn : n = 0
      · simp [Ctx.vmreg, maskLanded_masks, hn]
      · simp [Ctx.vmreg, maskLanded_masks, hn, tab_get_set_other _ _ _ _ _ hm]
    · rw [maskLanded_marked, if_pos rfl]
    · rw [maskLanded_marked, if_neg hk]
  case order =>
    intro w core bank t g
    extract_lets fs after earlier
    intro hg hdue hkind
    exact ⟨landDue_flights hkind, fun l y n m he hn hlast => landDue_scalar_winner hg hdue hkind he hn hlast,
      fun l x y act n m k he hk hact hlast b hb => landDue_vector_winner hg hdue hkind he hk hb hact hlast⟩

end Sys2Proof.Proofs.Landing
end

section
/-! The load/store unit (R303 to R307): what `ld`, `ldu`, `st`, `ld.g`, `ld.e`, `st.g`, `st.e`, `pref` and the atomics send,
store and land, and the atomic operations at the home. -/

namespace Sys2Proof.Proofs.LoadStore

open Sys2Proof Sys2Proof.Machine Sys2Proof.Safety Sys2Proof.Laws Sys2Proof.Proofs.ScalarResults

-- Local store

theorem lsCheck_ok {c : Ctx} {a n : Nat} (hal : a % n = 0) (hdecl : c.declares a n = true) : lsCheck c a n = .ok () := by
  simp [lsCheck, hal, hdecl]

theorem lsCheck_misaligned {c : Ctx} {a n : Nat} (hal : a % n ≠ 0) : lsCheck c a n = .error (.trap 13 none) := by
  simp [lsCheck, hal]

theorem lsCheck_undeclared {c : Ctx} {a n : Nat} (hal : a % n = 0) (hdecl : c.declares a n = false) :
    lsCheck c a n = .error (.trap 10 none) := by
  simp [lsCheck, hal, hdecl]

section Forms

variable {σ : State} {om : BitVec 2} {os ts : BitVec 7} {wd : BitVec 6} {we : BitVec 1} {q : BitVec 2} {a b v : Word}
  {signed : Bool} {s : Stop}

theorem loadLocal_ok (hg : On σ) (ha : Reads σ ts a) (hb : Safety.Port σ 2 om os b)
    (hc : lsCheck (me σ) (a + b).toNat (2 ^ q.toNat) = .ok ()) :
    loadLocal signed om os ts wd we q (Work.begin σ) =
      let k := (me σ).relocate (a + b).toNat
      let x := (Work.begin σ).lsRead σ.dev.issue.core k (2 ^ q.toNat)
      .ok (((Work.begin σ).setPort 2 b).launchAt 6 (.scalar 2
        (if signed then BitVec.ofInt 64 (sx (8 * 2 ^ q.toNat) x) else BitVec.ofNat 64 x) (dest we wd.toNat)
        (lsMark (Work.begin σ) k (2 ^ q.toNat)))) := by
  simp [-BitVec.toNat_add, loadLocal, on_not hg, readAB_ok ha hb, sizeBytes, hc]

theorem loadLocal_stops (hg : On σ) (ha : Reads σ ts a) (hb : Safety.Port σ 2 om os b)
    (hc : lsCheck (me σ) (a + b).toNat (2 ^ q.toNat) = .error s) :
    loadLocal signed om os ts wd we q (Work.begin σ) = .error s := by
  simp [-BitVec.toNat_add, loadLocal, on_not hg, readAB_ok ha hb, sizeBytes, hc]

theorem storeLocal_ok (hg : On σ) (ha : Reads σ ts a) (hb : Safety.Port σ 2 om os b) (hv : Reads σ (wd.setWidth 7) v)
    (hc : lsCheck (me σ) (a + b).toNat (2 ^ q.toNat) = .ok ()) :
    storeLocal om os ts wd q (Work.begin σ) =
      .ok (((Work.begin σ).setPort 2 b).lsWrite σ.dev.issue.core ((me σ).relocate (a + b).toNat) (2 ^ q.toNat) v.toNat) := by
  simp [-BitVec.toNat_add, storeLocal, on_not hg, readAB_ok ha hb, reads_field hv, sizeBytes, hc]

theorem storeLocal_stops (hg : On σ) (ha : Reads σ ts a) (hb : Safety.Port σ 2 om os b)
    (hv : Reads σ (wd.setWidth 7) v) (hc : lsCheck (me σ) (a + b).toNat (2 ^ q.toNat) = .error s) :
    storeLocal om os ts wd q (Work.begin σ) = .error s := by
  simp [-BitVec.toNat_add, storeLocal, on_not hg, readAB_ok ha hb, reads_field hv, sizeBytes, hc]

end Forms

-- The bytes that a store leaves

theorem key_ls_add (core a i : Nat) : Key.ls core (a + i) = Key.ls core a + i := by
  unfold Key.ls
  generalize 0x20000000000000 + core * 0x100000 = base
  exact (Nat.add_assoc base a i).symm

@[simp] theorem byte_updCore (w : Work) (core : Nat) (f : Core → Core) (x : Nat) :
    (w.updCore core f).byte x = w.byte x := rfl

@[simp] theorem byte_mapDev (w : Work) (f : Dev → Dev) (x : Nat) : (w.mapDev f).byte x = w.byte x := rfl

@[simp] theorem byte_updCtx (w : Work) (core bank : Nat) (f : Ctx → Ctx) (x : Nat) :
    (w.updCtx core bank f).byte x = w.byte x := rfl

theorem byte_lsSet (w : Work) (core a v x : Nat) :
    (w.lsSet core a v).byte x = if x = Key.ls core a then BitVec.ofNat 8 v else w.byte x := by
  rw [← byte_setByte, Work.lsSet, byte_updCore, byte_mapDev]

theorem byte_lsWrite_outside (w : Work) (core a n v x : Nat) (h : x < Key.ls core a ∨ Key.ls core a + n ≤ x) :
    (w.lsWrite core a n v).byte x = w.byte x := by
  induction n generalizing w a v with
  | zero => rfl
  | succ n ih =>
    rw [Work.lsWrite, ih _ _ _ (by rw [key_ls_add]; omega), byte_lsSet, if_neg (by omega)]

theorem byte_lsWrite_inside (w : Work) (core a n v i : Nat) (h : i < n) :
    (w.lsWrite core a n v).byte (Key.ls core a + i) = BitVec.ofNat 8 (v / 256 ^ i) := by
  induction n generalizing w a v i with
  | zero => omega
  | succ n ih =>
    rw [Work.lsWrite]
    cases i with
    | zero =>
      rw [byte_lsWrite_outside _ _ _ _ _ _ (by rw [key_ls_add]; omega), byte_lsSet, Nat.add_zero, if_pos rfl, Nat.pow_zero,
        Nat.div_one]
    | succ i =>
      have hstep : Key.ls core a + (i + 1) = Key.ls core (a + 1) + i := by rw [key_ls_add]; omega
      rw [hstep, ih _ _ _ _ (by omega), Nat.div_div_eq_div_mul, Nat.pow_succ, Nat.mul_comm]

/-- A store changes no context, and of the issue record only the bytes replaced. -/
theorem lsWrite_frame (w : Work) (core a n v : Nat) :
    (w.lsWrite core a n v).dev.ctxs = w.dev.ctxs ∧ (w.lsWrite core a n v).dev.issue.core = w.dev.issue.core ∧
      (w.lsWrite core a n v).dev.issue.bank = w.dev.issue.bank := by
  induction n generalizing w a v with
  | zero => exact ⟨rfl, rfl, rfl⟩
  | succ n ih => exact ih (w.lsSet core a v) (a + 1) (v / 256)

/-- Settles O6: the plans make their checks before they write, and a store writes its bytes one after another. -/
theorem localStore : Obligations.LocalStore := by
  unfold Obligations.LocalStore
  refine ⟨?store, ?loadFaults, ?storeFaults⟩
  case store =>
    intro σ om os ts wd q a b v h hg ha hb hv hal hdecl
    obtain ⟨hctxs, hcore, hbank⟩ := lsWrite_frame ((Work.begin σ).setPort 2 b) σ.dev.issue.core
      ((me σ).relocate (a + b).toNat) (2 ^ q.toNat) v.toNat
    have hset : ((Work.begin σ).setPort 2 b).dev.ctxs = σ.dev.ctxs.set (key σ) (loaded 2 b (me σ)) := rfl
    refine ⟨_, congrArg Host.Outcome.next (slotRun_ok h (storeLocal_ok hg ha hb hv (lsCheck_ok hal hdecl))), ?_,
      fun k hk => ?_, fun i hi => ?_, fun x hx => ?_⟩
    · rw [me, commit_dev, Dev.ctx, hctxs, hcore, hbank, hset]
      exact tab_get_set_same _ _ _ _
    · rw [commit_dev, hctxs, hset, tab_get?_set_other _ _ _ _ hk]
    · rw [commit_read, byte_lsWrite_inside _ _ _ _ _ _ hi]
    · rw [commit_read, byte_lsWrite_outside _ _ _ _ _ _ hx]
      rfl
  case loadFaults =>
    simp only [List.forall_mem_cons, List.not_mem_nil, false_imp_iff, implies_true, and_true]
    exact ⟨fun σ om os ts wd we q a b h hg ha hb =>
        ⟨fun hal => congrArg Host.Outcome.next (slotRun_trap h (loadLocal_stops hg ha hb (lsCheck_misaligned hal))),
        fun hal hdecl => congrArg Host.Outcome.next (slotRun_trap h (loadLocal_stops hg ha hb (lsCheck_undeclared hal hdecl)))⟩,
      fun σ om os ts wd we q a b h hg ha hb =>
        ⟨fun hal => congrArg Host.Outcome.next (slotRun_trap h (loadLocal_stops hg ha hb (lsCheck_misaligned hal))),
        fun hal hdecl => congrArg Host.Outcome.next (slotRun_trap h (loadLocal_stops hg ha hb (lsCheck_undeclared hal hdecl)))⟩⟩
  case storeFaults =>
    intro σ om os ts wd q a b v h hg ha hb hv
    exact ⟨fun hal => congrArg Host.Outcome.next (slotRun_trap h (storeLocal_stops hg ha hb hv (lsCheck_misaligned hal))),
      fun hal hdecl =>
        congrArg Host.Outcome.next (slotRun_trap h (storeLocal_stops hg ha hb hv (lsCheck_undeclared hal hdecl)))⟩

-- Operations that are sent away

theorem vaOk_of_lt {x : Word} (h : x.toNat < 2 ^ 56) : vaOk x = true := decide_eq_true h

@[simp] theorem loaded_seq (u : Nat) (b : Word) (c : Ctx) : (loaded u b c).seq = c.seq := rfl
@[simp] theorem loaded_outs (u : Nat) (b : Word) (c : Ctx) : (loaded u b c).outs = c.outs := rfl
@[simp] theorem loaded_accs (u : Nat) (b : Word) (c : Ctx) : (loaded u b c).accs = c.accs := rfl
@[simp] theorem loaded_ext (u : Nat) (b : Word) (c : Ctx) : (loaded u b c).ext = c.ext := rfl
@[simp] theorem loaded_part (u : Nat) (b : Word) (c : Ctx) : (loaded u b c).part = c.part := rfl
@[simp] theorem setPort_me (σ : State) (u : Nat) (b : Word) : ((Work.begin σ).setPort u b).me = loaded u b (me σ) :=
  setPort_begin σ u b
@[simp] theorem setPort_issue (w : Work) (u : Nat) (b : Word) : (w.setPort u b).dev.issue = w.dev.issue := rfl

/-- A free landing-buffer entry, as the plans test it. -/
theorem bufferFree_me {σ : State} (h : HasBuffer σ) : bufferFree (me σ) = .ok () := if_pos h
theorem bufferFree_loaded {σ : State} {u : Nat} {b : Word} (h : HasBuffer σ) :
    bufferFree (loaded u b (me σ)) = .ok () := if_pos h

section Sent

variable {σ : State} {om : BitVec 2} {os ts : BitVec 7} {wd : BitVec 6} {we : BitVec 1} {q : BitVec 2} {a b v : Word}
  {x : Xlat} {e : Extent}

/-- A form whose plan loads its port and changes, besides, the issuing context by f, and the core's translations. -/
theorem leaves_port {p : Work → Plan} {w : Work} {u : Nat} {c : Ctx} (f : Ctx → Ctx) (h : Takes σ)
    (hp : p (Work.begin σ) = .ok w) (hb : w.base = σ.mem) (hl : w.log = []) (hi : w.dev.issue = σ.dev.issue)
    (hw : w.dev.ctxs = (((Work.begin σ).setPort u b).updMe f).dev.ctxs) (hc : f (loaded u b (me σ)) = c) :
    Leaves σ (.next (slotRun p σ)) c :=
  hc ▸ leaves_run h hp hb hl hi (hw.trans (setPort_ctxs f))

/-- One more change of the issuing context, after one that is known. -/
theorem updMe_ctxs_after {w w' : Work} {f g : Ctx → Ctx} (h : w.dev.ctxs = (w'.updMe g).dev.ctxs)
    (hi : w.dev.issue = w'.dev.issue) : (w.updMe f).dev.ctxs = (w'.updMe fun c => f (g c)).dev.ctxs := by
  have hme : w.me = (w'.updMe g).me := by rw [Work.me, Dev.ctx, h, hi]; rfl
  rw [← updMe_updMe w' g f, updMe_ctxs w, updMe_ctxs (w'.updMe g), h, hi, hme]
  rfl

/-- What a landing-buffer entry and an access under a translation are to their context. -/
theorem pushOut_pushAccess_ctxs (w : Work) (kind : LandKind) (latch : Nat) (dst : Option Nat) (dflt : Nat)
    (res : Option Arrived) (k : AccessKind) (va : Nat) (arms : Bool) :
    ((w.pushOut kind latch dst a b dflt res).pushAccess k va x arms).dev.ctxs =
      (w.updMe fun c => { c with
        seq := c.seq + 1
        outs := c.outs ++ [{ id := c.seq, due := w.myCore.clk + landDelay w.dev.issue.ld dflt, kind := kind,
                             latch := latch, dst := dst, pc := w.dev.issue.pc, word := w.dev.issue.word,
                             ld := w.dev.issue.ld, operand := b, trigger := a, res := res }]
        accs := c.accs ++ [{ kind := k, va := va, pa := x.pa, pc := w.dev.issue.pc, cls := x.cls, seq := c.seq,
                             arms := arms, at_ := w.myCore.clk, handle := x.handle, lines := x.lines,
                             tmin := linesTime w.dev x.lines }] }).dev.ctxs := by
  simp only [Work.pushOut, Work.pushAccess, updMe_updMe]
  rfl

theorem loadPlan_global_ok (hg : On σ) (ha : Reads σ ts a) (hb : Safety.Port σ 2 om os b) (hf : HasBuffer σ)
    (hva : (a + b).toNat < 2 ^ 56) (hal : (a + b).toNat % 2 ^ q.toNat = 0) (hs : inSystemPage (a + b).toNat = false)
    (hx : Translates σ [.read] (a + b).toNat 8 true x) :
    loadPlan false om os ts wd we q (Work.begin σ) =
      .ok ((((Work.begin σ).setPort 2 b).pushOut .load 2 (dest we wd.toNat) a b 40 none).pushAccess
        (.load (2 ^ q.toNat) true (me σ).seq) (a + b).toNat x false) := by
  simp [-BitVec.toNat_add, loadPlan, on_not hg, bufferFree_me hf, readAB_ok ha hb, loadGlobal, bufferFree_loaded hf,
    vaOk_of_lt hva, sizeBytes, hal, hs, translates_setPort hx]

/-- The system page's bytes do not depend on the contexts. -/
theorem systemRead_updMe (w : Work) (f : Ctx → Ctx) (core off n : Nat) :
    systemRead (w.updMe f).dev core off n = systemRead w.dev core off n := by
  induction n generalizing off with
  | zero => rfl
  | succ n ih => exact congrArg (fun y => _ + 256 * y) (ih (off + 1))

theorem loadPlan_system_ok (hg : On σ) (ha : Reads σ ts a) (hb : Safety.Port σ 2 om os b) (hf : HasBuffer σ)
    (hva : (a + b).toNat < 2 ^ 56) (hal : (a + b).toNat % 2 ^ q.toNat = 0) (hs : inSystemPage (a + b).toNat = true) :
    loadPlan false om os ts wd we q (Work.begin σ) =
      let v := BitVec.ofInt 64 (sx (8 * 2 ^ q.toNat)
        (systemRead σ.dev σ.dev.issue.core ((a + b).toNat % 0x10000) (2 ^ q.toNat)))
      .ok ((((Work.begin σ).setPort 2 b).pushOut .load 2 (dest we wd.toNat) a b 40 (some { val := v })).updMe numbered) := by
  simp [-BitVec.toNat_add, loadPlan, on_not hg, bufferFree_me hf, readAB_ok ha hb, loadGlobal, bufferFree_loaded hf,
    vaOk_of_lt hva, sizeBytes, hal, hs]
  simp only [Work.setPort, systemRead_updMe]
  rfl

theorem extentAt_ok {w : Work} {n perm : Nat} (hb : b.toNat < 16) (he : w.me.ext.get? b.toNat = some e)
    (hlen : a.toNat + n ≤ e.len) (ha : a.toNat < 2 ^ 40) (hal : (e.pa + a.toNat) % n = 0) (hp : bit e.perms perm = true) :
    extentAt w a b n perm = .ok e := by
  simp only [extentAt, he, hb, hlen, ha, hal, hp, decide_true, Bool.and_self, check_true, bind_ok]

theorem loadPlan_extent_ok (hg : On σ) (ha : Reads σ ts a) (hb : Safety.Port σ 2 om os b) (hf : HasBuffer σ)
    (he : extentAt ((Work.begin σ).setPort 2 b) a b (2 ^ q.toNat) 0 = .ok e) :
    loadPlan true om os ts wd we q (Work.begin σ) =
      .ok ((((Work.begin σ).setPort 2 b).pushOut .load 2 (dest we wd.toNat) a b 40 none).updMe fun c => { c with
        seq := c.seq + 1
        accs := c.accs ++ [{ kind := .load (2 ^ q.toNat) true c.seq, va := e.va + a.toNat, pa := e.pa + a.toNat,
                             pc := σ.dev.issue.pc, cls := e.cls, seq := c.seq, at_ := (myCore σ).clk,
                             tmin := linesTime σ.dev e.lines }] }) := by
  simp [loadPlan, on_not hg, bufferFree_me hf, readAB_ok ha hb, loadExtent, bufferFree_loaded hf, sizeBytes, he]
  rfl

theorem pushAccess_ctxs (w : Work) (k : AccessKind) (va : Nat) (arms : Bool) :
    (w.pushAccess k va x arms).dev.ctxs =
      (w.updMe fun c => { c with
        seq := c.seq + 1
        accs := c.accs ++ [{ kind := k, va := va, pa := x.pa, pc := w.dev.issue.pc, cls := x.cls, seq := c.seq,
                             arms := arms, at_ := w.myCore.clk, handle := x.handle, lines := x.lines,
                             tmin := linesTime w.dev x.lines }] }).dev.ctxs := rfl

theorem translates_begin {need : List Need} {va base : Nat} {parks : Bool} (h : Translates σ need va base parks x) :
    xlate (Work.begin σ) need va base parks = .ok x := h

theorem storeGlobal_ok (hg : On σ) (ha : Reads σ ts a) (hb : Safety.Port σ 2 om os b) (hv : Reads σ (wd.setWidth 7) v)
    (hva : (a + b).toNat < 2 ^ 56) (hal : (a + b).toNat % 2 ^ q.toNat = 0)
    (hx : Translates σ [.write] (a + b).toNat 9 true x) :
    storeGlobal om os ts wd q (Work.begin σ) =
      .ok (((Work.begin σ).setPort 2 b).pushAccess (.store (2 ^ q.toNat) (v.toNat % 2 ^ (8 * 2 ^ q.toNat)))
        (a + b).toNat x false) := by
  simp [-BitVec.toNat_add, storeGlobal, on_not hg, readAB_ok ha hb, reads_field hv, vaOk_of_lt hva, sizeBytes, hal,
    translates_begin hx]

theorem storeExtent_ok (hg : On σ) (ha : Reads σ ts a) (hb : Safety.Port σ 2 om os b) (hv : Reads σ (wd.setWidth 7) v)
    (he : extentAt (Work.begin σ) a b (2 ^ q.toNat) 1 = .ok e) :
    storeExtent om os ts wd q (Work.begin σ) =
      .ok (((Work.begin σ).setPort 2 b).updMe fun c => { c with
        seq := c.seq + 1
        accs := c.accs ++ [{ kind := .store (2 ^ q.toNat) (v.toNat % 2 ^ (8 * 2 ^ q.toNat)), va := e.va + a.toNat,
                             pa := e.pa + a.toNat, pc := σ.dev.issue.pc, cls := e.cls, seq := c.seq,
                             at_ := (myCore σ).clk, tmin := linesTime σ.dev e.lines }] }) := by
  simp [storeExtent, on_not hg, readAB_ok ha hb, reads_field hv, sizeBytes, he]

theorem prefPlan_ok (hg : On σ) (ha : Reads σ ts a) (hb : Safety.Port σ 2 om os b) (hva : (a + b).toNat < 2 ^ 56)
    (hx : Translates σ [.read] (a + b).toNat 8 true x) :
    prefPlan om os ts (Work.begin σ) =
      .ok (((Work.begin σ).setPort 2 b).pushAccess (.prefetch x.cls) (a + b).toNat x false) := by
  simp [-BitVec.toNat_add, prefPlan, on_not hg, readAB_ok ha hb, vaOk_of_lt hva, translates_begin hx]

/-- A `pref` whose address has no page to fetch only loads its port (R306). -/
theorem prefPlan_none (hg : On σ) (ha : Reads σ ts a) (hb : Safety.Port σ 2 om os b)
    (hx : vaOk (a + b) = false ∨ vaOk (a + b) = true ∧
      ∃ cause, xlate (Work.begin σ) [.read] (a + b).toNat 8 true = .error (.trap cause none)) :
    prefPlan om os ts (Work.begin σ) = .ok ((Work.begin σ).setPort 2 b) := by
  rcases hx with h | ⟨h, cause, hx⟩ <;>
    simp [-BitVec.toNat_add, prefPlan, on_not hg, readAB_ok ha hb, *]

theorem setPort_commit (σ : State) (u : Nat) (b : Word) :
    ((Work.begin σ).setPort u b).commit = withMe σ (loaded u b (me σ)) := updMe_commit σ (loaded u b)

/-- A form whose plan only loads its port. -/
theorem portOnly_run {p : Work → Plan} {u : Nat} (h : Takes σ) (hp : p (Work.begin σ) = .ok ((Work.begin σ).setPort u b)) :
    slotRun p σ = withMe σ (loaded u b (me σ)) := by
  rw [slotRun_ok h hp, setPort_commit]

theorem atomicPlan_ok {op n f : Nat} {nw : Word} (hg : On σ) (ha : Reads σ ts a) (hb : Safety.Port σ 2 om os b)
    (hnw : op = 9 ∧ Reads σ (wd.setWidth 7) nw ∨ op ≠ 9 ∧ nw = 0) (hf : HasBuffer σ)
    (hva : a.toNat < 2 ^ 56) (hal : a.toNat % n = 0) (hx : Translates σ [.atomic] a.toNat 9 true x)
    (hroute : regionOf x.pa = .peer → Config.routeCarriesAtomics (bits x.pa 49 38) = true) :
    atomicPlan op n f om os ts wd we (Work.begin σ) =
      .ok ((((Work.begin σ).setPort 2 b).pushOut .atomic 2 (dest we wd.toNat) a b 40 none).pushAccess
        (.atomic op n b.toNat nw.toNat f (me σ).seq) a.toNat x false) := by
  have hr : (decide (regionOf x.pa ≠ .peer) || Config.routeCarriesAtomics (bits x.pa 49 38)) = true := by
    by_cases h : regionOf x.pa = .peer
    · simp [hroute h]
    · simp [h]
  rcases hnw with ⟨hop, hv⟩ | ⟨hop, rfl⟩
  · simp only [atomicPlan, if_neg (on_not hg), begin_me, bufferFree_me hf, bind_ok, readAB_ok ha hb, if_pos hop,
      reads_field hv, vaOk_of_lt hva, hal, translates_begin hx, hr, decide_true, check_true, checkVal_true]
  · simp only [atomicPlan, if_neg (on_not hg), begin_me, bufferFree_me hf, bind_ok, readAB_ok ha hb, if_neg hop,
      vaOk_of_lt hva, hal, translates_begin hx, hr, decide_true, check_true, checkVal_true]

/-- What every atomic sends (R307). -/
theorem atomicPlan_leaves {op n f : Nat} {nw : Word} (h : Takes σ) (hg : On σ) (ha : Reads σ ts a)
    (hb : Safety.Port σ 2 om os b) (hnw : op = 9 ∧ Reads σ (wd.setWidth 7) nw ∨ op ≠ 9 ∧ nw = 0) (hf : HasBuffer σ)
    (hva : a.toNat < 2 ^ 56) (hal : a.toNat % n = 0) (hx : Translates σ [.atomic] a.toNat 9 true x)
    (hroute : regionOf x.pa = .peer → Config.routeCarriesAtomics (bits x.pa 49 38) = true) :
    Leaves σ (.next (slotRun (atomicPlan op n f om os ts wd we) σ)) { loaded 2 b (me σ) with
      seq := (me σ).seq + 1
      outs := (me σ).outs ++ [outEntry σ .atomic 2 (dest we wd.toNat) a b 40 none]
      accs := (me σ).accs ++ [accEntry σ (.atomic op n b.toNat nw.toNat f (me σ).seq) a.toNat x false] } :=
  leaves_port _ h (atomicPlan_ok hg ha hb hnw hf hva hal hx hroute) rfl rfl rfl (pushOut_pushAccess_ctxs ..) rfl

end Sent

theorem lsByte_lt (w : Work) (core a : Nat) : w.lsByte core a < 256 := by
  unfold Work.lsByte
  split <;> exact BitVec.isLt _

theorem lsRead_lt (w : Work) (core a n : Nat) : w.lsRead core a n < 2 ^ (8 * n) := by
  induction n generalizing a with
  | zero => exact Nat.one_pos
  | succ n ih =>
    have hrest := ih (a + 1)
    have hbyte := lsByte_lt w core a
    rw [Work.lsRead, Nat.mul_succ, Nat.pow_add]
    omega

/-- Settles O5. -/
theorem loadForms : Obligations.LoadForms := by
  unfold Obligations.LoadForms
  refine ⟨?ls, ?global, ?system, ?extent⟩
  case ls =>
    simp only [List.forall_mem_cons, List.not_mem_nil, false_imp_iff, implies_true, and_true]
    constructor <;> intro σ om os ts wd we q a b h hg ha hb hal hdecl
    · rw [← Nat.mod_eq_of_lt (lsRead_lt (Work.begin σ) σ.dev.issue.core ((me σ).relocate (a + b).toNat) (2 ^ q.toNat)),
        ← ofInt_sx _ _ (Nat.mul_pos (by decide) (Nat.two_pow_pos _)), ← launch_commit]
      exact congrArg Host.Outcome.next (slotRun_ok h (loadLocal_ok hg ha hb (lsCheck_ok hal hdecl)))
    · rw [← launch_commit]
      exact congrArg Host.Outcome.next (slotRun_ok h (loadLocal_ok hg ha hb (lsCheck_ok hal hdecl)))
  case global =>
    intro σ om os ts wd we q a b x h hg ha hb hf hva hal hs hx
    exact leaves_port _ h (loadPlan_global_ok hg ha hb hf hva hal hs hx) rfl rfl rfl (pushOut_pushAccess_ctxs ..) rfl
  case system =>
    intro σ om os ts wd we q a b h hg ha hb hf hva hal hs
    exact leaves_port _ h (loadPlan_system_ok hg ha hb hf hva hal hs) rfl rfl rfl
      (congrArg (fun w : Work => w.dev.ctxs) (updMe_updMe _ _ _)) rfl
  case extent =>
    intro σ om os ts wd we q a b e h hg ha hb hf hb16 he hlen ha40 hal hp
    exact leaves_port _ h (loadPlan_extent_ok hg ha hb hf (extentAt_ok hb16 (by simpa using he) hlen ha40 hal hp)) rfl rfl rfl
      (congrArg (fun w : Work => w.dev.ctxs) (updMe_updMe _ _ _)) rfl

/-- Settles O7. -/
theorem postedStores : Obligations.PostedStores := by
  unfold Obligations.PostedStores
  refine ⟨?stG, ?stE, ?pref, ?prefHigh, ?prefRefused⟩
  case stG =>
    intro σ om os ts wd q a b v x h hg ha hb hv hva hal hx
    exact leaves_port _ h (storeGlobal_ok hg ha hb hv hva hal hx) rfl rfl rfl (pushAccess_ctxs ..) rfl
  case stE =>
    intro σ om os ts wd q a b v e h hg ha hb hv hb16 he hlen ha40 hal hp
    exact leaves_port _ h (storeExtent_ok hg ha hb hv (extentAt_ok hb16 he hlen ha40 hal hp)) rfl rfl rfl rfl rfl
  case pref =>
    intro σ om os ts a b x h hg ha hb hva hx
    exact leaves_port _ h (prefPlan_ok hg ha hb hva hx) rfl rfl rfl (pushAccess_ctxs ..) rfl
  case prefHigh =>
    intro σ om os ts a b h hg ha hb hva
    exact congrArg Host.Outcome.next
      (portOnly_run h (prefPlan_none hg ha hb (.inl (decide_eq_false (Nat.not_lt.mpr hva)))))
  case prefRefused =>
    intro σ om os ts a b cause h hg ha hb hva hx
    exact congrArg Host.Outcome.next (portOnly_run h (prefPlan_none hg ha hb (.inr ⟨vaOk_of_lt hva, cause, hx⟩)))

-- The operations at the home (R307)

/-- The value of a field as a signed number. -/
theorem sx_of_lt {n x : Nat} (hn : 0 < n) (hx : x < 2 ^ n) :
    sx n x = if 2 * x < 2 ^ n then (x : Int) else (x : Int) - 2 ^ n := by
  have hpow : 2 ^ (n - 1) * 2 = 2 ^ n := Nat.two_pow_pred_mul_two hn
  by_cases h : x < 2 ^ (n - 1)
  · simp only [sx, Nat.mod_eq_of_lt hx, h, if_true, show 2 * x < 2 ^ n by omega]
  · simp only [sx, Nat.mod_eq_of_lt hx, h, if_false, show ¬ 2 * x < 2 ^ n by omega]
    exact congrArg (fun d => (x : Int) - d) (Int.natCast_pow 2 n)

/-- The signed minimum and maximum pick the operand whose signed value is the smaller or the larger. -/
theorem sx_pick (n o y : Nat) :
    sx n (if sx n o < sx n y then o else y) = min (sx n o) (sx n y) ∧
      sx n (if sx n o < sx n y then y else o) = max (sx n o) (sx n y) := by
  by_cases h : sx n o < sx n y
  · simp only [h, if_true]; omega
  · simp only [h, if_false]; omega

theorem amoLands_signed {k n o : Nat} (h : k ≠ 6 ∧ k ≠ 7 ∧ k ≠ 10) : amoLands k n o = BitVec.ofInt 64 (sx (8 * n) o) :=
  if_neg (by omega)

theorem amoLands_unsigned {k n o : Nat} (h : k = 6 ∨ k = 7 ∨ k = 10) (ho : o < 2 ^ (8 * n)) :
    amoLands k n o = BitVec.ofNat 64 o :=
  (if_pos h).trans (by rw [Nat.mod_eq_of_lt ho])

theorem faddFmt_eq (f : Nat) : faddFmt f = if f = 0 then .fp16 else if f = 1 then .bf16 else .fp32 := by
  match f with
  | 0 | 1 | _ + 2 => rfl

/-- Settles O8. -/
theorem atomics : Obligations.Atomics := by
  unfold Obligations.Atomics
  refine ⟨⟨?plain, ?cas, ?fadd⟩, ?home⟩
  case plain =>
    simp only [List.forall_mem_cons, List.not_mem_nil, false_imp_iff, implies_true, and_true]
    refine ⟨?_, ?_, ?_, ?_, ?_, ?_, ?_, ?_, ?_⟩ <;>
    · intro σ om os ts wd we q a b x h hg ha hb
      exact atomicPlan_leaves h hg ha hb (.inr ⟨by decide, rfl⟩)
  case cas =>
    intro σ om os ts wd we q a b v x h hg ha hb hv
    exact atomicPlan_leaves h hg ha hb (.inl ⟨rfl, hv⟩)
  case fadd =>
    intro σ om os ts wd we q a b x h hg ha hb
    exact atomicPlan_leaves h hg ha hb (.inr ⟨by decide, rfl⟩)
  case home =>
    intro n o y w hn ho hy s
    have hpos : 0 < 8 * n := by
      simp only [List.mem_cons, List.not_mem_nil, or_false] at hn
      omega
    have hs : ∀ x, x < 2 ^ (8 * n) → s x = sx (8 * n) x := fun x hx => (sx_of_lt hpos hx).symm
    have ho' : o % 2 ^ (8 * n) = o := Nat.mod_eq_of_lt ho
    have hy' : y % 2 ^ (8 * n) = y := Nat.mod_eq_of_lt hy
    obtain ⟨hmin, hmax⟩ := sx_pick (8 * n) o y
    simp only [amoNew, ho', hy', true_and]
    refine ⟨?_, ?_, fun f hf hnf => ?_, fun k hk => ?_, fun k hk => ?_⟩
    · rw [hs _ (by split <;> assumption), hs o ho, hs y hy, hmin]
    · rw [hs _ (by split <;> assumption), hs o ho, hs y hy, hmax]
    · rw [faddFmt_eq]
    · exact amoLands_unsigned (by simpa using hk) ho
    · rw [hs o ho]
      exact amoLands_signed (by simp only [List.mem_cons, List.not_mem_nil, or_false] at hk; omega)

-- Range operations and completion barrier words

section Barriers

variable {σ : State} {om : BitVec 2} {os ts : BitVec 7} {wd : BitVec 6} {we : BitVec 1} {a b : Word} {x : Xlat}

theorem rangePlan_none {op : Nat} (hg : On σ) (ha : Reads σ ts a) (hb : Safety.Port σ 5 om os b) (h0 : b = 0) :
    rangePlan op om os ts (Work.begin σ) = .ok ((Work.begin σ).setPort 5 b) := by
  simp [rangePlan, on_not hg, readAB_ok ha hb, h0]

theorem rangePlan_ok {op : Nat} (hg : On σ) (ha : Reads σ ts a) (hb : Safety.Port σ 5 om os b) (h0 : b ≠ 0)
    (hlen : b.toNat ≤ 2 ^ 40) (hend : a.toNat + b.toNat ≤ 2 ^ 56) :
    rangePlan op om os ts (Work.begin σ) =
      .ok (((Work.begin σ).setPort 5 b).updMe fun c => { c with
        seq := c.seq + 1
        accs := c.accs ++ [{ kind := .range op b.toNat, va := a.toNat, pa := 0x8000000000000, pc := σ.dev.issue.pc,
                             seq := c.seq, at_ := (myCore σ).clk }] }) := by
  have hb0 : b.toNat ≠ 0 := fun h => h0 (BitVec.eq_of_toNat_eq h)
  have hva : vaOk a = true := vaOk_of_lt (by omega)
  have hlast : decide (a.toNat + b.toNat - 1 < 2 ^ 56) = true := decide_eq_true (by omega)
  simp only [rangePlan, if_neg (on_not hg), readAB_ok ha hb, bind_ok, hlen, hlast, hva, decide_true, Bool.or_true,
    Bool.and_self, Bool.true_or, check_true, checkVal_true, if_neg h0, begin_myCore]
  rfl

theorem publishPlan_ok (hg : On σ) (ha : Reads σ ts a) (hb : Safety.Port σ 5 om os b) :
    publishPlan om os ts (Work.begin σ) =
      .ok (((Work.begin σ).setPort 5 b).updMe fun c => { c with
        seq := c.seq + 1
        accs := c.accs ++ [{ kind := .publish (publishOffset a b) (b.toNat % 2 ^ 32) (bit b.toNat 32), va := 0,
                             pa := (σ.dev.partOf (me σ).part).htab + 16 * (b.toNat % 2 ^ 32), pc := σ.dev.issue.pc,
                             seq := c.seq, at_ := (myCore σ).clk }] }) := by
  simp only [publishPlan, if_neg (on_not hg), readAB_ok ha hb, bind_ok]
  rfl

/-- One branch condition, and in each branch the result kept. -/
theorem ite_eq_mono {α : Type} {p : Prop} [Decidable p] {x y x' y' r : α} (hx : x = r → x' = r) (hy : y = r → y' = r)
    (h : (if p then x else y) = r) : (if p then x' else y') = r := by
  split at h
  · rw [if_pos ‹p›, hx h]
  · rw [if_neg ‹¬p›, hy h]

/-- A context without its poison marks. -/
def unmarked (c : Ctx) : Ctx := { c with mark := [] }

theorem good_unmarked {c : Ctx} {k : Nat} {y v : Word} (h : c.good k y = .ok v) : (unmarked c).good k y = .ok v := by
  by_cases hk : c.marked k = 0
  · exact (if_pos rfl).trans ((if_pos hk).symm.trans h)
  · exact nomatch (if_neg hk).symm.trans h

/-- What an operand that is not marked reads as does not hang on the marks. -/
theorem readSel_unmarked {w : Work} {sel : Nat} {v : Word} (h : readSel w sel = .ok v) :
    readSel (w.updMe unmarked) sel = .ok v := by
  unfold readSel at h ⊢
  rw [updMe_me]
  exact ite_eq_mono (ite_eq_mono id good_unmarked) (ite_eq_mono good_unmarked (ite_eq_mono good_unmarked (ite_eq_mono id
    (ite_eq_mono id (ite_eq_mono id (ite_eq_mono id (ite_eq_mono id (ite_eq_mono id (ite_eq_mono id id))))))))) h

theorem readPort_unmarked {w : Work} {unit : Nat} {v : Word} (h : readPort w unit om os = .ok v) :
    readPort (w.updMe unmarked) unit om os = .ok v := by
  unfold readPort at h ⊢
  split at h
  · rw [updMe_me]; exact h
  · exact readSel_unmarked h
  · exact h
  · exact h

/-- The hold of `bw.init` looks at the operands that the form reads. -/
theorem armsFull_false (ha : Reads σ ts a) (hb : Safety.Port σ 5 om os b)
    (hfree : b = 0 ∨ ((me σ).armed.filter fun y => decide (y.va ≠ a.toNat)).length < 32) :
    armsFull (Work.begin σ) om os ts = false := by
  have hread : readAB ((Work.begin σ).updMe unmarked) 5 om os ts = .ok (a, b, ((Work.begin σ).updMe unmarked).setPort 5 b) := by
    simp [readAB, readSel_unmarked ha, readPort_unmarked hb]
  have hfull : (decide (b ≠ 0) && decide (32 ≤ ((me σ).armed.filter fun y => decide (y.va ≠ a.toNat)).length)) = false := by
    rcases hfree with h | h
    · rw [h]; rfl
    · rw [decide_eq_false (Nat.not_le.mpr h), Bool.and_false]
  unfold unmarked at hread
  rw [armsFull, hread]
  exact hfull

theorem bwInitPlan_ok (hg : On σ) (ha : Reads σ ts a) (hb : Safety.Port σ 5 om os b) (hlen : b.toNat < 2 ^ 40)
    (hva : a.toNat < 2 ^ 56) (hal : a.toNat % 8 = 0)
    (hfree : b = 0 ∨ ((me σ).armed.filter fun y => decide (y.va ≠ a.toNat)).length < 32)
    (hx : Translates σ [.write] a.toNat 9 false x) :
    bwInitPlan om os ts (Work.begin σ) =
      .ok ((((Work.begin σ).setPort 5 b).pushAccess (.store 8 (armedWord b.toNat)) a.toNat x true).updMe fun c => { c with
        armed := armWord c.armed a.toNat x.pa b.toNat ((myCore σ).clk + 2) }) := by
  simp only [bwInitPlan, if_neg (on_not hg), armsFull_false ha hb hfree, readAB_ok ha hb, bind_ok, hlen, vaOk_of_lt hva, hal,
    translates_begin hx, decide_true, check_true, checkVal_true, begin_myCore, Bool.false_eq_true, if_false]

theorem bwWaitPlan_ok (hg : On σ) (ha : Reads σ ts a) (hb : Safety.Port σ 5 om os b) (hf : HasBuffer σ)
    (hva : (a + b).toNat < 2 ^ 56) (hal : (a + b).toNat % 8 = 0) (hx : Translates σ [.read] (a + b).toNat 8 false x) :
    bwWaitPlan om os ts wd we (Work.begin σ) =
      .ok (((((Work.begin σ).setPort 5 b).pushOut (.word (a + b).toNat) 5 (dest we wd.toNat) a b 8 none).updMe
        numbered).tlbFill σ.dev.issue.core (me σ).part (a + b).toNat x) := by
  simp only [bwWaitPlan, if_neg (on_not hg), begin_me, bufferFree_me hf, readAB_ok ha hb, bind_ok, vaOk_of_lt hva, hal,
    translates_begin hx, decide_true, check_true, checkVal_true]
  rfl

end Barriers

/-- Settles O9. -/
theorem rangesAndBarrierWords : Obligations.RangesAndBarrierWords := by
  unfold Obligations.RangesAndBarrierWords
  refine ⟨⟨?range, ?publish, ?farPublish⟩, ?init, ?wait⟩
  case range =>
    simp only [List.forall_mem_cons, List.not_mem_nil, false_imp_iff, implies_true, and_true]
    refine ⟨?_, ?_, ?_⟩ <;>
    · intro σ om os ts a b h hg ha hb
      exact ⟨fun h0 hlen hend => leaves_port _ h (rangePlan_ok hg ha hb h0 hlen hend) rfl rfl rfl rfl rfl,
        fun h0 => congrArg Host.Outcome.next (portOnly_run h (rangePlan_none hg ha hb h0))⟩
  case publish =>
    intro σ om os ts a b h hg ha hb
    exact leaves_port _ h (publishPlan_ok hg ha hb) rfl rfl rfl rfl rfl
  case farPublish =>
    intro w core bank o h free ho
    exact if_pos (.inr ho)
  case init =>
    intro σ om os ts a b x h hg ha hb hlen hva hal hfree hx
    exact leaves_port _ h (bwInitPlan_ok hg ha hb hlen hva hal hfree hx) rfl rfl rfl
      (updMe_ctxs_after (pushAccess_ctxs ..) rfl) rfl
  case wait =>
    intro σ om os ts wd we a b x h hg ha hb hf hva hal hx
    exact leaves_port _ h (bwWaitPlan_ok hg ha hb hf hva hal hx) rfl rfl rfl
      (updMe_ctxs_after rfl rfl) rfl

end Sys2Proof.Proofs.LoadStore
end

section
/-! The queue unit (R107, R110 to R112, R115, R308 to R310): what the enqueue, dequeue and peek forms send, and what `qbind`,
`qstat` and `qdrain` do. -/

namespace Sys2Proof.Proofs.QueueUnit

open Sys2Proof Sys2Proof.Machine Sys2Proof.Safety Sys2Proof.Laws Sys2Proof.Proofs.LoadStore

-- Bindings

theorem get_of_get? {α : Type} {t : Tab α} {k : Nat} {v : α} (h : t.get? k = some v) (d : α) : t.get k d = v := by
  rw [Tab.get, h]

@[simp] theorem loaded_qb (u : Nat) (b : Word) (c : Ctx) : (loaded u b c).qb = c.qb := rfl
@[simp] theorem loaded_qops (u : Nat) (b : Word) (c : Ctx) : (loaded u b c).qops = c.qops := rfl
@[simp] theorem loaded_declares (u : Nat) (b : Word) (c : Ctx) (a n : Nat) :
    (loaded u b c).declares a n = c.declares a n := rfl
@[simp] theorem loaded_relocate (u : Nat) (b : Word) (c : Ctx) (a : Nat) : (loaded u b c).relocate a = c.relocate a := rfl

@[simp] theorem setQueuePort_me (σ : State) (n : BitVec 3) :
    ((Work.begin σ).setQueuePort n).me = loaded 3 (n.setWidth 64) (me σ) := setPort_begin σ _ _

theorem boundTo_bound {w : Work} {n : BitVec 3} (h : (w.me.qb.get n.toNat {}).st = .bound) :
    boundTo w n = .ok (w.me.qb.get n.toNat {}) := by
  simp only [boundTo, h]

theorem boundTo_unbound {w : Work} {n : BitVec 3} (h : (w.me.qb.get n.toNat {}).st = .unbound) :
    boundTo w n = .error (.trap 21 none) := by
  simp only [boundTo, h]; rfl

section Forms

variable {σ : State} {om : BitVec 2} {os ts : BitVec 7} {n : BitVec 3} {wd : BitVec 6} {we : BitVec 1} {a : Word} {b : Binding}
  {form : Nat} {dst : Option Nat}

/-- Once the port is loaded, the binding is the one that the context held. -/
theorem boundTo_port (hq : (me σ).qb.get? n.toNat = some b) (hs : b.st = .bound) :
    boundTo ((Work.begin σ).setQueuePort n) n = .ok b := by
  have hb : ((Work.begin σ).setQueuePort n).me.qb.get n.toNat {} = b := by
    rw [setQueuePort_me, loaded_qb, get_of_get? hq]
  rw [boundTo_bound (by rw [hb, hs]), hb]

theorem queueHolds_ok (hq : (me σ).qb.get? n.toNat = some b) (hs : b.st = .bound)
    (hroom : form ≤ 0x43 → ((me σ).qops.filter QueueOp.isEnqueue).length < 4) (hbuf : 0x43 ≤ form → HasBuffer σ) :
    queueHolds form n (Work.begin σ) = .ok () := by
  have hst : ((me σ).qb.get n.toNat {}).st ≠ .pending := by rw [get_of_get? hq, hs]; exact nofun
  have hr : form ≤ 0x43 → enqueueRoom (me σ) = .ok () := fun h => if_neg (Nat.not_le.mpr (hroom h))
  have hb : 0x43 ≤ form → bufferFree (me σ) = .ok () := fun h => bufferFree_me (hbuf h)
  by_cases h1 : form ≤ 0x43 <;> by_cases h2 : 0x43 ≤ form <;>
    simp only [queueHolds, begin_me, if_neg hst, if_pos, if_neg, h1, h2, hr, hb, bind_ok, not_false_eq_true] <;> rfl

/-- A queue form past its holds. -/
theorem queuePlan_issues (hg : On σ) (ha : Reads σ ts a) (hh : queueHolds form n (Work.begin σ) = .ok ()) :
    queuePlan form n ts dst (Work.begin σ) = queueForm form n a dst ((Work.begin σ).setQueuePort n) := by
  simp only [queuePlan, if_neg (on_not hg), hh, bind_ok, show readSel (Work.begin σ) ts.toNat = .ok a from ha]

theorem deqSPlan_issues (hg : On σ) (hh : queueHolds 0x45 n (Work.begin σ) = .ok ()) :
    deqSPlan n dst (Work.begin σ) = queueForm 0x45 n 0 dst ((Work.begin σ).setQueuePort n) := by
  simp only [deqSPlan, if_neg (on_not hg), hh, bind_ok]

theorem elementCheck_ok {c : Ctx} {x e : Nat} {u : Nat} {v : Word} (hal : x % min (2 ^ e) 32 = 0)
    (hd : c.declares x (2 ^ e) = true) : elementCheck (loaded u v c) x e = .ok () := by
  simp only [elementCheck, loaded_declares, hal, hd, decide_true, check_true, bind_ok]

theorem enqueueReport_ok {c : Ctx} {u : Nat} {v : Word} (h : c.freeze = none ∨ c.qlate = []) :
    enqueueReport (loaded u v c) = .ok () :=
  if_neg fun ⟨hf, hq⟩ => h.elim (fun hn => by simp [loaded, hn] at hf) hq

theorem lsRead_updMe (w : Work) (f : Ctx → Ctx) (core x m : Nat) : (w.updMe f).lsRead core x m = w.lsRead core x m := by
  induction m generalizing x with
  | zero => rfl
  | succ m ih => exact congrArg (fun z => _ + 256 * z) (ih (x + 1))

theorem enqueueLocal_ok (hq : (me σ).qb.get? n.toNat = some b) (hs : b.st = .bound)
    (hrole : mayProduce b.role (.ctx 0 0 0) = true) (h3 : b.role ≠ 3) (hrep : (me σ).freeze = none ∨ (me σ).qlate = [])
    (hal : a.toNat % min (2 ^ b.elog) 32 = 0) (hd : (me σ).declares a.toNat (2 ^ b.elog) = true) :
    let w := (Work.begin σ).setQueuePort n
    let elem := (Work.begin σ).lsRead σ.dev.issue.core ((me σ).relocate a.toNat) (2 ^ b.elog)
    enqueueLocal form n a dst w =
      if form = 0x43 then .ok ((w.pushOut .queue 3 dst a 0 40 none).pushQueueOp form n b a elem true)
      else .ok (w.pushQueueOp form n b a elem false) := by
  intro w elem
  have hel : w.lsRead w.dev.issue.core ((me σ).relocate a.toNat) (2 ^ b.elog) = elem := lsRead_updMe (Work.begin σ) (loaded 3 (n.setWidth 64)) ..
  simp only [w] at hel
  simp only [w, enqueueLocal, boundTo_port hq hs, setQueuePort_me, loaded_relocate, bind_ok, hrole, decide_eq_true h3,
    Bool.and_self, check_true, elementCheck_ok hal hd, enqueueReport_ok hrep, hel]

theorem enqueueValue_ok (hq : (me σ).qb.get? n.toNat = some b) (hs : b.st = .bound)
    (hrole : mayProduce b.role (.ctx 0 0 0) = true) (h3 : b.role ≠ 3) (hrep : (me σ).freeze = none ∨ (me σ).qlate = [])
    (he : b.elog = 3) :
    enqueueValue n a ((Work.begin σ).setQueuePort n) =
      .ok (((Work.begin σ).setQueuePort n).pushQueueOp 0x42 n b a a.toNat false) := by
  simp only [enqueueValue, boundTo_port hq hs, setQueuePort_me, bind_ok, hrole, decide_eq_true h3, Bool.and_self,
    check_true, he, decide_true, enqueueReport_ok hrep]

theorem dequeueLocal_ok (hq : (me σ).qb.get? n.toNat = some b) (hs : b.st = .bound)
    (hrole : mayConsume b.role (.ctx 0 0 0) = true) (hal : a.toNat % min (2 ^ b.elog) 32 = 0)
    (hd : (me σ).declares a.toNat (2 ^ b.elog) = true) :
    dequeueLocal form n a dst ((Work.begin σ).setQueuePort n) =
      .ok ((((Work.begin σ).setQueuePort n).pushOut .queue 3 dst a 0 40 none).pushQueueOp form n b a 0 true) := by
  simp only [dequeueLocal, boundTo_port hq hs, setQueuePort_me, bind_ok, hrole, check_true, elementCheck_ok hal hd]

theorem dequeueValue_ok (hq : (me σ).qb.get? n.toNat = some b) (hs : b.st = .bound)
    (hrole : mayConsume b.role (.ctx 0 0 0) = true) (he : b.elog = 3) :
    dequeueValue n dst ((Work.begin σ).setQueuePort n) =
      .ok ((((Work.begin σ).setQueuePort n).pushOut .queue 3 dst 0 0 40 none).pushQueueOp 0x45 n b 0 0 true) := by
  simp only [dequeueValue, boundTo_port hq hs, bind_ok, hrole, check_true, he, decide_true]

/-- A role that lets no core produce by these forms. -/
theorem queueForm_noProducer (hq : (me σ).qb.get? n.toNat = some b) (hs : b.st = .bound)
    (hrole : mayProduce b.role (.ctx 0 0 0) = false ∨ b.role = 3) (hf : form = 0x41 ∨ form = 0x42 ∨ form = 0x43) :
    queueForm form n a dst ((Work.begin σ).setQueuePort n) = .error (.trap 21 none) := by
  have hno : (mayProduce b.role (.ctx 0 0 0) && decide (b.role ≠ 3)) = false := by
    rcases hrole with h | h <;> simp [h]
  rcases hf with rfl | rfl | rfl <;>
    simp only [queueForm, enqueueLocal, enqueueValue, boundTo_port hq hs, bind_ok, hno, check_false, bind_error]

/-- A role that lets no core consume. -/
theorem queueForm_noConsumer (hq : (me σ).qb.get? n.toNat = some b) (hs : b.st = .bound)
    (hrole : mayConsume b.role (.ctx 0 0 0) = false) (hf : form = 0x44 ∨ form = 0x45 ∨ form = 0x46 ∨ form = 0x47) :
    queueForm form n a dst ((Work.begin σ).setQueuePort n) = .error (.trap 21 none) := by
  rcases hf with rfl | rfl | rfl | rfl <;>
    simp only [queueForm, dequeueLocal, dequeueValue, boundTo_port hq hs, bind_ok, hrole, check_false, bind_error]

/-- What a queue operation with a landing-buffer entry leaves in its context. -/
theorem pushOut_pushQueueOp_ctxs {w : Work} {elem : Nat} :
    ((w.pushOut .queue 3 dst a 0 40 none).pushQueueOp form n b a elem true).dev.ctxs =
      (w.updMe fun c => { c with
        seq := c.seq + 1
        outs := c.outs ++ [{ id := c.seq, due := w.myCore.clk + landDelay w.dev.issue.ld 40, kind := .queue, latch := 3,
                             dst := dst, pc := w.dev.issue.pc, word := w.dev.issue.word, ld := w.dev.issue.ld,
                             operand := 0, trigger := a, res := none }]
        qops := c.qops ++ [{ id := c.seq, form := form, bnd := n.toNat, handle := b.handle, cb := b.cb, home := b.home,
                             elog := b.elog, pc := w.dev.issue.pc, slot := w.dev.issue.slot, ld := w.dev.issue.ld,
                             arg := a, elem := elem, land := some c.seq, seq := c.seq, stale := b.stale }] }).dev.ctxs :=
  updMe_ctxs_after rfl rfl

end Forms

/-- Settles O10: past its holds a queue form checks its binding's role and its operand, and sends. -/
theorem queueOperations : Obligations.QueueOperations := by
  unfold Obligations.QueueOperations
  refine ⟨⟨?enqueue, ?noProducer⟩, ?dequeue⟩
  case enqueue =>
    intro σ n ts a b h hg ha hq hs hroom hrole h3 hrep sent port elem
    refine ⟨fun hal hd => ?_, fun he => ?_, fun wd we hbuf hal hd => ?_⟩
    · exact leaves_port _ h ((queuePlan_issues hg ha (queueHolds_ok hq hs (fun _ => hroom) fun hle => absurd hle (by decide))).trans
        (enqueueLocal_ok hq hs hrole h3 hrep hal hd)) rfl rfl rfl rfl rfl
    · exact leaves_port _ h ((queuePlan_issues hg ha (queueHolds_ok hq hs (fun _ => hroom) fun hle => absurd hle (by decide))).trans
        (enqueueValue_ok hq hs hrole h3 hrep he)) rfl rfl rfl rfl rfl
    · exact leaves_port _ h ((queuePlan_issues hg ha (queueHolds_ok hq hs (fun _ => hroom) (fun _ => hbuf))).trans
        (enqueueLocal_ok hq hs hrole h3 hrep hal hd)) rfl rfl rfl pushOut_pushQueueOp_ctxs rfl
  case noProducer =>
    intro σ n ts a b h hg ha hq hs hroom hrole fault
    have faults {form : Nat} {dst : Option Nat} (hf : form = 0x41 ∨ form = 0x42 ∨ form = 0x43)
        (hbuf : 0x43 ≤ form → HasBuffer σ) : slotRun (queuePlan form n ts dst) σ = fault :=
      slotRun_trap h ((queuePlan_issues hg ha (queueHolds_ok hq hs (fun _ => hroom) hbuf)).trans
        (queueForm_noProducer hq hs hrole hf))
    exact ⟨congrArg Host.Outcome.next (faults (by decide) nofun),
      congrArg Host.Outcome.next (faults (by decide) nofun),
      fun wd we hbuf => congrArg Host.Outcome.next (faults (by decide) fun _ => hbuf)⟩
  case dequeue =>
    intro σ n b h hg hq hs hbuf
    have holds {form : Nat} (hf : 0x43 < form) : queueHolds form n (Work.begin σ) = .ok () :=
      queueHolds_ok hq hs (fun hle => absurd hf (Nat.not_lt.mpr hle)) fun _ => hbuf
    constructor
    · intro hrole fault
      have faults {ts : BitVec 7} {a : Word} {form : Nat} {dst : Option Nat} (ha : Reads σ ts a)
          (hf : form = 0x44 ∨ form = 0x45 ∨ form = 0x46 ∨ form = 0x47) : slotRun (queuePlan form n ts dst) σ = fault :=
        slotRun_trap h ((queuePlan_issues hg ha (holds (by omega))).trans (queueForm_noConsumer hq hs hrole hf))
      exact ⟨fun ts wd we a ha => ⟨congrArg Host.Outcome.next (faults ha (by decide)),
          congrArg Host.Outcome.next (faults ha (by decide)), congrArg Host.Outcome.next (faults ha (by decide))⟩,
        fun wd we => congrArg Host.Outcome.next (slotRun_trap h ((deqSPlan_issues hg (holds (by decide))).trans
          (queueForm_noConsumer hq hs hrole (by decide))))⟩
    · intro hrole sent after
      simp only [List.forall_mem_cons, List.not_mem_nil, false_imp_iff, implies_true, and_true]
      refine ⟨⟨?_, ?_, ?_⟩, fun wd we he => ?_⟩
      · intro ts wd we a ha hal hd
        exact leaves_port _ h ((queuePlan_issues hg ha (holds (by decide))).trans (dequeueLocal_ok hq hs hrole hal hd))
          rfl rfl rfl pushOut_pushQueueOp_ctxs rfl
      · intro ts wd we a ha hal hd
        exact leaves_port _ h ((queuePlan_issues hg ha (holds (by decide))).trans (dequeueLocal_ok hq hs hrole hal hd))
          rfl rfl rfl pushOut_pushQueueOp_ctxs rfl
      · intro ts wd we a ha hal hd
        exact leaves_port _ h ((queuePlan_issues hg ha (holds (by decide))).trans (dequeueLocal_ok hq hs hrole hal hd))
          rfl rfl rfl pushOut_pushQueueOp_ctxs rfl
      · exact leaves_port _ h ((deqSPlan_issues hg (holds (by decide))).trans (dequeueValue_ok hq hs hrole he))
          rfl rfl rfl pushOut_pushQueueOp_ctxs rfl

-- Bindings made, read and drained

section Binding

variable {σ : State} {om : BitVec 2} {os ts : BitVec 7} {n : BitVec 3} {wd : BitVec 6} {we : BitVec 1} {a b : Word} {x : Xlat}

theorem qbindPlan_ok (hg : On σ) (ha : Reads σ ts a) (hb : Safety.Port σ 3 om os b)
    (hst : ((me σ).qb.get n.toNat {}).st ≠ .pending) (hlo : 3 ≤ b.toNat) (hhi : b.toNat ≤ 12) (hal : a.toNat % 64 = 0)
    (hva : a.toNat < 2 ^ 56) (hx : Translates σ [.read] a.toNat 8 false x) :
    let bd : Machine.Binding := { st := .pending, handle := a.toNat, cb := x.pa, home := ((Work.begin σ).block x.pa).home,
                                  elog := b.toNat }
    qbindPlan om os ts n (Work.begin σ) =
      .ok ((((Work.begin σ).setPort 3 b).updMe fun c => { c with qb := c.qb.set n.toNat bd }).pushQueueOp 0x40 n bd a 0
        false) := by
  simp only [qbindPlan, if_neg (on_not hg), begin_me, if_neg hst, readAB_ok ha hb, bind_ok, hlo, hhi, hal, vaOk_of_lt hva,
    translates_begin hx, decide_true, Bool.and_self, check_true, checkVal_true]

/-- The queue operations of a binding, as `qstat` counts them. -/
theorem statWord_bound {c : Ctx} {k : Nat} (hs : (c.qb.get k {}).st = .bound) :
    let b := c.qb.get k {}
    statWord c k = 1 + 2 * b.role + 16 * (b.elog - 3) +
      256 * (c.qops.filter fun q => decide (q.bnd = k ∧ q.handle = b.handle ∧
        (q.form = 0x41 ∨ q.form = 0x42 ∨ q.form = 0x43))).length +
      (if c.qops.any fun q => decide (q.bnd = k ∧ q.handle = b.handle ∧ q.form ≠ 0x40) && q.waiting.isSome then 2048 else 0) +
      2 ^ 32 * (b.free % 2 ^ 32) := by
  intro b
  have henq (q : QueueOp) :
      ((decide (q.bnd = k) && decide (q.handle = b.handle) && decide (q.form ≠ 0x40)) && q.isEnqueue) =
        decide (q.bnd = k ∧ q.handle = b.handle ∧ (q.form = 0x41 ∨ q.form = 0x42 ∨ q.form = 0x43)) := by
    rw [Bool.eq_iff_iff]
    simp only [QueueOp.isEnqueue, Bool.and_eq_true, decide_eq_true_eq]
    omega
  have hwait (q : QueueOp) :
      ((decide (q.bnd = k) && decide (q.handle = b.handle) && decide (q.form ≠ 0x40)) && q.waiting.isSome) =
        (decide (q.bnd = k ∧ q.handle = b.handle ∧ q.form ≠ 0x40) && q.waiting.isSome) := by
    rw [← Bool.decide_and, ← Bool.decide_and]
    simp only [and_assoc]
  rw [statWord]
  simp only [show c.qb.get k {} = b from rfl] at hs ⊢
  simp only [hs, ne_eq, not_true_eq_false, if_false, List.filter_filter, List.any_filter]
  simp only [ne_eq] at henq hwait
  simp only [hwait, fun q => (Bool.and_comm q.isEnqueue _).trans (henq q)]

theorem statWord_unbound {c : Ctx} {k : Nat} (hs : (c.qb.get k {}).st = .unbound) : statWord c k = 0 :=
  if_pos (by rw [hs]; exact nofun)

theorem qstatPlan_ok (hg : On σ) (hs : ((me σ).qb.get n.toNat {}).st = .unbound ∨ ((me σ).qb.get n.toNat {}).st = .bound) :
    qstatPlan n wd we (Work.begin σ) =
      .ok (((Work.begin σ).setPort 3 (n.setWidth 64)).launchAt 2
        (.scalar 3 (BitVec.ofNat 64 (statWord (me σ) n.toNat)) (dest we wd.toNat) 0)) := by
  rcases hs with h | h <;> simp only [qstatPlan, if_neg (on_not hg), begin_me, h] <;> rfl

theorem qdrainPlan_ok (hg : On σ) (hs : ((me σ).qb.get n.toNat {}).st = .bound)
    (hnone : ∀ q ∈ (me σ).qops, q.bnd = n.toNat → q.form ≠ 0x41 ∧ q.form ≠ 0x42 ∧ q.form ≠ 0x43)
    (hlate : ∀ f ∈ (me σ).qlate, f.2.1 ≠ ((me σ).qb.get n.toNat {}).handle) :
    qdrainPlan n (Work.begin σ) = .ok ((Work.begin σ).setPort 3 (n.setWidth 64)) := by
  have hes : ((me σ).qops.filter fun q => q.isEnqueue && decide (q.bnd = n.toNat)) = [] := by
    simp only [List.filter_eq_nil_iff, QueueOp.isEnqueue, Bool.and_eq_true, decide_eq_true_eq]
    intro q hq ⟨⟨hlo, hhi⟩, hbnd⟩
    have := hnone q hq hbnd
    omega
  have hrep : ((me σ).qlate.any fun f => decide (f.2.1 = ((me σ).qb.get n.toNat {}).handle)) = false := by
    simpa only [List.any_eq_false, decide_eq_true_eq] using hlate
  simp only [qdrainPlan, if_neg (on_not hg), boundTo_bound (w := Work.begin σ) hs, bind_ok, begin_me, hes, hrep,
    List.isEmpty_nil, Bool.true_eq_false, Bool.false_eq_true, if_false]
  rfl

end Binding

/-- Settles O11. -/
theorem queueBindings : Obligations.QueueBindings := by
  unfold Obligations.QueueBindings
  refine ⟨?bind, ?stat, fun σ n h hg => ⟨fun hs hnone hlate => ?_, fun hs => ?_⟩⟩
  case bind =>
    intro σ om os ts n a b x h hg ha hb hst hlo hhi hal hva hx
    exact leaves_port _ h (qbindPlan_ok hg ha hb hst hlo hhi hal hva hx) rfl rfl rfl (updMe_ctxs_after rfl rfl) rfl
  case stat =>
    intro σ n wd we h hg b hs
    rw [← launch_commit]
    rcases hs with hs | hs
    · have hrun := slotRun_ok h (qstatPlan_ok (wd := wd) (we := we) hg (.inl hs))
      rw [statWord_unbound hs] at hrun
      rw [if_neg (by rw [hs]; exact nofun)]
      exact congrArg Host.Outcome.next hrun
    · rw [if_pos hs, ← statWord_bound hs]
      exact congrArg Host.Outcome.next (slotRun_ok h (qstatPlan_ok hg (.inr hs)))
  · exact congrArg Host.Outcome.next (portOnly_run h (qdrainPlan_ok hg hs hnone hlate))
  · refine congrArg Host.Outcome.next (slotRun_trap h ?_)
    simp only [qdrainPlan, if_neg (on_not hg), boundTo_unbound (w := Work.begin σ) hs, bind_error]

end Sys2Proof.Proofs.QueueUnit
end

section
/-! Branches and loops (R221, R222, R311 to R314). -/

namespace Sys2Proof.Proofs.BranchForms

open Sys2Proof Sys2Proof.Machine Sys2Proof.Safety Sys2Proof.Laws Sys2Proof.Proofs.LoadStore

theorem branchChecks_ok {w : Work} (hbody : inBody w = false) (hbr : w.me.br = none) : branchChecks w = .ok () := by
  simp [branchChecks, hbody, hbr]

section Forms

variable {σ : State} {om : BitVec 2} {os ts : BitVec 7} {wd : BitVec 6} {we : BitVec 1} {a b : Word} {t : Nat} {k : Bool}
  {p rest : Work → Plan}

/-- A branch form makes its encoding checks, looks at its guard, and then branches. -/
def IsBranch (p rest : Work → Plan) : Prop :=
  ∀ w, p w = (branchChecks w >>= fun _ => if guardTrue w = false then .ok w else rest w)

theorem branch_issues (hp : IsBranch p rest) (hg : On σ) (hbody : inBody (Work.begin σ) = false) (hbr : (me σ).br = none) :
    p (Work.begin σ) = rest (Work.begin σ) := by
  rw [hp, branchChecks_ok hbody hbr, bind_ok, if_neg (on_not hg)]

/-- What every branch form does in a loop body, in a delay bundle, and where its guard is false (R221, R312). -/
theorem branch_stops (hp : IsBranch p rest) (h : Takes σ) :
    (inBody (Work.begin σ) = true → slotRun p σ = ((Work.begin σ).trapNow 7 none).commit) ∧
    (inBody (Work.begin σ) = false → (me σ).br ≠ none → slotRun p σ = ((Work.begin σ).trapNow 1 none).commit) ∧
    (Off σ → inBody (Work.begin σ) = false → (me σ).br = none → slotRun p σ = same σ) := by
  refine ⟨fun hbody => slotRun_trap h ?_, fun hbody hbr => slotRun_trap h ?_, fun hoff hbody hbr => slotRun_same h ?_⟩
  · simp [hp _, branchChecks, hbody]
  · simp [hp _, branchChecks, hbody, Option.isNone_eq_false_iff.mpr (Option.isSome_iff_ne_none.mpr hbr)]
  · rw [hp, branchChecks_ok hbody hbr, bind_ok]
    exact if_pos hoff

theorem isBranch_j : IsBranch (jPlan om os) (fun w => do
    let (b, w1) ← branchB w om os
    .ok (w1.branchTo (hereTarget w b) true)) := fun _ => rfl

theorem isBranch_jr : IsBranch (jrPlan ts) (fun w => do
    let a ← branchA w ts
    .ok (w.branchTo a.toNat true)) := fun _ => rfl

theorem isBranch_call : IsBranch (callPlan om os wd we) (fun w => do
    let (b, w1) ← branchB w om os
    .ok ((w1.branchTo (hereTarget w b) true).link wd we)) := fun _ => rfl

theorem isBranch_callr : IsBranch (callrPlan ts wd we) (fun w => do
    let a ← branchA w ts
    .ok ((w.branchTo a.toNat true).link wd we)) := fun _ => rfl

theorem isBranch_br {q : BitVec 2} : IsBranch (brPlan om os ts q) (fun w => do
    let a ← branchA w ts
    let (b, w1) ← branchB w om os
    .ok (w1.branchTo (hereTarget w b) (branchTaken q a))) := fun _ => rfl

-- Operands and outcome

theorem branchA_ok (ha : Reads σ ts a) : branchA (Work.begin σ) ts = .ok a := by
  rw [branchA, show readSel (Work.begin σ) ts.toNat = .ok a from ha]

theorem branchB_ok (hb : Safety.Port σ 4 om os b) :
    branchB (Work.begin σ) om os = .ok (b, (Work.begin σ).setPort 4 b) := by
  rw [branchB, show readPort (Work.begin σ) 4 om os = .ok b from hb]

/-- A follower's operands do not stop it (R312). -/
theorem branchA_follower (σ : State) (ts : BitVec 7) (hf : σ.dev.issue.follows = true) :
    ∃ a, branchA (Work.begin σ) ts = .ok a := by
  unfold branchA
  split
  · exact ⟨_, rfl⟩
  · exact ⟨0, if_pos hf⟩

theorem branchB_follower (σ : State) (om : BitVec 2) (os : BitVec 7) (hf : σ.dev.issue.follows = true) :
    ∃ b w, branchB (Work.begin σ) om os = .ok (b, w) ∧ w.dev.issue = σ.dev.issue ∧ w.base = σ.mem ∧ w.log = [] := by
  unfold branchB
  split
  · exact ⟨_, _, rfl, rfl, rfl, rfl⟩
  · exact ⟨0, _, if_pos hf, rfl, rfl, rfl⟩

theorem hereTarget_eq (w : Work) (b : Word) : hereTarget w b = (w.dev.issue.pc + 32 * b.toNat) % 2 ^ 64 := by
  have h32 : (32 : Word).toNat = 32 := rfl
  rw [hereTarget, BitVec.toNat_add, BitVec.toNat_mul, BitVec.toNat_ofNat, h32, ← Nat.add_mod]

/-- The context of a core alone or of a lead with its branch pending (R222, R312). -/
def branching (σ : State) (t : Nat) (k : Bool) (c : Ctx) : Ctx :=
  { c with br := some { target := t, left := 3, taken := k, pc := σ.dev.issue.pc } }

theorem branchTo_lead {w : Work} (hi : w.dev.issue = σ.dev.issue) (hf : σ.dev.issue.follows = false) :
    w.branchTo t k = w.updMe (branching σ t k) := by
  simp only [Work.branchTo, hi, hf, Bool.false_eq_true, if_false]
  rfl

theorem branchTo_follower {w : Work} {lead : Branch} (hf : w.dev.issue.follows = true)
    (hl : w.dev.issue.leadBr = some lead) : w.branchTo t k = w.updMe fun c => { c with br := some lead } := by
  simp only [Work.branchTo, hf, hl, if_true, Option.getD_some]

/-- What a branch form of a core alone or of a lead leaves, with its port loaded or not, and with its link. -/
theorem branchTo_commit (f : Ctx → Ctx) (hf : σ.dev.issue.follows = false) :
    (((Work.begin σ).updMe f).branchTo t k).commit = withMe σ (branching σ t k (f (me σ))) := by
  rw [branchTo_lead (σ := σ) rfl hf, updMe_updMe, updMe_commit]

theorem branchTo_link_commit (f : Ctx → Ctx) (hf : σ.dev.issue.follows = false) :
    ((((Work.begin σ).updMe f).branchTo t k).link wd we).commit = withMe σ (inFlight σ 1
      (.scalar 4 (BitVec.ofNat 64 (σ.dev.issue.pc + 96)) (dest we wd.toNat) 0) (branching σ t k (f (me σ)))) := by
  rw [branchTo_lead (σ := σ) rfl hf, Work.link, Work.launchAt, updMe_updMe, updMe_updMe, updMe_commit]
  rfl

theorem branchTo_begin_commit (hf : σ.dev.issue.follows = false) :
    ((Work.begin σ).branchTo t k).commit = withMe σ (branching σ t k (me σ)) := by
  rw [branchTo_lead (σ := σ) rfl hf, updMe_commit]

theorem branchTo_begin_link_commit (hf : σ.dev.issue.follows = false) :
    (((Work.begin σ).branchTo t k).link wd we).commit = withMe σ (inFlight σ 1
      (.scalar 4 (BitVec.ofNat 64 (σ.dev.issue.pc + 96)) (dest we wd.toNat) 0) (branching σ t k (me σ))) := by
  rw [branchTo_lead (σ := σ) rfl hf, Work.link, Work.launchAt, updMe_updMe, updMe_commit]
  rfl

theorem brPlan_run {q : BitVec 2} (h : Takes σ) (hg : On σ) (hbody : inBody (Work.begin σ) = false) (hbr : (me σ).br = none)
    (hf : σ.dev.issue.follows = false) (ha : Reads σ ts a) (hb : Safety.Port σ 4 om os b) (hk : branchTaken q a = k) :
    slotRun (brPlan om os ts q) σ =
      withMe σ (branching σ ((σ.dev.issue.pc + 32 * b.toNat) % 2 ^ 64) k (loaded 4 b (me σ))) := by
  rw [slotRun_ok h ((branch_issues isBranch_br hg hbody hbr).trans (by rw [branchA_ok ha, bind_ok, branchB_ok hb, bind_ok]))]
  exact (branchTo_commit (loaded 4 b) hf).trans (by rw [hereTarget_eq, hk]; rfl)

end Forms

-- Conditions of `br` (R311)

theorem branchTaken_zero (a : Word) : branchTaken 0 a = decide (a.toNat = 0) := by
  exact decide_eq_decide.mpr (BitVec.toNat_inj (y := 0)).symm

theorem branchTaken_nonzero (a : Word) : branchTaken 1 a = decide (a.toNat ≠ 0) := by
  exact decide_eq_decide.mpr (not_congr (BitVec.toNat_inj (y := 0)).symm)

theorem branchTaken_negative (a : Word) : branchTaken 2 a = decide (a.toInt < 0) := by
  exact BitVec.slt_eq_decide

theorem branchTaken_nonnegative (a : Word) : branchTaken 3 a = decide (0 ≤ a.toInt) := by
  refine (congrArg not BitVec.slt_eq_decide).trans ?_
  rw [← decide_not]
  exact decide_eq_decide.mpr Int.not_lt

/-- Settles O12: every branch form makes the same checks, and a follower takes its lead's branch. -/
theorem branches : Obligations.Branches := by
  unfold Obligations.Branches
  refine ⟨⟨?follower, ?lead⟩, ?stops⟩
  case follower =>
    intro σ lead ts om os q h hg hbody hbr hf hl
    simp only [List.forall_mem_cons, List.not_mem_nil, false_imp_iff, implies_true, and_true]
    obtain ⟨a, ha⟩ := branchA_follower σ ts hf
    obtain ⟨b, w, hb, hi, hbase, hlog⟩ := branchB_follower σ om os hf
    have hjr : slotRun (jrPlan ts) σ = withMe σ { me σ with br := some lead } := by
      rw [slotRun_ok h ((branch_issues isBranch_jr hg hbody hbr).trans (by rw [ha, bind_ok])), branchTo_follower hf hl,
        updMe_commit]
    have stands (t : Nat) (k : Bool) {p : Work → Plan} (hp : p (Work.begin σ) = .ok (w.branchTo t k)) :
        ∃ u, Host.Outcome.next (slotRun p σ) = (.next u : Host.Outcome State Fault Refusal) ∧ (me u).br = some lead ∧
          SameBytes σ u := by
      rw [branchTo_follower (by rw [hi]; exact hf) (by rw [hi]; exact hl)] at hp
      refine ⟨_, congrArg Host.Outcome.next (slotRun_ok h hp), ?_, fun x => ?_⟩
      · exact congrArg Ctx.br (updMe_me w fun c => { c with br := some lead })
      · simp [commit_read, Work.byte, hlog, hbase, logFind]
    exact ⟨⟨congrArg Host.Outcome.next hjr, congrArg Host.Outcome.next hjr⟩,
      stands _ _ ((branch_issues isBranch_j hg hbody hbr).trans (by rw [hb, bind_ok])),
      stands _ _ ((branch_issues isBranch_br hg hbody hbr).trans (by rw [ha, bind_ok, hb, bind_ok]))⟩
  case lead =>
    intro σ h hg hbody hbr hf here goes link
    have runs {p rest : Work → Plan} {w : Work} (hp : IsBranch p rest) (hw : rest (Work.begin σ) = .ok w) :
        slotRun p σ = w.commit := slotRun_ok h ((branch_issues hp hg hbody hbr).trans hw)
    refine ⟨fun om os b hb => ?_, fun om os wd we b hb => ?_, fun ts a ha => ⟨?_, ?_, fun wd we => ?_, fun om os b hb =>
      ⟨?_, ?_, ?_, ?_⟩⟩⟩
    · refine congrArg Host.Outcome.next ((runs isBranch_j (by rw [branchB_ok hb, bind_ok])).trans ?_)
      exact (branchTo_commit (loaded 4 b) hf).trans (by rw [hereTarget_eq]; rfl)
    · refine congrArg Host.Outcome.next ((runs isBranch_call (by rw [branchB_ok hb, bind_ok])).trans ?_)
      exact (branchTo_link_commit (loaded 4 b) hf).trans (by rw [hereTarget_eq]; rfl)
    · exact congrArg Host.Outcome.next
        ((runs isBranch_jr (by rw [branchA_ok ha, bind_ok])).trans (branchTo_begin_commit hf))
    · exact congrArg Host.Outcome.next
        ((runs isBranch_jr (by rw [branchA_ok ha, bind_ok])).trans (branchTo_begin_commit hf))
    · exact congrArg Host.Outcome.next
        ((runs isBranch_callr (by rw [branchA_ok ha, bind_ok])).trans (branchTo_begin_link_commit hf))
    · exact congrArg Host.Outcome.next (brPlan_run h hg hbody hbr hf ha hb (branchTaken_zero a))
    · exact congrArg Host.Outcome.next (brPlan_run h hg hbody hbr hf ha hb (branchTaken_nonzero a))
    · exact congrArg Host.Outcome.next (brPlan_run h hg hbody hbr hf ha hb (branchTaken_negative a))
    · exact congrArg Host.Outcome.next (brPlan_run h hg hbody hbr hf ha hb (branchTaken_nonnegative a))
  case stops =>
    intro σ om os ts wd we q h
    simp only [List.forall_mem_cons, List.not_mem_nil, false_imp_iff, implies_true, and_true]
    have stops {p rest : Work → Plan} (hp : IsBranch p rest) :
        (inBody (Work.begin σ) = true → Host.Outcome.next (slotRun p σ) =
          (.next ((Work.begin σ).trapNow 7 none).commit : Host.Outcome State Fault Refusal)) ∧
        (inBody (Work.begin σ) = false → (me σ).br ≠ none → Host.Outcome.next (slotRun p σ) =
          (.next ((Work.begin σ).trapNow 1 none).commit : Host.Outcome State Fault Refusal)) ∧
        (Off σ → inBody (Work.begin σ) = false → (me σ).br = none → Host.Outcome.next (slotRun p σ) =
          (.next (same σ) : Host.Outcome State Fault Refusal)) := by
      obtain ⟨hbody, hdelay, hoff⟩ := branch_stops hp h
      exact ⟨fun h1 => congrArg _ (hbody h1), fun h1 h2 => congrArg _ (hdelay h1 h2),
        fun h1 h2 h3 => congrArg _ (hoff h1 h2 h3)⟩
    exact ⟨stops isBranch_j, stops isBranch_jr, stops isBranch_call, stops isBranch_callr, stops isBranch_jr,
      stops isBranch_br⟩

-- Loops

/-- Settles O13. -/
theorem loops : Obligations.Loops := by
  unfold Obligations.Loops
  refine ⟨fun σ k h hg hv hbody => ?_, fun σ k h hg hv => ?_, fun σ k h hg hv hbody => ?_, fun σ h hg hbody => ?_,
    fun σ h hg hbody => ?_⟩
  · rw [← launch_commit]
    refine congrArg Host.Outcome.next (slotRun_ok h ?_)
    simp only [loopPlan, if_neg (on_not hg), begin_me, hv, hbody, Bool.not_false, check_true, bind_ok]
  · refine congrArg Host.Outcome.next (slotRun_trap h ?_)
    simp only [loopPlan, if_neg (on_not hg), begin_me, hv, check_false, bind_error]
  · refine congrArg Host.Outcome.next (slotRun_trap h ?_)
    simp only [loopPlan, if_neg (on_not hg), begin_me, hv, hbody, Bool.not_true, check_true, check_false, bind_ok, bind_error]
  · rw [← updMe_commit σ fun c => { c with loop := { c.loop with leaving := true } }]
    refine congrArg Host.Outcome.next (slotRun_ok h ?_)
    simp only [lexitPlan, if_neg (on_not hg), hbody, check_true, bind_ok]
  · refine congrArg Host.Outcome.next (slotRun_trap h ?_)
    simp only [lexitPlan, if_neg (on_not hg), hbody, check_false, bind_error]

end Sys2Proof.Proofs.BranchForms
end

section
/-! Task control (R144, R146, R315 to R317): the last core of a failed launch's ebb does not stay in the state that `tide` reports
in. -/

namespace Sys2Proof.Proofs.TaskControl

open Sys2Proof Sys2Proof.Machine Sys2Proof.Safety Sys2Proof.Laws

/-- The last core of the ebb of a launch that has failed (R135), with nothing outstanding and about to report. -/
def lastOfFailedEbb : State :=
  { dev := { ctxs := [(0, { st := .ready, ebb := true })], launches := [(0, { st := 4 })] } }

/-- Its `tide` ends the launch, and a launch that ends leaves no core reported: the bank is idle (R135, R146). -/
theorem tide_lastOfFailedEbb : (me (slotRun tidePlan lastOfFailedEbb)).st = .idle := rfl

theorem exec_tide (σ : State) : exec .tide σ = .next (slotRun tidePlan σ) := rfl

/-- Refutes O14: `tide` on the last core of a failed launch's ebb ends the launch, which makes the bank idle again, so that the
core is not left reported. -/
theorem not_taskEnds : ¬ Obligations.TaskEnds := by
  unfold Obligations.TaskEnds
  intro ⟨_, h⟩
  obtain ⟨-, htide, -⟩ := h lastOfFailedEbb rfl rfl
  obtain ⟨t, ht, hst, -⟩ := htide rfl rfl (fun _ hq => absurd hq List.not_mem_nil)
    (fun _ hx => absurd hx List.not_mem_nil) rfl rfl
  rw [exec_tide] at ht
  rw [← Host.Outcome.next.inj ht] at hst
  exact nomatch tide_lastOfFailedEbb.symm.trans hst

end Sys2Proof.Proofs.TaskControl
end

section
/-! Trap entry and return (R227 to R231, R318): the frame's bytes, the level, and what `trap`, `eret` and `halt` do. -/

namespace Sys2Proof.Proofs.Traps

open Sys2Proof Sys2Proof.Machine Sys2Proof.Safety Sys2Proof.Laws Sys2Proof.Proofs.LoadStore

-- Bytes written and read

theorem readN_congr {w w' : Work} {k n : Nat} (h : ∀ i, i < n → w.byte (k + i) = w'.byte (k + i)) :
    w.readN k n = w'.readN k n := by
  induction n generalizing k with
  | zero => rfl
  | succ n ih =>
    have hrest := ih (k := k + 1) fun i hi => by simpa only [Nat.add_assoc, Nat.add_comm 1] using h (i + 1) (by omega)
    rw [Work.readN, Work.readN, hrest, show w.byte k = w'.byte k from h 0 (by omega)]

theorem readN_writeN (w : Work) (k n v : Nat) : (w.writeN k n v).readN k n = v % 256 ^ n := by
  induction n generalizing w k v with
  | zero => rw [Nat.pow_zero, Nat.mod_one]; rfl
  | succ n ih =>
    rw [Work.writeN, Work.readN, byte_writeN _ _ _ _ _ (by omega), ih, byte_setByte, if_pos rfl, BitVec.toNat_ofNat]
    exact (Nat.pow_succ' ▸ Nat.mod_mul (x := v) (a := 256) (b := 256 ^ n)).symm

@[simp] theorem byte_lsFixed (w : Work) (core a n x : Nat) : (w.lsFixed core a n).byte x = w.byte x :=
  byte_updCore ..

theorem byte_lsPut (w : Work) (core a n v x : Nat) (h : x < Key.ls core a ∨ Key.ls core a + n ≤ x) :
    (w.lsPut core a n v).byte x = w.byte x := by
  rw [Work.lsPut, byte_lsFixed, byte_writeN _ _ _ _ _ h]

theorem readN_lsPut (w : Work) (core a n v : Nat) : (w.lsPut core a n v).readN (Key.ls core a) n = v % 256 ^ n := by
  rw [← readN_writeN w (Key.ls core a) n v]
  exact readN_congr fun i _ => byte_lsFixed ..

/-- Fields leave every byte outside them. -/
theorem byte_putFields (w : Work) (core base x : Nat) (fs : List (Nat × Nat × Nat))
    (h : ∀ f ∈ fs, x < Key.ls core base + f.1 ∨ Key.ls core base + f.1 + f.2.1 ≤ x) :
    (putFields w core base fs).byte x = w.byte x := by
  induction fs generalizing w with
  | nil => rfl
  | cons f fs ih =>
    obtain ⟨hf, hfs⟩ := List.forall_mem_cons.mp h
    rw [← byte_lsPut w core (base + f.1) f.2.1 f.2.2 x (by rwa [key_ls_add])]
    exact ih _ hfs

/-- The first of some fields, where the others lie behind it. -/
theorem readN_putFields_first (w : Work) (core base n v : Nat) (fs : List (Nat × Nat × Nat)) (h : ∀ f ∈ fs, n ≤ f.1) :
    (putFields w core base ((0, n, v) :: fs)).readN (Key.ls core base) n = v % 256 ^ n := by
  rw [← readN_lsPut w core base n v]
  exact readN_congr fun i hi => byte_putFields _ core base _ _ fun f hf =>
    .inl (Nat.add_lt_add_left (Nat.lt_of_lt_of_le hi (h f hf)) _)

theorem writeN_dev (w : Work) (k n v : Nat) : (w.writeN k n v).dev = w.dev := by
  induction n generalizing w k v with
  | zero => rfl
  | succ n ih => exact ih (w.setByte k (BitVec.ofNat 8 v)) (k + 1) (v / 256)

theorem lsPut_ctxs (w : Work) (core a n v : Nat) : (w.lsPut core a n v).dev.ctxs = w.dev.ctxs :=
  (show _ = (w.writeN (Key.ls core a) n v).dev.ctxs from rfl).trans (congrArg Dev.ctxs (writeN_dev ..))

theorem putFields_ctxs (w : Work) (core base : Nat) (fs : List (Nat × Nat × Nat)) :
    (putFields w core base fs).dev.ctxs = w.dev.ctxs := by
  induction fs generalizing w with
  | nil => rfl
  | cons f fs ih =>
    exact (ih (w.lsPut core (base + f.1) f.2.1 f.2.2)).trans (lsPut_ctxs ..)

-- The trap frame (Table 9.3)

theorem indexed_lt {α : Type} {xs : List α} {x : Nat × α} (h : x ∈ indexed xs) : x.1 < xs.length :=
  List.mem_range.mp (List.of_mem_zip (show (x.1, x.2) ∈ _ from h)).1

/-- Every field but RESUME lies behind it. -/
theorem frameFields_behind (c : Ctx) (bank : Nat) (fwin : Bool) (e : Entry) (replay : List Replay) (requeue : List Requeue) :
    ∀ f ∈ (frameFields c bank fwin e replay requeue).tail, 8 ≤ f.1 := by
  simp only [frameFields, loopFields, boundFields, requeueFields, List.cons_append, List.tail_cons,
    List.forall_mem_cons, List.forall_mem_append, List.forall_mem_map, List.forall_mem_flatMap, List.not_mem_nil,
    false_imp_iff, implies_true, and_true]
  and_intros <;> grind

/-- A frame has 16 KiB where its lists have their lengths (R124, R227). -/
theorem frameFields_fit (c : Ctx) (bank : Nat) (fwin : Bool) (e : Entry) {replay : List Replay} {requeue : List Requeue}
    (hreplay : replay.length ≤ 8) (hrequeue : requeue.length ≤ 12) :
    ∀ f ∈ frameFields c bank fwin e replay requeue, f.1 + f.2.1 ≤ 16384 := by
  simp only [frameFields, loopFields, boundFields, requeueFields, List.cons_append,
    List.forall_mem_cons, List.forall_mem_append, List.forall_mem_map, List.forall_mem_flatMap, List.not_mem_nil,
    List.mem_range, false_imp_iff, implies_true, and_true]
  have hr : ∀ x ∈ indexed replay, x.1 < 8 := fun x hx => Nat.lt_of_lt_of_le (indexed_lt hx) hreplay
  have hq : ∀ x ∈ indexed requeue, x.1 < 12 := fun x hx => Nat.lt_of_lt_of_le (indexed_lt hx) hrequeue
  and_intros <;> grind

/-- A context at its handler's first bundle (R227 step 6). -/
def entered (c : Ctx) (lvl : Nat) (e : Entry) : Ctx :=
  { c with
    cause := e.cause + e.extra, tval := BitVec.ofNat 64 e.tval, epc := epcBits e.epc
    plvl := c.lvl, lvl := lvl, cnt := (c.count 7 1).cnt
    pc := if lvl = 1 then bits c.tdel.toNat 55 5 * 32 else c.tvec
    st := .ready
    replay := [], requeue := [], br := none, loop := { ctr := c.loop.ctr }
    hist := [], below := (c.lvl, c.hist) :: c.below }

section Entry

variable {w : Work} {core bank lvl : Nat} {e : Machine.Entry}

/-- What an entry that is no park leaves of its context. -/
theorem completeEntry_ctx (h : e.park = none) :
    (w.completeEntry core bank lvl e).ctx core bank = entered (w.ctx core bank) lvl e := by
  simp only [Work.completeEntry, h, Work.ctx, ctx_updCtx_same]
  simp only [Dev.ctx, putFields_ctxs]
  rfl

/-- An entry's bytes are those of its frame. -/
theorem completeEntry_byte (h : e.park = none) (x : Nat) :
    let c := w.ctx core bank
    (w.completeEntry core bank lvl e).byte x =
      (putFields w core (c.frameAt lvl) (frameFields c bank e.fwin e c.replay c.requeue)).byte x := by
  simp only [Work.completeEntry, h, byte_updCtx]

end Entry

/-- Settles O15. -/
theorem trapEntry : Obligations.TrapEntry := by
  unfold Obligations.TrapEntry
  intro w core bank lvl e hpark c t d
  have hd : d = entered c lvl e := completeEntry_ctx hpark
  have hbyte : ∀ x, t.byte x = _ := completeEntry_byte hpark
  refine ⟨congrArg Ctx.cause hd, congrArg Ctx.tval hd, congrArg Ctx.epc hd, congrArg Ctx.plvl hd, congrArg Ctx.lvl hd,
    congrArg Ctx.pc hd, congrArg Ctx.st hd, congrArg Ctx.br hd, (congrArg Ctx.s hd).trans rfl,
    (congrArg Ctx.p hd).trans rfl, (congrArg Ctx.vm hd).trans rfl, (congrArg Ctx.v hd).trans rfl,
    (congrArg Ctx.lat hd).trans rfl, (congrArg Ctx.vlat hd).trans rfl, (congrArg Ctx.nest hd).trans rfl, ?_,
    fun hreplay hrequeue x hx => ?_⟩
  · rw [readN_congr fun i _ => hbyte _]
    exact readN_putFields_first _ _ _ _ _ _ (frameFields_behind c bank e.fwin e c.replay c.requeue)
  · rw [hbyte]
    exact byte_putFields w core (c.frameAt lvl) x _ fun f hf => hx.imp (fun h => by omega) fun h => by
      have := frameFields_fit c bank e.fwin e hreplay hrequeue f hf
      omega

-- Levels (R229, R231)

section Levels

variable {c : Ctx} {cause n : Nat}

theorem trapLevel_none (h : c.lvl = 2 ∨ c.lssz < 32768) : c.trapLevel cause = none :=
  if_pos (h.elim .inr fun h => .inl (decide_eq_false (Nat.not_le.mpr h)))

theorem trapLevel_delegated (hf : 32768 ≤ c.lssz) (h0 : c.lvl = 0) (hd : delegable cause = some n)
    (hb : bit c.tdel.toNat n = true) : c.trapLevel cause = some 1 := by
  simp [Ctx.trapLevel, Ctx.hasFrame, hf, h0, hd, hb]

theorem trapLevel_supervisor (hf : 32768 ≤ c.lssz) (h2 : c.lvl ≠ 2) (hh : c.handler = true)
    (hn : c.lvl ≠ 0 ∨ ∀ n, delegable cause = some n → bit c.tdel.toNat n = false) : c.trapLevel cause = some 2 := by
  cases hd : delegable cause with
  | none => simp [Ctx.trapLevel, Ctx.hasFrame, hf, h2, hd, hh]
  | some n =>
    rcases hn with h0 | hn
    · simp [Ctx.trapLevel, Ctx.hasFrame, hf, h2, hd, hh, h0]
    · simp [Ctx.trapLevel, Ctx.hasFrame, hf, h2, hd, hh, hn n hd]

theorem trapLevel_noHandler (hf : 32768 ≤ c.lssz) (h2 : c.lvl ≠ 2) (hh : c.handler = false)
    (hd : delegable cause = none) : c.trapLevel cause = none := by
  simp [Ctx.trapLevel, Ctx.hasFrame, hf, h2, hd, hh]

theorem delegable_none (h : cause ∉ [16, 17, 24, 25, 56]) : delegable cause = none := by
  simp only [List.mem_cons, List.not_mem_nil, or_false, not_or] at h
  unfold delegable
  split <;> simp_all

end Levels

section Enter

variable {w : Work} {core bank lvl : Nat} {e : Machine.Entry}

theorem enter_ends (hp : e.park = none) (hw : e.watch = none) (hl : (w.ctx core bank).trapLevel e.cause = none) :
    w.enter core bank e = (w.withdrawAll core bank).endTask core bank e.cause := by
  simp [Work.enter, hp, hw, hl]

theorem enter_completes (hp : e.park = none) (hw : e.watch = none) (hl : (w.ctx core bank).trapLevel e.cause = some lvl)
    (hq : (w.ctx core bank).qops = []) : w.enter core bank e = w.completeEntry core bank lvl e := by
  simp [Work.enter, Work.endEntry, hp, hw, hl, hq]

end Enter

/-- Settles O16. -/
theorem trapLevels : Obligations.TrapLevels := by
  unfold Obligations.TrapLevels
  refine ⟨fun c cause h => trapLevel_none h, ?_, fun c cause hc hf h2 => ⟨fun hh => ?_, fun hh => ?_⟩, ?_, ?_⟩
  · have levels (cause n : Nat) (hd : delegable cause = some n) (c : Ctx) (hf : 32768 ≤ c.lssz) :
        (c.lvl = 0 → bit c.tdel.toNat n = true → c.trapLevel cause = some 1) ∧
        (c.lvl = 0 → bit c.tdel.toNat n = false → c.handler = true → c.trapLevel cause = some 2) ∧
        (c.lvl = 1 → c.handler = true → c.trapLevel cause = some 2) :=
      ⟨fun h0 hb => trapLevel_delegated hf h0 hd hb,
        fun h0 hb hh => trapLevel_supervisor hf (by omega) hh (.inr fun k hk => by
          obtain rfl : n = k := Option.some.inj (hd.symm.trans hk)
          exact hb),
        fun h1 hh => trapLevel_supervisor hf (by omega) hh (.inl (by omega))⟩
    simp only [List.forall_mem_cons, List.not_mem_nil, false_imp_iff, implies_true, and_true]
    exact ⟨levels 16 0 rfl, levels 17 1 rfl, levels 24 2 rfl, levels 25 3 rfl, levels 56 4 rfl⟩
  · exact trapLevel_supervisor hf h2 hh (.inr fun n hn => nomatch (delegable_none hc).symm.trans hn)
  · exact trapLevel_noHandler hf h2 hh (delegable_none hc)
  · exact fun w core bank e hp hw hl => enter_ends hp hw hl
  · exact fun w core bank e lvl hp hw hl hq => enter_completes hp hw hl hq

-- Return (R230)

theorem get_foldl_set {α : Type} (f : Nat → α) (d : α) (t : Tab α) {n k : Nat} (h : k < n) :
    ((List.range n).foldl (fun t i => t.set i (f i)) t).get k d = f k := by
  induction n with
  | zero => omega
  | succ n ih =>
    rw [List.range_succ, List.foldl_append, List.foldl_cons, List.foldl_nil]
    by_cases hk : k = n
    · rw [hk, tab_get_set_same]
    · rw [tab_get_set_other _ _ _ _ _ hk, ih (by omega)]

/-- What a frame gives back to its context, and what it leaves (R230). -/
theorem restoreFrame_ctx (w : Work) (core bank lvl : Nat) :
    let c := w.ctx core bank
    let get := frameGet w core (c.frameAt lvl)
    let d := (w.restoreFrame core bank lvl).ctx core bank
    d.pc = bits (get 0 8) 55 5 * 32 ∧ d.s = c.s ∧ d.v = c.v ∧ d.p = c.p ∧
      d.lat = (List.range 9).foldl (fun t n => t.set n (BitVec.ofNat 64 (get (0x140 + 8 * n) 8))) c.lat ∧
      d.vlat = (List.range 4).foldl (fun t n => t.set n (BitVec.ofNat 2048 (get (0x400 + 256 * n) 256))) c.vlat := by
  intro c get d
  have hd := ctx_updCtx_same w core bank
  exact ⟨congrArg Ctx.pc (hd _), (congrArg Ctx.s (hd _)).trans rfl, (congrArg Ctx.v (hd _)).trans rfl,
    (congrArg Ctx.p (hd _)).trans rfl,
    congrArg Ctx.lat (hd _), congrArg Ctx.vlat (hd _)⟩

/-- A return changes, besides, the levels and the lines of delayed bundles. -/
theorem returnFromTrap_ctx (w : Work) (core bank : Nat) :
    let c := w.ctx core bank
    ∃ hist below, (w.returnFromTrap core bank).ctx core bank =
      { (w.restoreFrame core bank c.lvl).ctx core bank with
        lvl := c.plvl, plvl := bits (frameGet w core (c.frameAt c.lvl) 0x28 8) 5 4, hist := hist, below := below } := by
  intro c
  rw [Work.returnFromTrap, Work.ctx, ctx_updCtx_same]
  dsimp only
  split
  · exact ⟨_, _, rfl⟩
  · exact ⟨_, _, rfl⟩

/-- Settles O17. -/
theorem trapReturnHalt : Obligations.TrapReturnHalt := by
  unfold Obligations.TrapReturnHalt
  refine ⟨fun σ om os b h hg hb => ?_, fun σ h hg hl => ?_, fun σ h hg hl => ?_, fun σ h hg hl => ?_, fun σ h hg hl => ?_⟩
  · refine congrArg Host.Outcome.next (slotRun_ok h ?_)
    simp only [trapPlan, if_neg (on_not hg), show readPort (Work.begin σ) 5 om os = .ok b from hb, bind_ok]
    rfl
  · refine congrArg Host.Outcome.next (slotRun_trap h ?_)
    simp [eretPlan, on_not hg, hl]
  · intro f
    obtain ⟨hpc, hs, hv, hp, hlat, hvlat⟩ := restoreFrame_ctx (Work.begin σ) σ.dev.issue.core σ.dev.issue.bank (me σ).lvl
    obtain ⟨hist, below, hret⟩ := returnFromTrap_ctx (Work.begin σ) σ.dev.issue.core σ.dev.issue.bank
    refine ⟨((Work.begin σ).returnFromTrap σ.dev.issue.core σ.dev.issue.bank).commit, congrArg Host.Outcome.next
      (slotRun_ok h (by simp [eretPlan, on_not hg, hl])), fun x => commit_read _ x, congrArg Ctx.lvl hret,
      congrArg Ctx.plvl hret, (congrArg Ctx.pc hret).trans hpc, (congrArg Ctx.s hret).trans hs,
      (congrArg Ctx.v hret).trans hv, (congrArg Ctx.p hret).trans hp, fun n hn => ?_, fun n hn => ?_⟩
    · exact (congrArg (fun c : Ctx => c.lat.get n 0) hret).trans ((congrArg (fun t => t.get n 0) hlat).trans
        (get_foldl_set (fun n => BitVec.ofNat 64 (f (0x140 + 8 * n) 8)) 0 _ hn))
    · exact (congrArg (fun c : Ctx => c.vlat.get n 0) hret).trans ((congrArg (fun t => t.get n 0) hvlat).trans
        (get_foldl_set (fun n => BitVec.ofNat 2048 (f (0x400 + 256 * n) 256)) 0 _ hn))
  · refine congrArg Host.Outcome.next (slotRun_trap h ?_)
    simp [haltPlan, on_not hg, hl]
  · refine congrArg Host.Outcome.next (slotRun_ok h ?_)
    simp [haltPlan, on_not hg, hl]
    rfl

end Sys2Proof.Proofs.Traps
end

section
/-! Fences, control words, nest registers and parking on a line (R194, R195, R319, R322, R326, R329). -/

namespace Sys2Proof.Proofs.SystemUnit

open Sys2Proof Sys2Proof.Machine Sys2Proof.Safety Sys2Proof.Laws Sys2Proof.Proofs.LoadStore

-- Fences

section Fences

variable {σ : State}

/-- A context with no enqueue under way (R115). -/
theorem enqueues_nil {c : Ctx} (h : ∀ q ∈ c.qops, q.form ≠ 0x41 ∧ q.form ≠ 0x42 ∧ q.form ≠ 0x43) : enqueues c = [] := by
  simp only [enqueues, List.filter_eq_nil_iff, QueueOp.isEnqueue, Bool.and_eq_true, decide_eq_true_eq]
  intro q hq
  have := h q hq
  omega

theorem fenceWaits_false {kind scope : Nat} (ha : (me σ).accs = [])
    (hq : ∀ q ∈ (me σ).qops, q.form ≠ 0x41 ∧ q.form ≠ 0x42 ∧ q.form ≠ 0x43)
    (hc : ∀ x ∈ (myCore σ).cmds, x.ctx ≠ σ.dev.issue.bank) (hs : ∀ x ∈ (myCore σ).strm, x.ctx ≠ σ.dev.issue.bank) :
    fenceWaits (Work.begin σ) kind scope = false := by
  have hcopies : copiesLeft (Work.begin σ) = false := by
    simp only [copiesLeft, List.any_eq_false, begin_myCore, decide_eq_true_eq]
    exact hc
  have hstream : streamLeft (Work.begin σ) false = false := by
    simp only [streamLeft, List.any_eq_false, begin_myCore, Bool.and_eq_true, decide_eq_true_eq, not_and]
    exact fun x hx hb => absurd hb (hs x hx)
  unfold fenceWaits
  simp only [begin_me, ha, enqueues_nil hq, hcopies, hstream]
  split <;> simp

theorem fencePlan_ok {kind scope : Nat} (hg : On σ) (hk : kind ≤ 3) (hc : scope ≤ 5)
    (hw : fenceWaits (Work.begin σ) kind scope = false) (hl : (me σ).late = []) (hp : (me σ).plate = [])
    (hq : (me σ).qlate = []) :
    fencePlan kind scope (Work.begin σ) = .ok ((Work.begin σ).updMe fun c => { c with
      lts := max c.lts (max (if kind = 0 ∨ kind = 3 then (me σ).engLts else 0)
        (if kind = 1 ∨ kind = 3 then (me σ).enqLts else 0)) + 1 }) := by
  simp only [fencePlan, hk, hc, decide_true, Bool.and_self, check_true, bind_ok, if_neg (on_not hg), hw, fenceReport,
    begin_me, hl, hp, hq, ne_eq, not_true_eq_false, and_false, if_false, Bool.false_eq_true]

end Fences

/-- Settles O18. -/
theorem fences : Obligations.Fences := by
  unfold Obligations.Fences
  refine ⟨fun σ k c h hg hk hc ha hq hcmds hs hl hp hql => ?_, fun σ k c h hbad => ?_, fun σ h hg ha hl => ?_⟩
  · exact congrArg Host.Outcome.next ((slotRun_ok h
      (fencePlan_ok hg hk hc (fenceWaits_false ha hq hcmds hs) hl hp hql)).trans (updMe_commit ..))
  · refine congrArg Host.Outcome.next (slotRun_trap h ?_)
    have hno : (decide (k.toNat ≤ 3) && decide (c.toNat ≤ 5)) = false := by
      rcases hbad with hbad | hbad <;> simp [Nat.not_le.mpr hbad]
    simp only [fencePlan, hno, check_false, bind_error]
  · refine congrArg Host.Outcome.next (slotRun_same h ?_)
    have hno : ((me σ).accs.any fun a => a.kind.isPosted || a.kind.isPublish) = false := by
      simp only [List.any_eq_false, Bool.or_eq_true, not_or]
      exact fun a hm => by simp [ha a hm]
    simp [fenceEPlan, on_not hg, hno, hl]

-- Control words

section Words

variable {σ : State} {om : BitVec 2} {os ts : BitVec 7} {wd : BitVec 6} {we : BitVec 1} {a b : Word} {k : Nat}

theorem cwChecks_ok (hn : b.toNat < 2 ^ 12) (ha : cwAssigned b.toNat = true)
    (ho : ∀ k, cwOpenBit b.toNat = some k → bit (σ.dev.launch (me σ).ix).opens k = true) :
    cwChecks (Work.begin σ) b = .ok () := by
  simp only [cwChecks, decide_eq_true hn, ha, check_true, bind_ok]
  split
  · rfl
  next k hk => exact (congrArg (check · 60) (ho k hk)).trans (check_true 60)

theorem cwChecks_unassigned (h : 2 ^ 12 ≤ b.toNat ∨ cwAssigned b.toNat = false) :
    cwChecks (Work.begin σ) b = .error (.trap 2 none) := by
  by_cases hn : b.toNat < 2 ^ 12
  · simp only [cwChecks, decide_eq_true hn, h.resolve_left (Nat.not_le.mpr hn), check_true, check_false, bind_ok, bind_error]
  · simp only [cwChecks, decide_eq_false hn, check_false, bind_error]

theorem cwChecks_closed (hn : b.toNat < 2 ^ 12) (ha : cwAssigned b.toNat = true) (hk : cwOpenBit b.toNat = some k)
    (ho : bit (σ.dev.launch (me σ).ix).opens k = false) : cwChecks (Work.begin σ) b = .error (.trap 60 none) := by
  simp only [cwChecks, decide_eq_true hn, ha, check_true, bind_ok, hk]
  exact (congrArg (check · 60) ho).trans (check_false 60)

theorem rdcwPlan_ok (hg : On σ) (hb : Safety.Port σ 5 om os b) (hc : cwChecks (Work.begin σ) b = .ok ()) :
    rdcwPlan om os wd we (Work.begin σ) = .ok (((Work.begin σ).setPort 5 b).launchAt 2 (.scalar 5
      (cwValue (Work.begin σ) σ.dev.issue.core σ.dev.issue.bank b.toNat) (dest we wd.toNat) 0)) := by
  simp only [rdcwPlan, if_neg (on_not hg), show readPort (Work.begin σ) 5 om os = .ok b from hb, bind_ok, hc]
  rfl

theorem rdcwPlan_stops {s : Stop} (hg : On σ) (hb : Safety.Port σ 5 om os b) (hc : cwChecks (Work.begin σ) b = .error s) :
    rdcwPlan om os wd we (Work.begin σ) = .error s := by
  simp only [rdcwPlan, if_neg (on_not hg), show readPort (Work.begin σ) 5 om os = .ok b from hb, bind_ok, hc, bind_error]

theorem wrcwPlan_stops {s : Stop} (hg : On σ) (ha : Reads σ ts a) (hb : Safety.Port σ 5 om os b)
    (hc : cwChecks (Work.begin σ) b = .error s) : wrcwPlan om os ts (Work.begin σ) = .error s := by
  simp only [wrcwPlan, if_neg (on_not hg), show readSel (Work.begin σ) ts.toNat = .ok a from ha,
    show readPort (Work.begin σ) 5 om os = .ok b from hb, bind_ok, hc, bind_error]

/-- A write that no level or not this one may make (Table 11.8). -/
theorem wrcwPlan_refused (hg : On σ) (ha : Reads σ ts a) (hb : Safety.Port σ 5 om os b)
    (hc : cwChecks (Work.begin σ) b = .ok ()) (h : cwReadOnly b.toNat = true ∨ b.toNat = 0x014 ∧ (me σ).lvl ≠ 2) :
    wrcwPlan om os ts (Work.begin σ) = .error (.trap 5 none) := by
  simp only [wrcwPlan, if_neg (on_not hg), show readSel (Work.begin σ) ts.toNat = .ok a from ha,
    show readPort (Work.begin σ) 5 om os = .ok b from hb, bind_ok, hc, begin_me]
  cases hro : cwReadOnly b.toNat with
  | true => rfl
  | false =>
    obtain ⟨hn, hl⟩ := h.resolve_left (by rw [hro]; exact nofun)
    simp [hn, hl]

theorem wrcwPlan_ok (hg : On σ) (ha : Reads σ ts a) (hb : Safety.Port σ 5 om os b) (hc : cwChecks (Work.begin σ) b = .ok ())
    (hro : cwReadOnly b.toNat = false) (hl : b.toNat = 0x014 → (me σ).lvl = 2)
    (hf : b.toNat = 0x016 → (me σ).declares (bits a.toNat 19 5 * 32) 32768 = true)
    (hbusy : b.toNat = 0x040 → l2divBusy (Work.begin σ) a.toNat = false) :
    wrcwPlan om os ts (Work.begin σ) = .ok (((Work.begin σ).setPort 5 b).launchAt 2 (.control b.toNat a)) := by
  have hlvl : (decide (b.toNat ≠ 0x014) || decide ((Work.begin σ).me.lvl = 2)) = true := by
    by_cases h : b.toNat = 0x014
    · simp [hl h]
    · simp [h]
  have hframe : (decide (b.toNat ≠ 0x016) || (Work.begin σ).me.declares (bits a.toNat 19 5 * 32) 32768) = true := by
    by_cases h : b.toNat = 0x016
    · rw [begin_me, hf h, Bool.or_true]
    · simp [h]
  have hfree : ¬ (b.toNat = 0x040 ∧ l2divBusy (Work.begin σ) a.toNat = true) := fun ⟨h1, h2⟩ =>
    absurd ((hbusy h1).symm.trans h2) nofun
  simp only [wrcwPlan, if_neg (on_not hg), show readSel (Work.begin σ) ts.toNat = .ok a from ha,
    show readPort (Work.begin σ) 5 om os = .ok b from hb, bind_ok, hc, hro, Bool.not_false, check_true, hlvl,
    hframe, if_neg hfree]

end Words

/-- Settles O19. -/
theorem controlWords : Obligations.ControlWords := by
  unfold Obligations.ControlWords
  refine ⟨?read, ?write, ?refused, ?taken⟩
  case read =>
    intro σ om os wd we b h hg hb hn ha ho
    rw [← launch_commit]
    exact congrArg Host.Outcome.next (slotRun_ok h (rdcwPlan_ok hg hb (cwChecks_ok hn ha ho)))
  case write =>
    intro σ om os ts a b h hg ha hb hn has ho
    refine ⟨fun hr => congrArg Host.Outcome.next (slotRun_trap h (wrcwPlan_refused hg ha hb (cwChecks_ok hn has ho) hr)),
      fun hro hl hf hbusy => ?_⟩
    rw [← launch_commit]
    exact congrArg Host.Outcome.next (slotRun_ok h (wrcwPlan_ok hg ha hb (cwChecks_ok hn has ho) hro hl hf hbusy))
  case refused =>
    intro σ om os ts wd we a b h hg ha hb
    have stops {cause : Nat} (hc : cwChecks (Work.begin σ) b = .error (.trap cause none)) :
        exec (.wrcw om os ts) σ = .next ((Work.begin σ).trapNow cause none).commit ∧
          exec (.rdcw om os wd we) σ = .next ((Work.begin σ).trapNow cause none).commit :=
      ⟨congrArg Host.Outcome.next (slotRun_trap h (wrcwPlan_stops hg ha hb hc)),
        congrArg Host.Outcome.next (slotRun_trap h (rdcwPlan_stops hg hb hc))⟩
    exact ⟨fun hu => stops (cwChecks_unassigned hu), fun k hn has hk ho => stops (cwChecks_closed hn has hk ho)⟩
  case taken =>
    intro w core bank v
    have hc := ctx_updCtx_same w core bank
    exact ⟨congrArg Ctx.tvec (hc _), congrArg Ctx.frz (hc _), congrArg Ctx.split (hc _), congrArg Ctx.mmode (hc _),
      congrArg Ctx.bndlim (hc _)⟩

-- Nest registers

/-- Settles O20. -/
theorem nestForms : Obligations.NestForms := by
  unfold Obligations.NestForms
  intro σ om os ts k a b h hg ha hb kn
  simp only [← launch_commit]
  have hab := readAB_ok ha hb
  refine ⟨fun hal hd => ?_, fun hal => ?_, fun hal hd => ?_, fun hd => ?_, fun hlo hhi => ?_, fun hbad => ?_,
    fun hk => ?_, fun hk => ?_⟩
  · refine congrArg Host.Outcome.next (slotRun_ok h ?_)
    simp [-BitVec.toNat_add, nestSetPlan, on_not hg, hab, hal, hd]
    rfl
  · refine congrArg Host.Outcome.next (slotRun_trap h ?_)
    simp [-BitVec.toNat_add, nestSetPlan, on_not hg, hab, hal]
  · refine congrArg Host.Outcome.next (slotRun_trap h ?_)
    simp [-BitVec.toNat_add, nestSetPlan, on_not hg, hab, hal, hd]
  · refine congrArg Host.Outcome.next (slotRun_ok h ?_)
    have hbit : bit b.toNat 3 = false := decide_eq_false (by omega)
    have hm : b.toNat % 8 = b.toNat := Nat.mod_eq_of_lt (by omega)
    simp only [nestDimPlan, if_neg (on_not hg), hab, bind_ok, hbit, hm, decide_eq_true (show b.toNat < 16 by omega),
      decide_eq_true hd, Bool.and_self, check_true, Bool.false_eq_true, if_false]
    rfl
  · refine congrArg Host.Outcome.next (slotRun_ok h ?_)
    have hbit : bit b.toNat 3 = true := decide_eq_true (by omega)
    have hm : b.toNat % 8 = b.toNat - 8 := by omega
    simp only [nestDimPlan, if_neg (on_not hg), hab, bind_ok, hbit, hm, decide_eq_true (show b.toNat < 16 by omega),
      decide_eq_true (show b.toNat - 8 ≤ 5 by omega), Bool.and_self, check_true, if_true]
    rfl
  · refine congrArg Host.Outcome.next (slotRun_trap h ?_)
    have hno : (decide (b.toNat < 16) && decide (b.toNat % 8 ≤ 5)) = false := by
      rw [← Bool.decide_and]
      exact decide_eq_false (by omega)
    simp only [nestDimPlan, if_neg (on_not hg), hab, bind_ok, hno, check_false, bind_error]
  · refine congrArg Host.Outcome.next (slotRun_ok h ?_)
    simp only [nestBlkPlan, if_neg (on_not hg), hab, bind_ok, decide_eq_true hk, check_true]
    rfl
  · refine congrArg Host.Outcome.next (slotRun_trap h ?_)
    simp only [nestBlkPlan, if_neg (on_not hg), hab, bind_ok, decide_eq_false (Nat.not_le.mpr hk), check_false, bind_error]

-- Parking on a line

theorem foldl_updCore_ctxs (l : List Nat) (f : Work → Nat → Core → Core) (w : Work) :
    (l.foldl (fun a k => a.updCore k (f a k)) w).dev.ctxs = w.dev.ctxs := by
  induction l generalizing w with
  | nil => rfl
  | cons k l ih => exact ih (w.updCore k (f w k))

theorem handOver_ctxs (w : Work) (cores : List Nat) (b : Nat) : (w.handOver cores b).dev.ctxs = w.dev.ctxs := by
  rw [Work.handOver]
  split
  · exact foldl_updCore_ctxs cores (fun _ _ c => { c with cur := 1 - b, goAt := c.raw + 8 }) w
  · rfl

theorem leaveBank_ctxs (w : Work) (q : List Nat) (bank : Nat) : (w.leaveBank q bank).dev.ctxs = w.dev.ctxs := by
  rw [Work.leaveBank]
  dsimp only
  split
  · rfl
  · exact (handOver_ctxs ..).trans (foldl_updCore_ctxs q (fun _ _ c => { c with leftAt := c.raw + 8 }) w)

theorem leaveBank_ctx (w : Work) (q : List Nat) (bank i b : Nat) : (w.leaveBank q bank).ctx i b = w.ctx i b :=
  congrArg (fun t : Tab Ctx => t.get (2 * i + b) {}) (leaveBank_ctxs w q bank)

section Park

variable {w : Work} {core bank : Nat}

/-- With no result in flight, none lands. -/
theorem landDue_none {t : Nat} (h : (w.ctx core bank).flights = []) :
    w.landDue core bank t = w.updCtx core bank fun x => { x with flights := x.flights.filter fun f => decide (t < f.due) } := by
  simp only [Work.landDue, h, List.filter_nil, sortFlights, List.foldl_nil]

/-- A context that nothing is under way for, as it was but for what it waited for. -/
structure Quiet (c d : Ctx) : Prop where
  st : d.st = c.st
  s : d.s = c.s
  pc : d.pc = c.pc
  qops : d.qops = c.qops
  outs : d.outs = []
  accs : d.accs = []

theorem Quiet.trans {a b c : Ctx} (h : Quiet a b) (k : Quiet b c) : Quiet a c :=
  ⟨k.st.trans h.st, k.s.trans h.s, k.pc.trans h.pc, k.qops.trans h.qops, k.outs, k.accs⟩

/-- What a change of the context leaves quiet. -/
theorem quiet_updCtx {f : Ctx → Ctx} (h : Quiet (w.ctx core bank) (f (w.ctx core bank))) :
    Quiet (w.ctx core bank) ((w.updCtx core bank f).ctx core bank) := by
  rw [show (w.updCtx core bank f).ctx core bank = _ from ctx_updCtx_same w core bank f]
  exact h

theorem landAll_quiet (hp : (w.core core).passes = []) (hf : (w.ctx core bank).flights = [])
    (ho : (w.ctx core bank).outs = []) (ha : (w.ctx core bank).accs = []) :
    Quiet (w.ctx core bank) ((w.landAll core bank).ctx core bank) := by
  simp only [Work.landAll, hp, List.filter_nil, List.foldl_nil, hf, landDue_none hf]
  exact quiet_updCtx ⟨rfl, rfl, rfl, rfl, ho, ha⟩

theorem cancelLoads_quiet (ho : (w.ctx core bank).outs = []) (ha : (w.ctx core bank).accs = []) :
    Quiet (w.ctx core bank) ((w.cancelLoads core bank).ctx core bank) :=
  quiet_updCtx ⟨rfl, rfl, rfl, rfl, by rw [ho]; rfl, by rw [ha]; rfl⟩

/-- With nothing outstanding, nothing is performed and nothing lands. -/
theorem perform_none (ha : (w.ctx core bank).accs = []) (ho : (w.ctx core bank).outs = []) :
    let v := Work.performAll core bank (w.ctx core bank).accs.length w
    landReady core bank (v.ctx core bank).outs.length v = w := by
  simp only [ha, List.length_nil, Work.performAll, ho, landReady]

theorem settleContext_quiet (hp : (w.core core).passes = []) (hf : (w.ctx core bank).flights = [])
    (ho : (w.ctx core bank).outs = []) (ha : (w.ctx core bank).accs = []) :
    Quiet (w.ctx core bank) ((w.settleContext core bank).ctx core bank) := by
  have hland := landAll_quiet hp hf ho ha
  have hcancel := hland.trans (cancelLoads_quiet hland.outs hland.accs)
  rw [Work.settleContext]
  simp only [perform_none hcancel.accs hcancel.outs]
  exact hcancel.trans (quiet_updCtx ⟨rfl, rfl, rfl, rfl, hcancel.outs, hcancel.accs⟩)

/-- An entry that parks on a line, with no queue operation left, completes the park. -/
theorem enter_park {e : Entry} {x : Nat × Option Nat × Bool} (hq : (w.ctx core bank).qops = []) (hw : e.watch = some x) :
    w.enter core bank e = w.completePark core bank x := by
  simp [Work.enter, Work.endEntry, hq, hw]

theorem completePark_ctx {x : Nat × Option Nat × Bool} :
    let d := (w.completePark core bank x).ctx core bank
    d.cause = 1024 + 64 ∧ d.s = (w.ctx core bank).s ∧ d.pc = (w.ctx core bank).pc ∧ d.st = .parked (.line x.1 x.2.1 x.2.2) := by
  rw [Work.completePark, show ∀ f, (w.updCtx core bank f).ctx core bank = _ from ctx_updCtx_same w core bank]
  exact ⟨rfl, rfl, rfl, rfl⟩

/-- The entry that parks a context on a line (R329). -/
def parkEntry (w : Work) (core bank line : Nat) (deadline : Option Nat) : Entry :=
  { cause := 0, tval := 0, epc := (w.ctx core bank).pc, resume := (w.ctx core bank).pc, extra := 1024 + 64,
    begun := (w.core core).raw, watch := some (line, deadline, false) }

theorem parkOn_eq {line : Nat} {deadline : Option Nat}
    (hst : (((w.updCtx core bank fun c => { c with st := .entering (parkEntry w core bank line deadline) }).settleContext
      core bank).ctx core bank).st = .entering (parkEntry w core bank line deadline)) :
    w.parkOn core bank line deadline =
      (((w.updCtx core bank fun c => { c with st := .entering (parkEntry w core bank line deadline) }).settleContext
        core bank).enter core bank (parkEntry w core bank line deadline)).leaveBank (quireOf w.dev core bank) bank := by
  unfold parkEntry at hst ⊢
  simp only [Work.parkOn, hst]

theorem parkOn_ctx {line : Nat} {deadline : Option Nat} (hq : (w.ctx core bank).qops = [])
    (ho : (w.ctx core bank).outs = []) (ha : (w.ctx core bank).accs = []) (hf : (w.ctx core bank).flights = [])
    (hp : (w.core core).passes = []) :
    let c := w.ctx core bank
    let d := (w.parkOn core bank line deadline).ctx core bank
    d.cause = 1024 + 64 ∧ d.s = c.s ∧ d.pc = c.pc ∧ d.st = .parked (.line line deadline false) := by
  intro c d
  have h0 := ctx_updCtx_same w core bank fun x => { x with st := .entering (parkEntry w core bank line deadline) }
  have hsettle := settleContext_quiet (core := core) (bank := bank)
    (w := w.updCtx core bank fun x => { x with st := .entering (parkEntry w core bank line deadline) }) hp
    ((congrArg Ctx.flights h0).trans hf) ((congrArg Ctx.outs h0).trans ho) ((congrArg Ctx.accs h0).trans ha)
  have hpark := parkOn_eq (hsettle.st.trans (congrArg Ctx.st h0))
  rw [enter_park (hsettle.qops.trans ((congrArg Ctx.qops h0).trans hq)) rfl] at hpark
  obtain ⟨hcause, hs, hpc, hst⟩ := completePark_ctx (core := core) (bank := bank) (x := (line, deadline, false))
    (w := (w.updCtx core bank fun x => { x with st := .entering (parkEntry w core bank line deadline) }).settleContext
      core bank)
  have hd : d = _ := (congrArg (Work.ctx · core bank) hpark).trans (leaveBank_ctx ..)
  rw [hd]
  exact ⟨hcause, hs.trans (hsettle.s.trans ((congrArg Ctx.s h0).trans rfl)),
    hpc.trans (hsettle.pc.trans ((congrArg Ctx.pc h0).trans rfl)), hst⟩

end Park

/-- Settles O21. -/
theorem contextPark : Obligations.ContextPark := by
  unfold Obligations.ContextPark
  refine ⟨fun σ om os ts h hd => ?_, fun σ om os ts h hd hoff => ?_, fun σ om os ts a b line h hg hd ha hb hline => ⟨?_, ?_⟩⟩
  · refine congrArg Host.Outcome.next (slotRun_trap h ?_)
    simp only [ctxParkPlan, begin_dev, hd, check_false, bind_error]
  · refine congrArg Host.Outcome.next (slotRun_same h ?_)
    simp only [ctxParkPlan, begin_dev, hd, check_true, bind_ok]
    exact if_pos hoff
  · refine congrArg Host.Outcome.next (slotRun_ok h ?_)
    simp only [ctxParkPlan, begin_dev, hd, check_true, bind_ok, if_neg (on_not hg), readAB_ok ha hb, hline]
  · intro hq ho hacc hfl hp d
    have hme : ((Work.begin σ).setPort 5 b).ctx σ.dev.issue.core σ.dev.issue.bank = loaded 5 b (me σ) := setPort_begin σ 5 b
    obtain ⟨hcause, hs, hpc, hst⟩ := parkOn_ctx (w := (Work.begin σ).setPort 5 b) (core := σ.dev.issue.core)
      (bank := σ.dev.issue.bank) (line := line) (deadline := if b.toNat % 2 ^ 32 = 0 then none else
        some (σ.dev.now + b.toNat % 2 ^ 32)) ((congrArg Ctx.qops hme).trans hq) ((congrArg Ctx.outs hme).trans ho)
      ((congrArg Ctx.accs hme).trans hacc) ((congrArg Ctx.flights hme).trans hfl) hp
    exact ⟨hcause, hs.trans ((congrArg Ctx.s hme).trans rfl), hpc.trans ((congrArg Ctx.pc hme).trans rfl), hst⟩

end Sys2Proof.Proofs.SystemUnit
end

section
/-! The floating-point forms of R336, R339 and R344. -/

namespace Sys2Proof.Proofs.VectorFloats

open Sys2Proof Sys2Proof.Machine Sys2Proof.Safety Sys2Proof.Laws Sys2Proof.Proofs.VectorPlans Sys2Proof.Proofs.VectorIntegers
open Sys2Proof.Proofs.VectorMoves

-- Elements

/-- Three lists of one length, combined by index. -/
theorem map3_eq_map_range (f : Nat → Nat → Nat → Nat) {e : Nat} {a b c : List Nat} (ha : a.length = e) (hb : b.length = e)
    (hc : c.length = e) : map3 f a b c = (List.range e).map fun i => f (a.getD i 0) (b.getD i 0) (c.getD i 0) := by
  induction e generalizing a b c with
  | zero =>
    obtain rfl := List.eq_nil_of_length_eq_zero ha
    rfl
  | succ e ih =>
    obtain ⟨x, a, rfl⟩ := List.exists_cons_of_length_eq_add_one ha
    obtain ⟨y, b, rfl⟩ := List.exists_cons_of_length_eq_add_one hb
    obtain ⟨z, c, rfl⟩ := List.exists_cons_of_length_eq_add_one hc
    rw [map3, ih (Nat.succ.inj ha) (Nat.succ.inj hb) (Nat.succ.inj hc), List.range_succ_eq_map, List.map_cons, List.map_map]
    rfl

/-- The smaller or greater of two elements (R336). -/
theorem pickElem_eq (f : Fmt) (most : Bool) (x y : Nat) :
    pickElem f most x y = if (value f x).isNan ∨ (value f y).isNan then f.nan
      else if most then (if (value f x).before (value f y) then y else x)
      else if (value f y).before (value f x) then y else x := by
  simp only [pickElem, Bool.or_eq_true]

-- Plans

section Plans

variable {σ : State} {om : BitVec 2} {os ts : BitVec 7} {wd : BitVec 5} {we : BitVec 1} {a b : Vec} {f : Fmt}

theorem vFused_run {op : Machine.Real → Machine.Real → Machine.Real → Machine.Real} {c : Vec} (h : Takes σ)
    (ha : VReads σ (.fmt f) ts a) (hb : VPort σ (.fmt f) om os b) (hc : VReads σ (.fmt f) (wd.setWidth 7) c) :
    slotRun (vFused f op om os ts wd we) σ =
      withMe σ (vFlight σ 4 (alu σ) (packVec f.bits ((List.range (2048 / f.bits)).map fun i =>
          rne f (op (floatValue f ((elements f.bits a).getD i 0)) (floatValue f ((elements f.bits b).getD i 0))
            (floatValue f ((elements f.bits c).getD i 0))))) (lanes σ)
        (dest we wd.toNat) 0 (vloaded σ b (me σ))) := by
  rw [← landElems_commit, ← map3_eq_map_range (fun x y z => rne f (op (floatValue f x) (floatValue f y) (floatValue f z)))
    (elements_length _ a) (elements_length _ b) (elements_length _ c), slotRun_ok h]
  simp [vFused, readVAB_ok ha hb, readW_ok hc]

/-- `vround` and `vscale` (R339). -/
theorem vModed_run {op : Nat → Nat → Nat} (h : Takes σ) (ha : VReads σ (.fmt f) ts a)
    (hb : VPort σ (if om = 1 ∧ 0x60 ≤ os.toNat then .fmt f else .bare f.bits) om os b) :
    slotRun (vModed f op om os ts wd we) σ =
      withMe σ (vFlight σ 4 (alu σ) (zipElems f.bits op a b) (lanes σ) (dest we wd.toNat) 0 (vloaded σ b (me σ))) := by
  rw [zipElems, ← landElems_commit, slotRun_ok h]
  simp only [vModed, readVAB_ok ha hb, bind_ok]

end Plans

/-- Settles O22: a binary form's operation on elements is the rule's, and a fused form combines three lists by index. -/
theorem vectorFloatForms : Obligations.VectorFloatForms := by
  unfold Obligations.VectorFloatForms
  simp only [← vFmt_eq_floatOf]
  refine ⟨?binary, ?fused, ?moded⟩
  case binary =>
    simp only [List.forall_mem_cons, List.not_mem_nil, false_imp_iff, implies_true, and_true]
    exact ⟨fun _ _ _ _ _ _ _ _ _ => exec_vBinary rfl fun _ _ _ _ => rfl,
      fun _ _ _ _ _ _ _ _ _ => exec_vBinary rfl fun _ _ _ _ => rfl,
      fun _ _ _ _ _ _ _ _ _ => exec_vBinary rfl fun _ _ _ _ => rfl,
      fun _ _ _ _ _ _ _ _ _ => exec_vBinary rfl fun x y _ _ => pickElem_eq _ false x y,
      fun _ _ _ _ _ _ _ _ _ => exec_vBinary rfl fun x y _ _ => pickElem_eq _ true x y⟩
  case fused =>
    simp only [List.forall_mem_cons, List.not_mem_nil, false_imp_iff, implies_true, and_true]
    exact ⟨fun _ _ _ _ _ _ _ _ _ _ h ha hb hc => congrArg Host.Outcome.next (vFused_run h ha hb hc),
      fun _ _ _ _ _ _ _ _ _ _ h ha hb hc => congrArg Host.Outcome.next (vFused_run h ha hb hc),
      fun _ _ _ _ _ _ _ _ _ _ h ha hb hc => congrArg Host.Outcome.next (vFused_run h ha hb hc)⟩
  case moded =>
    simp only [List.forall_mem_cons, List.not_mem_nil, false_imp_iff, implies_true, and_true]
    exact ⟨fun _ _ _ _ _ _ _ _ _ h ha hb => congrArg Host.Outcome.next (vModed_run h ha hb),
      fun _ _ _ _ _ _ _ _ _ h ha hb => congrArg Host.Outcome.next (vModed_run h ha hb)⟩

-- Function forms (Table 13.4)

theorem rne_zero (f : Fmt) : rne f (.ofInt 0) = 0 := by
  cases f <;> rfl

/-- log2 of 1 is 0, exactly. -/
theorem fnLog2_one (f : Fmt) : fnLog2 f (.fin false 1 0) = 0 := by
  have hlen : bitLen 1 - 1 = 0 := by decide
  simp only [fnLog2, Nat.one_ne_zero, if_false, Bool.false_eq_true, hlen, Nat.pow_zero, if_true]
  exact rne_zero f

section Specials

variable (f : Fmt) (s : Bool) (e : Int) {m : Nat}

theorem fnExp2_zero : fnExp2 f (.fin s 0 e) = rne f (.ofInt 1) := by
  simp only [fnExp2, if_true]
  rfl

theorem fnLog2_zero : fnLog2 f (.fin s 0 e) = overflowCode f true .infinity := by simp only [fnLog2, if_true]
theorem fnRcp_zero : fnRcp f (.fin s 0 e) = overflowCode f s .infinity := by simp only [fnRcp, if_true]
theorem fnRsqrt_zero : fnRsqrt f (.fin s 0 e) = overflowCode f s .infinity := by simp only [fnRsqrt, if_true]
theorem fnSigm_zero : fnSigm f (.fin s 0 e) = rne f (.fin false 1 (-1)) := by simp only [fnSigm, if_true]
theorem fnTanh_zero : fnTanh f (.fin s 0 e) = if s then 2 ^ (f.bits - 1) else 0 := by simp only [fnTanh, if_true]

theorem fnLog2_negative (hm : m ≠ 0) : fnLog2 f (.fin true m e) = f.nan := by simp only [fnLog2, if_neg hm, if_true]
theorem fnRsqrt_negative (hm : m ≠ 0) : fnRsqrt f (.fin true m e) = f.nan := by simp only [fnRsqrt, if_neg hm, if_true]

end Specials

/-- Settles O23. -/
theorem vectorFunctions : Obligations.VectorFunctions := by
  unfold Obligations.VectorFunctions
  simp only [← vFmt_eq_floatOf]
  refine ⟨?forms, fun f _ s e => ?specials⟩
  case forms =>
    simp only [List.forall_mem_cons, List.not_mem_nil, false_imp_iff, implies_true, and_true]
    exact ⟨fun _ _ _ _ _ _ h ha => congrArg Host.Outcome.next (vUnary_run h ha),
      fun _ _ _ _ _ _ h ha => congrArg Host.Outcome.next (vUnary_run h ha),
      fun _ _ _ _ _ _ h ha => congrArg Host.Outcome.next (vUnary_run h ha),
      fun _ _ _ _ _ _ h ha => congrArg Host.Outcome.next (vUnary_run h ha),
      fun _ _ _ _ _ _ h ha => congrArg Host.Outcome.next (vUnary_run h ha),
      fun _ _ _ _ _ _ h ha => congrArg Host.Outcome.next (vUnary_run h ha),
      fun _ _ _ _ _ _ h ha => congrArg Host.Outcome.next (vUnary_run h ha),
      fun _ _ _ _ _ _ h ha => congrArg Host.Outcome.next (vUnary_run h ha)⟩
  case specials =>
    refine ⟨?nan, rfl, rfl, fnExp2_zero f s e, fnLog2_zero f s e, rfl, rfl, fnLog2_one f,
      fun m hm => fnLog2_negative f e hm, fnRcp_zero f s e, rfl, fnRsqrt_zero f s e, fun m hm => fnRsqrt_negative f e hm,
      rfl, rfl, rfl, rfl, fnSigm_zero f s e, fnTanh_zero f s e, rfl⟩
    simp only [List.forall_mem_cons, List.not_mem_nil, false_imp_iff, implies_true, and_true]
    exact ⟨rfl, rfl, rfl, rfl, rfl, rfl⟩

end Sys2Proof.Proofs.VectorFloats
end

section
/-! The conversions of R341 to R343, the local-store and accumulator forms of R347 to R349 and the mask forms of R351 and
R352. -/

namespace Sys2Proof.Proofs.VectorUnit

open Sys2Proof Sys2Proof.Machine Sys2Proof.Safety Sys2Proof.Laws Sys2Proof.Proofs.VectorPlans Sys2Proof.Proofs.VectorIntegers
open Sys2Proof.Proofs.VectorMoves Sys2Proof.Proofs.LoadStore Sys2Proof.Proofs.ScalarResults

-- Conversion

/-- A slice of a list that is long enough, mapped, by index. -/
theorem map_take_drop (g : Nat → Nat) {xs : List Nat} {from_ e : Nat} (h : from_ + e ≤ xs.length) :
    ((xs.drop from_).take e).map g = (List.range e).map fun i => g (xs.getD (from_ + i) 0) := by
  apply List.ext_getElem
  · simp only [List.length_map, List.length_take, List.length_drop, List.length_range]
    omega
  · intro i h₁ h₂
    rw [List.length_map, List.length_range] at h₂
    simp only [List.getElem_map, List.getElem_take, List.getElem_drop, List.getElem_range]
    rw [List.getD_eq_getElem?_getD, List.getElem?_eq_getElem (by omega), Option.getD_some]

theorem Fmt.bits_mem (f : Fmt) : f.bits = 4 ∨ f.bits = 8 ∨ f.bits = 16 ∨ f.bits = 32 := by
  cases f <;> simp [Fmt.bits]

/-- Each part of the wider side holds as many elements as the narrower side has in it. -/
theorem part_fits {s d part : Nat} (hs : s = 4 ∨ s = 8 ∨ s = 16 ∨ s = 32) (hd : d = 4 ∨ d = 8 ∨ d = 16 ∨ d = 32)
    (hpart : part < max s d / min s d) :
    (if s ≤ d then part * (2048 / max s d) else 0) + 2048 / max s d ≤ 2048 / s := by
  rcases hs with rfl | rfl | rfl | rfl <;> rcases hd with rfl | rfl | rfl | rfl <;> simp at hpart ⊢ <;> omega

/-- A converted part lands in the bytes written, under the slot's mask (R342). -/
theorem landPart_commit (σ : State) (b : Vec) (n first : Nat) (res : List Nat) (dst : Option Nat) :
    (((Work.begin σ).setVPort b).landPart n first res dst).commit =
      withMe σ (vFlight σ 4 (alu σ) (BitVec.ofNat 2048 (packN n res * 2 ^ (first * n)))
        (lanes σ &&& byteRange (first * n / 8) (res.length * n / 8)) dst 0 (vloaded σ b (me σ))) := by
  rw [Work.landPart, laneMask_setVPort, vLatch_setVPort, landMasked_commit]

theorem clampInt_eq {lo hi : Int} (h : lo ≤ hi) (x : Int) : clampInt lo hi x = max lo (min hi x) := by
  simp only [clampInt]
  split
  · omega
  · split <;> omega

theorem Fmt.intRange_le (f : Fmt) : f.intRange.1 ≤ f.intRange.2 := by
  cases f <;> decide

theorem Fmt.ofCode_none {n : Nat} (h : 10 < n) : Fmt.ofCode n = none := by
  unfold Fmt.ofCode
  split <;> first | omega | rfl

section Conversions

variable {σ : State} {om : BitVec 2} {os ts : BitVec 7} {wd : BitVec 5} {we : BitVec 1} {a b : Vec} {src dst : Fmt}

theorem vcvtPlan_ok (hb : VPort σ .groups om os b) (hs : Fmt.ofCode ((lane0 b).toNat % 16) = some src)
    (hd : Fmt.ofCode (bits (lane0 b).toNat 7 4) = some dst) (hs0 : (lane0 b).toNat % 16 ≠ 0)
    (hd0 : bits (lane0 b).toNat 7 4 ≠ 0)
    (hpart : bits (lane0 b).toNat 12 10 < max src.bits dst.bits / min src.bits dst.bits) (ha : VReads σ (.fmt src) ts a) :
    vcvtPlan om os ts wd we (Work.begin σ) =
      .ok (((Work.begin σ).setVPort b).landPart dst.bits
        (if src.bits ≤ dst.bits then 0 else bits (lane0 b).toNat 12 10 * (2048 / max src.bits dst.bits))
        ((((elements src.bits a).drop (if src.bits ≤ dst.bits then
          bits (lane0 b).toNat 12 10 * (2048 / max src.bits dst.bits) else 0)).take (2048 / max src.bits dst.bits)).map
          (vcvtElem src dst (bit (lane0 b).toNat 8)
            (if bits (lane0 b).toNat 63 32 = 0 then .ofInt 1 else floatValue .fp32 (bits (lane0 b).toNat 63 32))))
        (dest we wd.toNat)) := by
  have hb' : readVPort (Work.begin σ) .groups om os = .ok b := hb
  simp [vcvtPlan, hb', hs, hd, hs0, hd0, hpart, readVSel_ok ha]

theorem vcvtPlan_trap (hb : VPort σ .groups om os b)
    (h : (lane0 b).toNat % 16 = 0 ∨ 10 < (lane0 b).toNat % 16 ∨ bits (lane0 b).toNat 7 4 = 0 ∨
      10 < bits (lane0 b).toNat 7 4) :
    vcvtPlan om os ts wd we (Work.begin σ) = .error (.trap 29 none) := by
  have hb' : readVPort (Work.begin σ) .groups om os = .ok b := hb
  simp only [vcvtPlan, hb', bind_ok]
  cases hs : Fmt.ofCode ((lane0 b).toNat % 16) with
  | none => rfl
  | some src =>
    cases hd : Fmt.ofCode (bits (lane0 b).toNat 7 4) with
    | none => rfl
    | some dst =>
      have hzero : (lane0 b).toNat % 16 = 0 ∨ bits (lane0 b).toNat 7 4 = 0 := by
        rcases h with h | h | h | h
        · exact .inl h
        · simp [Fmt.ofCode_none h] at hs
        · exact .inr h
        · simp [Fmt.ofCode_none h] at hd
      have hcheck : (decide ((lane0 b).toNat % 16 ≠ 0) && decide (bits (lane0 b).toNat 7 4 ≠ 0)) = false := by
        rcases hzero with h | h <;> simp [h]
      simp only [hcheck]
      rfl

theorem vcvtPlan_part (hb : VPort σ .groups om os b) (hs : Fmt.ofCode ((lane0 b).toNat % 16) = some src)
    (hd : Fmt.ofCode (bits (lane0 b).toNat 7 4) = some dst)
    (hpart : max src.bits dst.bits / min src.bits dst.bits ≤ bits (lane0 b).toNat 12 10) :
    vcvtPlan om os ts wd we (Work.begin σ) = .error (.trap 29 none) := by
  have hb' : readVPort (Work.begin σ) .groups om os = .ok b := hb
  by_cases hzero : (lane0 b).toNat % 16 = 0 ∨ bits (lane0 b).toNat 7 4 = 0
  · exact vcvtPlan_trap hb (hzero.elim .inl fun h => .inr (.inr (.inl h)))
  · rw [not_or] at hzero
    simp [vcvtPlan, hb', hs, hd, hzero.1, hzero.2, Nat.not_lt.2 hpart]

/-- `vcvt` with a legal descriptor (R341, R342). -/
theorem vcvt_run (h : Takes σ) (hb : VPort σ .groups om os b) (hs : Fmt.ofCode ((lane0 b).toNat % 16) = some src)
    (hd : Fmt.ofCode (bits (lane0 b).toNat 7 4) = some dst) (hs0 : (lane0 b).toNat % 16 ≠ 0)
    (hd0 : bits (lane0 b).toNat 7 4 ≠ 0)
    (hpart : bits (lane0 b).toNat 12 10 < max src.bits dst.bits / min src.bits dst.bits) (ha : VReads σ (.fmt src) ts a) :
    let part := bits (lane0 b).toNat 12 10
    let e := 2048 / max src.bits dst.bits
    let off := if src.bits ≤ dst.bits then 0 else part * e
    let scl := bits (lane0 b).toNat 63 32
    slotRun (vcvtPlan om os ts wd we) σ =
      withMe σ (vFlight σ 4 (alu σ) (BitVec.ofNat 2048 (packN dst.bits ((List.range e).map fun i =>
          vcvtElem src dst (bit (lane0 b).toNat 8) (if scl = 0 then .ofInt 1 else floatValue .fp32 scl)
            ((elements src.bits a).getD ((if src.bits ≤ dst.bits then part * e else 0) + i) 0)) * 2 ^ (off * dst.bits)))
        (lanes σ &&& byteRange (off * dst.bits / 8) (e * dst.bits / 8)) (dest we wd.toNat) 0 (vloaded σ b (me σ))) := by
  intro part e off scl
  have hfits : (if src.bits ≤ dst.bits then part * e else 0) + e ≤ (elements src.bits a).length := by
    rw [elements_length]
    exact part_fits (Fmt.bits_mem src) (Fmt.bits_mem dst) hpart
  rw [slotRun_ok h (vcvtPlan_ok hb hs hd hs0 hd0 hpart ha), landPart_commit, map_take_drop _ hfits, List.length_map,
    List.length_range]

/-- The descriptor of `vrq` is legal (R343). -/
def RequantOk (d : Nat) : Prop :=
  (2 ≤ d % 16 ∧ d % 16 ≤ 4) ∧ (bits d 7 4 = 5 ∨ bits d 7 4 = 10) ∧ bits d 12 10 < (if d % 16 = 4 then 2 else 4)

theorem vrqPlan_ok (hb : VPort σ .groups om os b) (hd : RequantOk (lane0 b).toNat)
    (hsrc : src = if bits (lane0 b).toNat 7 4 = 10 then .fp32 else .int32)
    (hdst : dst = if (lane0 b).toNat % 16 = 2 then .int8 else if (lane0 b).toNat % 16 = 3 then .uint8 else .int16)
    (ha : VReads σ (.fmt src) ts a) :
    vrqPlan om os ts wd we (Work.begin σ) =
      .ok (((Work.begin σ).setVPort b).landPart dst.bits (bits (lane0 b).toNat 12 10 * 64)
        ((elements 32 a).map (vrqElem src dst (bits (lane0 b).toNat 21 16) (sx 8 (bits (lane0 b).toNat 31 24))
          (sx 32 (bits (lane0 b).toNat 63 32)))) (dest we wd.toNat)) := by
  obtain ⟨⟨h2, h4⟩, hsc, hpart⟩ := hd
  have hb' : readVPort (Work.begin σ) .groups om os = .ok b := hb
  have hcode : (decide (2 ≤ (lane0 b).toNat % 16) && decide ((lane0 b).toNat % 16 ≤ 4) &&
      (decide (bits (lane0 b).toNat 7 4 = 5) || decide (bits (lane0 b).toNat 7 4 = 10))) = true := by
    simp [h2, h4, hsc]
  simp only [vrqPlan, hb', bind_ok, hcode, check_true, hpart, decide_true, ← hsrc, ← hdst, readVSel_ok ha]

theorem vrqPlan_trap (hb : VPort σ .groups om os b) (hd : ¬ RequantOk (lane0 b).toNat) :
    vrqPlan om os ts wd we (Work.begin σ) = .error (.trap 29 none) := by
  have hb' : readVPort (Work.begin σ) .groups om os = .ok b := hb
  simp only [vrqPlan, hb', bind_ok]
  cases hcode : (decide (2 ≤ (lane0 b).toNat % 16) && decide ((lane0 b).toNat % 16 ≤ 4) &&
      (decide (bits (lane0 b).toNat 7 4 = 5) || decide (bits (lane0 b).toNat 7 4 = 10))) with
  | false => rfl
  | true =>
    simp only [Bool.and_eq_true, Bool.or_eq_true, decide_eq_true_eq] at hcode
    have hpart : ¬ bits (lane0 b).toNat 12 10 < (if (lane0 b).toNat % 16 = 4 then 2 else 4) :=
      fun hp => hd ⟨hcode.1, hcode.2, hp⟩
    simp only [check_true, bind_ok, hpart, decide_false]
    rfl

theorem vrqElem_eq (shift : Nat) (zp mult : Int) (x : Nat) : vrqElem src dst shift zp mult x =
    wrap dst.bits (max dst.intRange.1 (min dst.intRange.2
      (rna ((if src = .fp32 then sx 32 (convert .int32 false (floatValue .fp32 x)) else sx 32 x) * mult) shift + zp))) := by
  rw [vrqElem, clampInt_eq (Fmt.intRange_le dst)]

end Conversions

/-- Settles O26: a part of the wider side is a slice of the elements, and what the checks refuse is what the clause lists. -/
theorem vectorConversions : Obligations.VectorConversions := by
  unfold Obligations.VectorConversions
  refine ⟨?vcvt, ?vrq, ?traps⟩
  case vcvt =>
    intro σ om os ts wd we a b src dst h hb d part wide e s xs go off hs hd hs0 hd0 hpart ha
    refine (congrArg Host.Outcome.next (vcvt_run h hb hs hd hs0 hd0 hpart ha)).trans ?_
    have hgo : (fun i => vcvtElem src dst (bit d 8) (if bits d 63 32 = 0 then .ofInt 1 else floatValue .fp32 (bits d 63 32))
        (xs.getD ((if src.bits ≤ dst.bits then part * e else 0) + i) 0)) = go := by
      funext i
      simp only [vcvtElem, go, s, show Machine.Real.ofInt 1 = .fin false 1 0 from rfl]
      split <;> simp
    exact hgo ▸ rfl
  case vrq =>
    intro σ om os ts wd we a b h hb d part src dst go hdc hsc hpart ha
    have hok : RequantOk (lane0 b).toNat := ⟨by omega, hsc, hpart⟩
    refine (congrArg Host.Outcome.next ((slotRun_ok h (vrqPlan_ok hb hok rfl rfl ha)).trans (landPart_commit ..))).trans ?_
    have hgo : vrqElem src dst (bits d 21 16) (sx 8 (bits d 31 24)) (sx 32 (bits d 63 32)) = go := by
      funext x
      rw [vrqElem_eq]
      simp only [go, src]
      split <;> simp
    rw [List.length_map, elements_length, ← hgo]
  case traps =>
    intro σ om os ts wd we b h hb d
    refine ⟨fun hbad => congrArg Host.Outcome.next (slotRun_trap h (vcvtPlan_trap hb hbad)),
      fun src dst hs hd hpart => congrArg Host.Outcome.next (slotRun_trap h (vcvtPlan_part hb hs hd hpart)),
      fun hbad => congrArg Host.Outcome.next (slotRun_trap h (vrqPlan_trap hb ?_))⟩
    rintro ⟨hdc, hsc, hpart⟩
    change 2 ≤ d % 16 ∧ d % 16 ≤ 4 at hdc
    change bits d 7 4 = 5 ∨ bits d 7 4 = 10 at hsc
    change bits d 12 10 < (if d % 16 = 4 then 2 else 4) at hpart
    omega

-- Local-store access

section Walks

variable {σ : State} {k : BitVec 4} {ts : BitVec 7} {wd : BitVec 5} {we : BitVec 1} {a c : Vec} {i : NestImage}

theorem imm_groups (k : Nat) (h : k < 16) : View.groups.imm k = splat 64 k := by
  have hwrap : wrap 64 (k : Int) = k := by
    rw [wrap, ← Int.natCast_emod, Int.toNat_natCast, Nat.mod_eq_of_lt (Nat.lt_trans h (by decide))]
  rw [View.imm, hwrap]

theorem lsNest_ok (hi : (me σ).nest.get k.toNat 0 = i) (hv : nestValid i = true) (hk : nestKind i = 3) :
    lsNest (Work.begin σ) k = .ok i := by
  subst hi
  exact if_pos ⟨hv, hk⟩

theorem walkElemChecks_ok {es : List (Nat × Int)} (hal : ∀ e ∈ es, e.2 % (nestUnit i : Int) = 0)
    (hdecl : ∀ e ∈ es, 0 ≤ e.2 ∧ (me σ).declares e.2.toNat (nestUnit i) = true) :
    walkElemChecks (Work.begin σ) i es = .ok () := by
  have h13 : (es.all fun e => decide (e.2 % (nestUnit i : Int) = 0)) = true :=
    List.all_eq_true.2 fun e he => decide_eq_true (hal e he)
  have h10 : (es.all fun e => decide (0 ≤ e.2) && (Work.begin σ).me.declares e.2.toNat (nestUnit i)) = true :=
    List.all_eq_true.2 fun e he => by
      rw [Bool.and_eq_true]
      exact ⟨decide_eq_true (hdecl e he).1, (hdecl e he).2⟩
  simp only [walkElemChecks, h13, h10, check_true, bind_ok]

/-- The elements of a walk come in the order of their index in the register. -/
theorem walkElems_pairwise (i : NestImage) (m : Mask) (a : Nat) :
    (walkElems i m a).Pairwise fun e f => e.1 < f.1 := by
  refine List.Pairwise.filterMap _ (R := fun x y : Bool × Nat => x.2 < y.2) ?_ ?_
  · intro x y hxy e he f hf
    split at he
    · split at hf
      · cases he
        cases hf
        exact hxy
      · cases hf
    · cases he
  · rw [List.pairwise_iff_getElem]
    intro p q hp hq hpq
    rw [List.getElem_zip, List.getElem_zip, List.getElem_range, List.getElem_range]
    exact hpq

theorem vldPlan_ok (ha : VReads σ .groups ts a) (hn : lsNest (Work.begin σ) k = .ok i)
    (hc : walkElemChecks (Work.begin σ) i (walkElems i (lanes σ) (lane0 a).toNat) = .ok ()) :
    vldPlan k ts wd we (Work.begin σ) =
      let n := nestUnit i
      let es := walkElems i (lanes σ) (lane0 a).toNat
      let at_ (e : Nat × Int) : Nat := (me σ).relocate e.2.toNat
      .ok (((Work.begin σ).setVPort (splat 64 k.toNat)).landMasked 8 (alu σ)
        (BitVec.ofNat 2048 (es.foldl (fun x e =>
          x + (Work.begin σ).lsRead σ.dev.issue.core (at_ e) n * 2 ^ (8 * n * e.1)) 0))
        (lanes σ &&& elemBytes n es) (dest we wd.toNat)
        (if es.any fun e => lsMark (Work.begin σ) (at_ e) n ≠ 0 then 41 else 0)) := by
  rw [vldPlan, readVSel_ok ha, bind_ok, hn, bind_ok]
  dsimp only
  rw [show walkElemChecks (Work.begin σ) i (walkElems i (laneMask (Work.begin σ)) (lane0 a).toNat) = .ok () from hc, bind_ok,
    imm_groups _ k.isLt, vLatch_begin]
  rfl

/-- The elements of a register stored, one after another. -/
def storeElems (core n v : Nat) (at_ : Nat × Int → Nat) (es : List (Nat × Int)) (w : Work) : Work :=
  es.foldl (fun x e => x.lsWrite core (at_ e) n (packedBytes v (n * e.1) n)) w

theorem vstPlan_ok (ha : VReads σ .groups ts a) (hw : VReads σ .groups (wd.setWidth 7) c)
    (hn : lsNest (Work.begin σ) k = .ok i)
    (hc : walkElemChecks (Work.begin σ) i (walkElems i (lanes σ) (lane0 a).toNat) = .ok ()) :
    vstPlan k ts wd (Work.begin σ) =
      let n := nestUnit i
      let es := walkElems i (lanes σ) (lane0 a).toNat
      let at_ (e : Nat × Int) : Nat := (me σ).relocate e.2.toNat
      .ok (((storeElems σ.dev.issue.core n c.toNat at_ es (Work.begin σ)).clearMarks σ.dev.issue.core n (es.map at_)).setVPort
        (splat 64 k.toNat)) := by
  rw [vstPlan, readVSel_ok ha, bind_ok, readW_ok hw, bind_ok, hn, bind_ok]
  dsimp only
  rw [show walkElemChecks (Work.begin σ) i (walkElems i (laneMask (Work.begin σ)) (lane0 a).toNat) = .ok () from hc, bind_ok,
    imm_groups _ k.isLt]
  rfl

/-- A byte of the n packed bytes from `off`. -/
theorem packedBytes_byte (v off : Nat) {j n : Nat} (h : j < n) :
    BitVec.ofNat 8 (packedBytes v off n / 256 ^ j) = BitVec.ofNat 8 (v / 256 ^ (off + j)) := by
  obtain ⟨m, rfl⟩ := Nat.exists_eq_add_of_lt h
  apply BitVec.eq_of_toNat_eq
  rw [BitVec.toNat_ofNat, BitVec.toNat_ofNat, packedBytes, Nat.pow_mul, Nat.pow_mul, show 2 ^ 8 = 256 from rfl,
    Nat.add_assoc, Nat.pow_add, Nat.mod_mul_right_div_self, Nat.div_div_eq_div_mul, ← Nat.pow_add,
    Nat.mod_mod_of_dvd _ ⟨256 ^ m, Nat.pow_succ'⟩]

section Stores

variable (core n v : Nat) (at_ : Nat × Int → Nat)

theorem storeElems_frame (es : List (Nat × Int)) (w : Work) :
    (storeElems core n v at_ es w).dev.ctxs = w.dev.ctxs ∧ (storeElems core n v at_ es w).dev.issue.core = w.dev.issue.core ∧
      (storeElems core n v at_ es w).dev.issue.bank = w.dev.issue.bank ∧
      (storeElems core n v at_ es w).dev.issue.slot = w.dev.issue.slot := by
  induction es generalizing w with
  | nil => exact ⟨rfl, rfl, rfl, rfl⟩
  | cons e es ih =>
    have hslot : ∀ m (w : Work) a v, (w.lsWrite core a m v).dev.issue.slot = w.dev.issue.slot := by
      intro m
      induction m with
      | zero => exact fun _ _ _ => rfl
      | succ m ih => exact fun w a v => ih (w.lsSet core a v) (a + 1) (v / 256)
    obtain ⟨hctxs, hcore, hbank⟩ := lsWrite_frame w core (at_ e) n (packedBytes v (n * e.1) n)
    obtain ⟨ictxs, icore, ibank, islot⟩ := ih (w.lsWrite core (at_ e) n (packedBytes v (n * e.1) n))
    exact ⟨ictxs.trans hctxs, icore.trans hcore, ibank.trans hbank, islot.trans (hslot ..)⟩

theorem byte_storeElems_outside {es : List (Nat × Int)} {x : Nat} (w : Work)
    (h : ∀ e ∈ es, x < Key.ls core (at_ e) ∨ Key.ls core (at_ e) + n ≤ x) :
    (storeElems core n v at_ es w).byte x = w.byte x := by
  induction es generalizing w with
  | nil => rfl
  | cons e es ih =>
    obtain ⟨hx, hes⟩ := List.forall_mem_cons.1 h
    exact (ih _ hes).trans (byte_lsWrite_outside _ _ _ _ _ _ hx)

/-- A byte of an element keeps what the last element that covers it stores. -/
theorem byte_storeElems_inside {es : List (Nat × Int)} (w : Work) (hsort : es.Pairwise fun e f => e.1 < f.1) {e : Nat × Int}
    (he : e ∈ es) {j : Nat} (hj : j < n)
    (hlast : ∀ f ∈ es, e.1 < f.1 → ¬ (at_ f ≤ at_ e + j ∧ at_ e + j < at_ f + n)) :
    (storeElems core n v at_ es w).byte (Key.ls core (at_ e) + j) = BitVec.ofNat 8 (v / 256 ^ (n * e.1 + j)) := by
  induction es generalizing w with
  | nil => cases he
  | cons f es ih =>
    obtain ⟨hf, hes⟩ := List.pairwise_cons.1 hsort
    rcases List.mem_cons.1 he with rfl | he
    · refine Eq.trans (byte_storeElems_outside core n v at_ (w.lsWrite core (at_ e) n _) (es := es) fun g hg => ?_)
        ((byte_lsWrite_inside _ _ _ _ _ _ hj).trans (packedBytes_byte v _ hj))
      have := hlast g (List.mem_cons_of_mem _ hg) (hf g hg)
      unfold Key.ls
      omega
    · exact ih _ hes he fun g hg => hlast g (List.mem_cons_of_mem _ hg)

end Stores

theorem vld_run (h : Takes σ) (ha : VReads σ .groups ts a) (hn : lsNest (Work.begin σ) k = .ok i)
    (hc : walkElemChecks (Work.begin σ) i (walkElems i (lanes σ) (lane0 a).toNat) = .ok ()) :
    slotRun (vldPlan k ts wd we) σ =
      let n := nestUnit i
      let es := walkElems i (lanes σ) (lane0 a).toNat
      let at_ (e : Nat × Int) : Nat := (me σ).relocate e.2.toNat
      withMe σ (vFlight σ 8 (alu σ) (BitVec.ofNat 2048 (es.foldl (fun x e =>
          x + (Work.begin σ).lsRead σ.dev.issue.core (at_ e) n * 2 ^ (8 * n * e.1)) 0))
        (lanes σ &&& elemBytes n es) (dest we wd.toNat)
        (if es.any fun e => lsMark (Work.begin σ) (at_ e) n ≠ 0 then 41 else 0)
        (vloaded σ (splat 64 k.toNat) (me σ))) := by
  rw [slotRun_ok h (vldPlan_ok ha hn hc)]
  dsimp only
  rw [landMasked_commit]

/-- What a store leaves of its context: the port's load. -/
theorem me_setVPort {w : Work} (b : Vec) (hctxs : w.dev.ctxs = σ.dev.ctxs) (hcore : w.dev.issue.core = σ.dev.issue.core)
    (hbank : w.dev.issue.bank = σ.dev.issue.bank) (hslot : w.dev.issue.slot = σ.dev.issue.slot) :
    me (w.setVPort b).commit = vloaded σ b (me σ) := by
  have hme : w.me = me σ := by rw [Work.me, Dev.ctx, hctxs, hcore, hbank, me, Dev.ctx]
  have hv1 : w.isV1 = decide (σ.dev.issue.slot = 3) := by rw [Work.isV1, hslot]
  have hport : (w.setVPort b).me = vloaded σ b (me σ) := by
    rw [Work.setVPort, updMe_me, hme, hv1, vloaded, alu]
    simp only [decide_eq_true_eq]
  exact hport

theorem clearMarks_frame (w : Work) (core n : Nat) (l : List Nat) :
    (w.clearMarks core n l).dev.ctxs = w.dev.ctxs ∧ (w.clearMarks core n l).dev.issue.core = w.dev.issue.core ∧
      (w.clearMarks core n l).dev.issue.bank = w.dev.issue.bank ∧
      (w.clearMarks core n l).dev.issue.slot = w.dev.issue.slot := ⟨rfl, rfl, rfl, rfl⟩

/-- `vst` stores the elements of its walk and loads its port. -/
theorem vst_run (h : Takes σ) (ha : VReads σ .groups ts a) (hw : VReads σ .groups (wd.setWidth 7) c)
    (hn : lsNest (Work.begin σ) k = .ok i)
    (hc : walkElemChecks (Work.begin σ) i (walkElems i (lanes σ) (lane0 a).toNat) = .ok ()) :
    me (slotRun (vstPlan k ts wd) σ) = vloaded σ (splat 64 k.toNat) (me σ) ∧
      ∀ x, (slotRun (vstPlan k ts wd) σ).mem.read x = (storeElems σ.dev.issue.core (nestUnit i) c.toNat
        (fun e => (me σ).relocate e.2.toNat) (walkElems i (lanes σ) (lane0 a).toNat) (Work.begin σ)).byte x := by
  obtain ⟨hctxs, hcore, hbank, hslot⟩ := storeElems_frame σ.dev.issue.core (nestUnit i) c.toNat
    (fun e => (me σ).relocate e.2.toNat) (walkElems i (lanes σ) (lane0 a).toNat) (Work.begin σ)
  rw [slotRun_ok h (vstPlan_ok ha hw hn hc)]
  generalize storeElems σ.dev.issue.core (nestUnit i) c.toNat (fun e => (me σ).relocate e.2.toNat)
    (walkElems i (lanes σ) (lane0 a).toNat) (Work.begin σ) = w at *
  obtain ⟨kctxs, kcore, kbank, kslot⟩ := clearMarks_frame w σ.dev.issue.core (nestUnit i)
    ((walkElems i (lanes σ) (lane0 a).toNat).map fun e => (me σ).relocate e.2.toNat)
  exact ⟨me_setVPort _ (kctxs.trans hctxs) (kcore.trans hcore) (kbank.trans hbank) (kslot.trans hslot),
    fun x => commit_read _ x⟩

end Walks

-- The accumulators

/-- The unit or pair that a descriptor of `vacc.rd` or `vacc.wr` names, declared. -/
theorem accUnits_ok {c : Ctx} {b u v : Nat} (haf : bits b 4 3 ≠ 3) (heven : bits b 4 3 = 2 → b % 2 = 0)
    (hu : c.unit (b % 8) = some u) (hv : c.unit (if bits b 4 3 = 2 then b % 8 + 1 else b % 8) = some v) :
    accUnits c b = .ok (u, v) := by
  have hodd : (decide (bits b 4 3 = 3) || (decide (bits b 4 3 = 2) && decide (b % 8 % 2 = 1))) = false := by
    simp only [Bool.or_eq_false_iff, Bool.and_eq_false_iff, decide_eq_false_iff_not]
    omega
  simp only [accUnits, hodd, Bool.not_false, check_true, bind_ok, hu, hv]

/-- Settles O28: the elements of a walk come in the order of their index, so the last store at a byte is the one of the
highest index. -/
theorem vectorMemoryAndAccumulators : Obligations.VectorMemoryAndAccumulators := by
  unfold Obligations.VectorMemoryAndAccumulators
  refine ⟨?memory, ?accumulators⟩
  case memory =>
    intro σ k ts wd we a i h ha hi hv hk n es at_ hal hdecl
    have hn := lsNest_ok hi hv hk
    have hc := walkElemChecks_ok hal hdecl
    refine ⟨congrArg Host.Outcome.next (vld_run h ha hn hc), fun c hw => ?_⟩
    obtain ⟨hme, hbytes⟩ := vst_run h ha hw hn hc
    refine ⟨_, rfl, hme, fun x hx => ?_, fun e he j hj hlast => ?_⟩
    · rw [hbytes]
      exact byte_storeElems_outside _ _ _ _ _ hx
    · rw [hbytes]
      exact byte_storeElems_inside _ _ _ _ _ (walkElems_pairwise ..) he hj hlast
  case accumulators =>
    intro σ om os ts wd we av bv u v h ha hb a b haf heven hu hv
    have hus : accUnits (Work.begin σ).me b = .ok (u, v) := accUnits_ok haf heven hu hv
    refine ⟨congrArg Host.Outcome.next ((slotRun_ok h ?_).trans (landMasked_commit ..)), fun c hw =>
      congrArg Host.Outcome.next ((slotRun_ok h ?_).trans (vlaunch_commit ..))⟩
    · rw [vaccRdPlan, readVAB_ok ha hb, bind_ok]
      dsimp only
      rw [show accUnits (Work.begin σ).me (lane0 bv).toNat = .ok (u, v) from hus, bind_ok]
      rfl
    · rw [vaccWrPlan, readVAB_ok ha hb, bind_ok]
      dsimp only
      rw [readW_ok hw, bind_ok, show accUnits (Work.begin σ).me (lane0 bv).toNat = .ok (u, v) from hus, bind_ok]
      rfl

-- The mask forms

section Masks

variable {σ : State} {wd : BitVec 5} {we : BitVec 1} {op : Mask → Mask → Mask} {a b vmd : BitVec 3}

theorem maskPlan_run (h : Takes σ) (hv : laneSel (Work.begin σ) = 0) :
    slotRun (maskPlan op a b vmd we) σ = withMe σ (inFlight σ 2 (.mask (alu σ)
      ((op ((me σ).vmreg a.toNat) ((me σ).vmreg b.toNat)).setWidth 2048) (op ((me σ).vmreg a.toNat) ((me σ).vmreg b.toNat))
      (BitVec.allOnes 256) (dest we vmd.toNat)) (me σ)) := by
  rw [← launch_only_commit, slotRun_ok h]
  simp only [maskPlan, hv, decide_true, check_true, bind_ok, vLatch_begin]
  rfl

theorem maskPlan_trap (h : Takes σ) (hv : laneSel (Work.begin σ) ≠ 0) :
    slotRun (maskPlan op a b vmd we) σ = ((Work.begin σ).trapNow 2 none).commit := by
  apply slotRun_trap h
  simp only [maskPlan, hv, decide_false]
  rfl

end Masks

/-- Settles O29. -/
theorem vectorMaskForms : Obligations.VectorMaskForms := by
  unfold Obligations.VectorMaskForms
  refine ⟨fun σ wd we h => ⟨?row, ?count⟩, fun σ b a wd we h => ⟨fun hv => ?land, fun hv => ?trap⟩⟩
  case row =>
    refine congrArg Host.Outcome.next ((slotRun_ok h (w := (Work.begin σ).landMasked 2 (alu σ)
      (splat 64 (mrowTag (me σ))) (lanes σ) (dest we wd.toNat) 0) ?_).trans (launch_only_commit ..))
    rw [vmrowPlan, vLatch_begin]
    rfl
  case count =>
    have hcount : popFrom 256 (lanes σ).toNat = ((List.range 256).filter fun i => (lanes σ).getLsbD i).length :=
      popFrom_eq_count 256 _
    rw [← hcount]
    refine congrArg Host.Outcome.next ((slotRun_ok h (w := (Work.begin σ).landWhole 2 (alu σ)
      (splat 64 (popFrom 256 (lanes σ).toNat)) (dest we wd.toNat)) ?_).trans (launch_only_commit ..))
    rw [vmcntPlan, vLatch_begin]
    rfl
  case land =>
    exact ⟨congrArg Host.Outcome.next (maskPlan_run h hv), congrArg Host.Outcome.next (maskPlan_run h hv),
      congrArg Host.Outcome.next (maskPlan_run h hv)⟩
  case trap =>
    exact ⟨congrArg Host.Outcome.next (maskPlan_trap h hv), congrArg Host.Outcome.next (maskPlan_trap h hv),
      congrArg Host.Outcome.next (maskPlan_trap h hv)⟩

end Sys2Proof.Proofs.VectorUnit
end

section
/-! Copy engines (R156, R387): the record that `cp.quiesce` writes reaches the commands of another context. -/

namespace Sys2Proof.Proofs.CopyEngines

open Sys2Proof Sys2Proof.Machine Sys2Proof.Safety Sys2Proof.Laws

/-- A copy command of the context of bank 1 that still reads the byte at local-store address 0 of core 0 as it stood at the
command's acceptance (R156). -/
def cmdOfOther : CopyCmd :=
  { id := 0, form := 1, ctx := 1, pc := 0, word := 0, a := 0, wordPa := 0, b := 0, n1 := 0, n2 := 0, order := 0
    snap := [(Key.ls 0 0, 0)] }

/-- The command stands on CE0, and the context of bank 0, which issues to C0, declares 8 KiB. -/
def otherHoldsByte : State :=
  { dev := { ctxs := [(0, { lssz := 8192 })], cores := [(0, { ce := [(0, [.cmd cmdOfOther])] })], issue := { slot := 5 } } }

/-- The number of old bytes that each of some commands still reads. -/
def oldBytes (l : List CopyCmd) : List Nat := l.map fun c => c.snap.length

theorem me_otherHoldsByte : me otherHoldsByte = { lssz := 8192 } := rfl

theorem record_declared : (me otherHoldsByte).declares 0 5152 = true := by
  rw [me_otherHoldsByte, Ctx.declares]
  simp

theorem engine_otherHoldsByte : (Work.begin otherHoldsByte).engine = 0 := rfl

theorem kept_otherHoldsByte : ((myCore otherHoldsByte).engineCmds 0).filter
    (fun c => decide (c.ctx ≠ otherHoldsByte.dev.issue.bank)) = [cmdOfOther] := rfl

/-- The record is written outside a bundle, and no older value of its bytes is kept. -/
theorem oldBytes_quiesce : oldBytes ((myCore (slotRun (cpQuiescePlan 0) otherHoldsByte)).engineCmds 0) = [0] := rfl

theorem exec_cpQuiesce (ts : BitVec 7) (σ : State) : exec (.cpQuiesce ts) σ = .next (slotRun (cpQuiescePlan ts) σ) := rfl

/-- Refutes O33: where another context's command on the engine still reads a byte of the record as it stood before, `cp.quiesce`
changes that command, so what it leaves on the engine is not the list without the commands of its own context. -/
theorem not_copyForms : ¬ Obligations.CopyForms := by
  unfold Obligations.CopyForms
  intro ⟨_, _, _, _, _, h, _⟩
  obtain ⟨-, -, -, hdone⟩ := h otherHoldsByte 0 0 rfl rfl
  obtain ⟨t, ht, -, hcmds, -⟩ := hdone rfl record_declared rfl
  rw [exec_cpQuiesce] at ht
  rw [engine_otherHoldsByte, kept_otherHoldsByte, ← Host.Outcome.next.inj ht] at hcmds
  exact absurd (oldBytes_quiesce.symm.trans (congrArg oldBytes hcmds)) (by decide)

end Sys2Proof.Proofs.CopyEngines
end

section
/-! The M slot's forms (R253, R359 to R374). -/

namespace Sys2Proof.Proofs.MatrixUnit

open Sys2Proof Sys2Proof.Machine Sys2Proof.Safety Sys2Proof.Laws

-- Weight loads

section Loads

variable {σ : State} {ts : BitVec 7} {b : BitVec 1} {k : BitVec 4} {a : Word} {pa : Nat} {i : NestImage} {x : PassClass}

theorem streamRoom_ok (h : (myCore σ).strm.length < 2) : streamRoom (Work.begin σ) = .ok () := if_pos h

theorem loadPositions_eq (x : PassClass) : loadPositions x = if x.is16 then 131072 else 262144 := rfl

theorem bankFree_eq (b : Nat) : bankFree (Work.begin σ) b = check (!(myCore σ).bound b) 28 := rfl

theorem loadChecks_invalid {n : Nat} (hv : nestValid i = false) :
    loadChecks (Work.begin σ) i n a = .error (.trap 37 none) := by
  rw [loadChecks, hv]
  rfl

theorem loadChecks_bound {n : Nat} (hv : nestValid i = true) (hx : passClass (nestFormat i) = some x)
    (hn : nestPositions i = loadPositions x) (hb : (myCore σ).bound n = true) :
    loadChecks (Work.begin σ) i n a = .error (.trap 28 none) := by
  rw [loadChecks, hv]
  simp only [check_true, bind_ok, hx, hn, decide_true, Option.isSome_some, bankFree_eq, hb, Bool.not_true]
  rfl

theorem loadChecks_ok {n : Nat} (hv : nestValid i = true) (hx : passClass (nestFormat i) = some x)
    (hn : nestPositions i = loadPositions x) (hb : (myCore σ).bound n = false)
    (hw : wordCheck (Work.begin σ) a = .ok pa) (hwalk : walkCheck (Work.begin σ) i 0 false = .ok ()) :
    loadChecks (Work.begin σ) i n a = .ok pa := by
  rw [loadChecks, hv]
  simp only [check_true, bind_ok, hx, hn, decide_true, Option.isSome_some, bankFree_eq, hb, Bool.not_false, hw, hwalk]

theorem mwldPlan_eq (hs : (myCore σ).strm.length < 2) (ha : Reads σ ts a) :
    mwldPlan ts b k (Work.begin σ) = (loadChecks (Work.begin σ) ((me σ).nest.get k.toNat 0) b.toNat a).bind fun pa =>
      .ok ((Work.begin σ).pushStream 0 b.toNat ((me σ).nest.get k.toNat 0) a pa none) := by
  rw [mwldPlan, streamRoom_ok hs, bind_ok, show readSel (Work.begin σ) ts.toNat = .ok a from ha, bind_ok]
  rfl

/-- A lead's, or a lone core's, `mwld.b`. -/
theorem mwldBPlan_own (hs : (myCore σ).strm.length < 2) (ha : Reads σ ts a)
    (hq : (quireOf σ.dev σ.dev.issue.core σ.dev.issue.bank).length = 1 ∨ (me σ).lead = σ.dev.issue.core) :
    mwldBPlan ts b k (Work.begin σ) = (loadChecks (Work.begin σ) ((me σ).nest.get k.toNat 0) b.toNat a).bind fun pa =>
      .ok ((Work.begin σ).pushStream 1 b.toNat ((me σ).nest.get k.toNat 0) a pa
        (if (quireOf σ.dev σ.dev.issue.core σ.dev.issue.bank).length = 1 then none else some (σ.dev.issue.core, 0))) := by
  rw [mwldBPlan, streamRoom_ok hs, bind_ok, show readSel (Work.begin σ) ts.toNat = .ok a from ha, bind_ok]
  by_cases hone : (quireOf σ.dev σ.dev.issue.core σ.dev.issue.bank).length = 1
  · rw [if_pos hone]
    exact if_pos hone
  · rw [if_neg hone]
    exact (if_neg hone).trans (if_pos (hq.resolve_left hone))

/-- A follower's `mwld.b` takes its lead's nest image. -/
theorem mwldBPlan_follower {y : WCmd} (hs : (myCore σ).strm.length < 2) (ha : Reads σ ts a)
    (hq : (quireOf σ.dev σ.dev.issue.core σ.dev.issue.bank).length ≠ 1) (hlead : (me σ).lead ≠ σ.dev.issue.core)
    (hy : leadLoad (Work.begin σ) = some y) (hb : (myCore σ).bound b.toNat = false)
    (hw : wordCheck (Work.begin σ) a = .ok pa) :
    mwldBPlan ts b k (Work.begin σ) =
      .ok ((Work.begin σ).pushStream 1 b.toNat y.img a pa (some ((me σ).lead, y.id))) := by
  rw [mwldBPlan, streamRoom_ok hs, bind_ok, show readSel (Work.begin σ) ts.toNat = .ok a from ha, bind_ok]
  refine (if_neg hq).trans ((if_neg hlead).trans ?_)
  rw [hy]
  simp only [bankFree_eq, hb, Bool.not_false, check_true, bind_ok, hw]
  rfl

theorem mcalPlan_eq (hs : (myCore σ).strm.length < 2) :
    mcalPlan b (Work.begin σ) = if (myCore σ).bound b.toNat then .error (.trap 28 none)
      else .ok ((Work.begin σ).pushStream 2 b.toNat 0 0 0 none) := by
  rw [mcalPlan, streamRoom_ok hs, bind_ok, bankFree_eq]
  cases (myCore σ).bound b.toNat <;> rfl

end Loads

/-- A command appended starts at once if it is a calibration at the head of the stream. -/
theorem startCal_append {c : Core} {l : List WCmd} {cmd : WCmd} (hc : c.strm = l ++ [cmd])
    (hl : ∀ x ∈ l, x.form = 2 → x.started = true) (hcmd : cmd.started = false) :
    c.startCal.strm = l ++ [{ cmd with
      started := decide (cmd.form = 2 ∧ l = [])
      due := if cmd.form = 2 ∧ l = [] then c.raw + 2048 else cmd.due }] := by
  cases l with
  | nil =>
    rw [List.nil_append] at hc
    by_cases hform : cmd.form = 2
    · simp [Core.startCal, hc, hform, hcmd]
    · simp [Core.startCal, hc, hform, ← hcmd]
  | cons x l =>
    have hx : ¬ (x.form = 2 ∧ x.started = false) := fun h => by simp [hl x List.mem_cons_self h.1] at h
    have hsame : c.startCal = c := by
      rw [Core.startCal, hc]
      exact if_neg hx
    simp [hsame, hc, ← hcmd]

theorem startCal_passes (c : Core) : c.startCal.passes = c.passes := by
  rw [Core.startCal]
  split
  · rfl
  · split <;> rfl

theorem updCore_myCore_same (w : Work) (f : Core → Core) : (w.updCore w.dev.issue.core f).myCore = f w.myCore :=
  tab_get_set_same _ _ _ _

/-- Settles O30: the checks of a load come in the order of R361, and only a calibration at the head of the stream starts. -/
theorem weightLoads : Obligations.WeightLoads := by
  unfold Obligations.WeightLoads
  refine ⟨?load, ?cal, ?push⟩
  case load =>
    intro σ ts b k a pa h ha hs i w core size sent
    refine ⟨fun hw hb hv hwalk ⟨x, hx, hn⟩ => ?accepted, fun y hw hb hsize hlead hy => ?follower, fun hv => ?invalid,
      fun x hv hx hn hb => ?bound⟩
    case accepted =>
      have hchecks : loadChecks w i b.toNat a = .ok pa := loadChecks_ok hv hx hn hb hw hwalk
      refine ⟨congrArg Host.Outcome.next (slotRun_ok h ?_), fun hone => congrArg Host.Outcome.next (slotRun_ok h ?_),
        fun hmany hlead => congrArg Host.Outcome.next (slotRun_ok h ?_)⟩
      · rw [mwldPlan_eq hs ha, hchecks]
        rfl
      · rw [mwldBPlan_own hs ha (.inl hone), hchecks, if_pos hone]
        rfl
      · rw [mwldBPlan_own hs ha (.inr hlead), hchecks, if_neg hmany]
        rfl
    case follower => exact congrArg Host.Outcome.next (slotRun_ok h (mwldBPlan_follower hs ha hsize hlead hy hb hw))
    case invalid =>
      refine congrArg Host.Outcome.next (slotRun_trap h ?_)
      rw [mwldPlan_eq hs ha, loadChecks_invalid hv]
      rfl
    case bound =>
      refine congrArg Host.Outcome.next (slotRun_trap h ?_)
      rw [mwldPlan_eq hs ha, loadChecks_bound hv hx hn hb]
      rfl
  case cal =>
    intro σ b h hs
    have hplan := mcalPlan_eq (b := b) hs
    cases hb : (myCore σ).bound b.toNat with
    | true =>
      rw [hb] at hplan
      exact congrArg Host.Outcome.next (slotRun_trap h hplan)
    | false =>
      rw [hb] at hplan
      exact congrArg Host.Outcome.next (slotRun_ok h hplan)
  case push =>
    intro w form b i a pa grp hstarted
    have hcore : (w.pushStream form b i a pa grp).myCore = _ := updCore_myCore_same w _
    exact ⟨_, (congrArg Core.strm hcore).trans (startCal_append rfl hstarted rfl), rfl, rfl, rfl, rfl, rfl, rfl, rfl, rfl, rfl,
      (congrArg Core.passes hcore).trans (startCal_passes _)⟩

-- Passes

section Passes

variable {σ : State} {fwd : Bool} {ts : BitVec 7} {f : BitVec 2} {add : BitVec 1} {win : BitVec 2} {sp : BitVec 4} {a : Word}

/-- The fields of a pass descriptor and of its slot word are assigned (R365, R366). -/
def FieldsOk (a : Nat) (win : BitVec 2) : Prop :=
  bit a 7 = false ∧ bits a 15 14 = 0 ∧ bit a 23 = false ∧ a < 2 ^ 25 ∧ win.toNat ≠ 3

/-- The rows of a pass lie in a tile (R366). -/
def TileOk (a : Nat) : Prop := 1 ≤ bits a 22 16 ∧ bits a 22 16 ≤ 64 ∧ bits a 13 8 + bits a 22 16 ≤ 64

/-- The activation walk of a pass has its rows' positions in the local store (R366). -/
def RowsWalk (i : NestImage) (rows : Nat) : Prop :=
  nestValid i = true ∧ nestKind i = 3 ∧ nestPositions i = rows * (if nestFormat i = .int4 then 512 else 1024)

theorem fields_iff (a : Nat) (win : BitVec 2) : (descriptorOk a && decide (win.toNat ≠ 3)) = true ↔ FieldsOk a win := by
  simp [descriptorOk, FieldsOk, and_assoc]

theorem tile_iff (a : Nat) : (decide (1 ≤ bits a 22 16) && decide (bits a 22 16 ≤ 64) &&
    decide (bits a 13 8 + bits a 22 16 ≤ 64)) = true ↔ TileOk a := by
  simp [TileOk, and_assoc]

theorem walk_iff (i : NestImage) (rows : Nat) : (nestValid i && decide (nestKind i = 3) &&
    decide (nestPositions i = rows * rowPositions (nestFormat i))) = true ↔ RowsWalk i rows := by
  simp only [Bool.and_eq_true, decide_eq_true_eq, and_assoc]
  exact Iff.rfl

theorem mrunPlan_fields (hh : passHold (Work.begin σ) = .ok ()) (ha : Reads σ ts a) (hf : ¬ FieldsOk a.toNat win) :
    mrunPlan fwd ts f add win sp (Work.begin σ) = .error (.trap 2 none) := by
  rw [mrunPlan, hh, bind_ok, show readSel (Work.begin σ) ts.toNat = .ok a from ha, bind_ok]
  dsimp only
  rw [Bool.eq_false_iff.2 fun h => hf ((fields_iff _ _).1 h)]
  rfl

theorem mrunPlan_tile (hh : passHold (Work.begin σ) = .ok ()) (ha : Reads σ ts a) (hf : FieldsOk a.toNat win)
    (ht : ¬ TileOk a.toNat) : mrunPlan fwd ts f add win sp (Work.begin σ) = .error (.trap 29 none) := by
  rw [mrunPlan, hh, bind_ok, show readSel (Work.begin σ) ts.toNat = .ok a from ha, bind_ok]
  dsimp only
  rw [(fields_iff _ _).2 hf, check_true, bind_ok, Bool.eq_false_iff.2 fun h => ht ((tile_iff _).1 h)]
  rfl

theorem mrunPlan_walk (hh : passHold (Work.begin σ) = .ok ()) (ha : Reads σ ts a) (hf : FieldsOk a.toNat win)
    (ht : TileOk a.toNat) (hw : ¬ RowsWalk ((me σ).nest.get (bits a.toNat 3 0) 0) (bits a.toNat 22 16)) :
    mrunPlan fwd ts f add win sp (Work.begin σ) = .error (.trap 37 none) := by
  rw [mrunPlan, hh, bind_ok, show readSel (Work.begin σ) ts.toNat = .ok a from ha, bind_ok]
  dsimp only
  rw [(fields_iff _ _).2 hf, check_true, bind_ok, (tile_iff _).2 ht, check_true, bind_ok, begin_me,
    Bool.eq_false_iff.2 fun h => hw ((walk_iff _ _).1 h)]
  rfl

/-- The format checks of R367 step 4. -/
theorem passFormats_ok {i : NestImage} {b : WBank} {wf : Fmt} {k : PassClass} {af split unit ch : Nat}
    (hwf : Fmt.ofCode b.fmt = some wf) (hk : passClass wf = some k) (hpair : classPair (nestFormat i) wf = true)
    (hacc : classAcc k af = true) (hsplit : split ≤ k.maxSplit) (hunit : classPairs k af = true → unit % 2 = 0)
    (hch : ch = 0 ∨ k.is16 = true) (hfwd : fwd = true → k.isInt4 = false) :
    passFormats i b true fwd af split unit ch = .ok k := by
  have hodd : (!(classPairs k af && decide (unit % 2 = 1))) = true := by
    cases hp : classPairs k af with
    | false => rfl
    | true => simp [hunit hp]
  have hint : (!(fwd && k.isInt4)) = true := by
    cases hf : fwd with
    | false => rfl
    | true => simp [hfwd hf]
  have hhalf : (decide (ch = 0) || k.is16) = true := by simpa using hch
  simp only [passFormats, hwf, Option.getD_some, hk, check_true, bind_ok, hpair, hacc, hsplit, decide_true, hodd, hhalf, hint]

theorem declaredUnit_ok {c : Ctx} {u x : Nat} (h : c.unit u = some x) : declaredUnit c u = .ok x := by
  simp only [declaredUnit, h]

/-- The pass that a descriptor and the fields of its slot word name, on units u0 and u1 (R365, R366). -/
def passNamed (σ : State) (fwd : Bool) (f : BitVec 2) (add : BitVec 1) (win : BitVec 2) (sp : BitVec 4) (a : Word)
    (u0 u1 : Nat) : Pass :=
  { ctx := σ.dev.issue.bank, fwd := fwd, img := (me σ).nest.get (bits a.toNat 3 0) 0, u0 := u0, u1 := u1
    row0 := bits a.toNat 13 8, rows := bits a.toNat 22 16, ch := bits a.toNat 24 24, split := (me σ).effSplit sp.toNat
    win := 64 * 2 ^ win.toNat, add := decide (add.toNat = 1), af := f.toNat, wbank := (myCore σ).active
    pc := σ.dev.issue.pc, seq := (myCore σ).pser, start := max (myCore σ).clk (myCore σ).streamEnd
    snap := (Work.begin σ).lsSnap σ.dev.issue.core, reloc := (me σ).reloc, fser := (me σ).mrowCnt + 1 }

theorem mrunPlan_ok {k : PassClass} {u0 u1 : Nat} (hh : passHold (Work.begin σ) = .ok ()) (ha : Reads σ ts a)
    (hf : FieldsOk a.toNat win) (ht : TileOk a.toNat)
    (hw : RowsWalk ((me σ).nest.get (bits a.toNat 3 0) 0) (bits a.toNat 22 16))
    (hst : ((myCore σ).wb.get (myCore σ).active {}).st = .loaded)
    (hk : passFormats ((me σ).nest.get (bits a.toNat 3 0) 0) ((myCore σ).wb.get (myCore σ).active {}) true fwd f.toNat
      sp.toNat (bits a.toNat 6 4) (bits a.toNat 24 24) = .ok k)
    (hu0 : (me σ).unit (bits a.toNat 6 4) = some u0)
    (hu1 : (me σ).unit (if classPairs k f.toNat then bits a.toNat 6 4 + 1 else bits a.toNat 6 4) = some u1)
    (hstale : (me σ).effSplit sp.toNat = 0 ∨ bankStale σ.dev ((myCore σ).wb.get (myCore σ).active {}) = false)
    (hwalk : walkCheck (Work.begin σ) ((me σ).nest.get (bits a.toNat 3 0) 0) 0 false = .ok ()) :
    mrunPlan fwd ts f add win sp (Work.begin σ) =
      .ok ((Work.begin σ).trigger (passNamed σ fwd f add win sp a u0 u1) k fwd) := by
  have hadd : decide (add = 1) = decide (add.toNat = 1) := by
    rw [decide_eq_decide, BitVec.toNat_eq]
    rfl
  have hus : tileUnits k f.toNat (bits a.toNat 6 4) =
      (bits a.toNat 6 4, if classPairs k f.toNat then bits a.toNat 6 4 + 1 else bits a.toNat 6 4) := by
    rw [tileUnits]
    split <;> rfl
  have hsplit : (decide ((me σ).effSplit sp.toNat = 0) ||
      !bankStale σ.dev ((myCore σ).wb.get (myCore σ).active {})) = true := by
    simpa using hstale
  rw [mrunPlan, hh, bind_ok, show readSel (Work.begin σ) ts.toNat = .ok a from ha, bind_ok]
  dsimp only
  rw [(fields_iff _ _).2 hf, check_true, bind_ok, (tile_iff _).2 ht, check_true, bind_ok, begin_me, begin_myCore,
    (walk_iff _ _).2 hw, check_true, bind_ok, hst, decide_eq_true rfl, hk, bind_ok, hus, declaredUnit_ok hu0, bind_ok,
    declaredUnit_ok hu1, bind_ok, show (Work.begin σ).dev = σ.dev from rfl, hsplit, check_true, bind_ok, hwalk, bind_ok, hadd]
  rfl

end Passes

/-- What a trigger leaves of the core and the context. -/
theorem trigger_myCore (w : Work) (p : Pass) (k : PassClass) (fwd : Bool) :
    (w.trigger p k fwd).myCore = { w.myCore with
      passes := w.myCore.passes ++ [p], pser := w.myCore.pser + 1, streamEnd := p.start + p.rows * k.cadence } := by
  rw [Work.trigger, updMe_myCore, updCore_myCore_same]

theorem trigger_me (w : Work) (p : Pass) (k : PassClass) (fwd : Bool) :
    (w.trigger p k fwd).me = { w.me with mrowCnt := w.me.mrowCnt + if fwd then 1 else 0 } := by
  rw [Work.trigger, updMe_me, updCore_me]
  cases fwd <;> rfl

/-- Settles O31: the checks come in the order of R366 and R367, each with its own cause. -/
theorem passes : Obligations.Passes := by
  unfold Obligations.Passes
  intro σ ts f add win sp a h ha hh w c cr n rows i bank fields tile walk s pass
  refine ⟨?triggers, fun hf => ?fields, fun hf ht => ?tile, fun hf ht hw => ?walk⟩
  case triggers =>
    intro k wf u0 u1 hf ht hw hst hwf hk hpair hacc hsplit hunit hch hu0 hu1 hstale hwalk
    have hok (fwd : Bool) (hfwd : fwd = true → k.isInt4 = false) := mrunPlan_ok (add := add) hh ha hf ht hw hst
      (passFormats_ok hwf hk hpair hacc hsplit hunit hch hfwd) hu0 hu1 hstale hwalk
    refine ⟨congrArg Host.Outcome.next (slotRun_ok h (hok false nofun)),
      fun hint => congrArg Host.Outcome.next (slotRun_ok h (hok true fun _ => hint)), fun fwd => ?_⟩
    exact ⟨congrArg Core.passes (trigger_myCore ..), rfl, congrArg Core.streamEnd (trigger_myCore ..), trigger_me ..⟩
  case fields =>
    exact ⟨congrArg Host.Outcome.next (slotRun_trap h (mrunPlan_fields hh ha hf)),
      congrArg Host.Outcome.next (slotRun_trap h (mrunPlan_fields hh ha hf))⟩
  case tile =>
    exact ⟨congrArg Host.Outcome.next (slotRun_trap h (mrunPlan_tile hh ha hf ht)),
      congrArg Host.Outcome.next (slotRun_trap h (mrunPlan_tile hh ha hf ht))⟩
  case walk =>
    exact ⟨congrArg Host.Outcome.next (slotRun_trap h (mrunPlan_walk hh ha hf ht hw)),
      congrArg Host.Outcome.next (slotRun_trap h (mrunPlan_walk hh ha hf ht hw))⟩

-- Matrix state

section MatrixState

variable {σ : State} {ts : BitVec 7} {a b : Word}

/-- A plan that puts one result in flight. -/
theorem launch_run {p : Work → Plan} {lat : Nat} {e : Effect} (h : Takes σ)
    (hp : p (Work.begin σ) = .ok ((Work.begin σ).launchAt lat e)) : slotRun p σ = withMe σ (inFlight σ lat e (me σ)) :=
  (slotRun_ok h hp).trans (launch_only_commit ..)

theorem reads_ok (ha : Reads σ ts a) : readSel (Work.begin σ) ts.toNat = .ok a := ha

theorem boundOk_iff (n : Nat) : boundOk n = true ↔ bits n 7 3 = 0 ∧ n < 2 ^ 14 := by
  simp [boundOk]

theorem writableUnit_ok {u x : Nat} (hu : (me σ).unit u = some x) (hw : (myCore σ).writes x = false) :
    writableUnit (Work.begin σ) u = .ok x := by
  simp only [writableUnit, begin_me, declaredUnit_ok hu, bind_ok, begin_myCore, hw, Bool.not_false, check_true]

/-- The first unit of a mask that is not declared (R369). -/
theorem filter_range_cons {p : Nat → Bool} {r N : Nat} (hr : r < N) (hp : p r = true) (hlow : ∀ j, j < r → p j = false) :
    ∃ t, (List.range N).filter p = r :: t := by
  obtain ⟨m, rfl⟩ := Nat.exists_eq_add_of_lt hr
  refine ⟨((List.range m).map (r + 1 + ·)).filter p, ?_⟩
  rw [Nat.add_assoc, Nat.add_comm m 1, ← Nat.add_assoc, List.range_add, List.range_succ, List.append_assoc, List.filter_append,
    List.filter_eq_nil_iff.2 fun j hj => by simp [hlow j (List.mem_range.1 hj)]]
  simp [hp]

theorem writableUnits_undeclared {r : Nat} {t : List Nat} (hu : (me σ).unit r = none) :
    writableUnits (Work.begin σ) (r :: t) = .error (.trap 30 none) := by
  simp only [writableUnits, writableUnit, declaredUnit, begin_me, hu]
  rfl

end MatrixState

/-- Settles O32. -/
theorem matrixStateForms : Obligations.MatrixStateForms := by
  unfold Obligations.MatrixStateForms
  refine ⟨fun σ x h => ?mswap, fun σ u m h hu hm => ?mzero, fun σ h => congrArg Host.Outcome.next (slotRun_trap h rfl),
    fun σ u r h hr hbit hnone hlow => ?undeclared, fun σ ts a u h ha hres hlt hu => ?mbound, fun σ ts a h ha hbad => ?reserved,
    fun σ h => congrArg Host.Outcome.next (launch_run h rfl), fun σ ts a h ha => ?mclip,
    fun σ g h => congrArg Host.Outcome.next (launch_run h rfl)⟩
  case mswap =>
    have hx : x = 1 ↔ x.toNat = 1 := BitVec.toNat_eq
    split
    · exact congrArg Host.Outcome.next (slotRun_trap h (by simp [mswapPlan, hx.2 ‹_›]))
    · refine congrArg Host.Outcome.next (launch_run h ?_)
      simp only [mswapPlan, decide_eq_true (mt hx.1 ‹_›), check_true, bind_ok]
  case mzero =>
    have hu' : u ≠ 0 := fun hz => hu (by rw [hz]; rfl)
    refine congrArg Host.Outcome.next (launch_run h ?_)
    simp only [mzeroPlan, decide_eq_true hu', check_true, bind_ok, hm]
  case undeclared =>
    have hu' : u ≠ 0 := fun hz => by simp [hz, bit] at hbit
    obtain ⟨t, ht⟩ := filter_range_cons hr hbit hlow
    refine congrArg Host.Outcome.next (slotRun_trap h ?_)
    simp only [mzeroPlan, decide_eq_true hu', check_true, bind_ok, ht, writableUnits_undeclared hnone]
    rfl
  case mbound =>
    have hok := (boundOk_iff a.toNat).2 ⟨hres, hlt⟩
    refine ⟨congrArg Host.Outcome.next (launch_run h ?_), fun om os b hb hb32 hwr => congrArg Host.Outcome.next
      ((slotRun_ok h ?_).trans (launch_commit σ 6 1 b _))⟩
    · simp only [mboundPlan, reads_ok ha, bind_ok, hok, check_true, boundPlace, begin_me, declaredUnit_ok hu]
      rfl
    · simp only [mboundSetPlan, readAB_ok ha hb, bind_ok, hok, check_true, decide_eq_true hb32, boundPlace, writableUnit_ok hu hwr]
  case reserved =>
    have hbad' : boundOk a.toNat = false := Bool.eq_false_iff.2 fun hok => by
      obtain ⟨h0, hlt⟩ := (boundOk_iff _).1 hok
      omega
    refine congrArg Host.Outcome.next (slotRun_trap h ?_)
    simp only [mboundPlan, reads_ok ha, bind_ok, hbad', check_false]
    rfl
  case mclip =>
    split
    · refine congrArg Host.Outcome.next (slotRun_trap h ?_)
      simp only [mclipPlan, reads_ok ha, bind_ok, decide_eq_false (Nat.not_le.2 ‹_›), check_false]
      rfl
    · have hle : a.toNat ≤ 4 := Nat.not_lt.1 ‹_›
      refine congrArg Host.Outcome.next (launch_run h ?_)
      simp only [mclipPlan, reads_ok ha, bind_ok, decide_eq_true hle, check_true, clipPart, begin_myCore]
      by_cases h4 : a.toNat = 4
      · simp only [h4, Nat.lt_irrefl, if_false, if_true]
        rfl
      · rw [if_pos (by omega), if_neg h4]

end Sys2Proof.Proofs.MatrixUnit
end

section
/-! Operating points (R17): the core and the sequencer's bank name a context by one number. -/

namespace Sys2Proof.Proofs.OperatingPoints

open Sys2Proof Sys2Proof.Machine Sys2Proof.Safety Sys2Proof.Laws

/-- An island whose change of operating point ends now. The sequencer of core 0 is at a bank numbered 2, which is the number that
bank 0 of core 1 has among the contexts; that context is busy. -/
def bankBeyondCore : State :=
  { dev := { ctxs := [(2, { st := .ready })], cores := [(0, { cur := 2 })], islands := [(0, { until_ := some 0 })] } }

theorem endChange_bankBeyondCore : ((endChange 0 (Work.begin bankBeyondCore)).dev.ctx 0 2).frz = 2400 := rfl

theorem exec_operatingPointChangeDone (cl : Nat) (σ : State) :
    exec (.operatingPointChangeDone cl) σ = .next (endChange cl (Work.begin σ)).commit := rfl

/-- Refutes O41: where the banks of two cores' sequencers name one context, the end of a change counts its 1,200 cycles twice. -/
theorem not_powerAndSensors : ¬ Obligations.PowerAndSensors := by
  unfold Obligations.PowerAndSensors
  intro ⟨⟨_, _, _, _, hdone, _⟩, _⟩
  obtain ⟨t, ht, -, -, hfrz⟩ := hdone bankBeyondCore 0 0 rfl (Nat.le_refl 0)
  rw [exec_operatingPointChangeDone] at ht
  have h := hfrz 0 (by decide)
  rw [← Host.Outcome.next.inj ht] at h
  exact absurd (endChange_bankBeyondCore.symm.trans h) (by decide)

end Sys2Proof.Proofs.OperatingPoints
end

section
/-! The package's links (R23 to R30, R69, R166, R193). -/

namespace Sys2Proof.Proofs.PackageLinks

open Sys2Proof Sys2Proof.Machine Sys2Proof.Safety Sys2Proof.Laws

-- What an event leaves

theorem withDev_read (σ : State) (d : Dev) : SameBytes σ (withDev σ d) := commit_read_begin σ d

/-- Nothing but the device's record has changed. -/
def BytesKept (σ : State) (w : Work) : Prop := w.base = σ.mem ∧ w.log = []

theorem BytesKept.same {σ : State} {w : Work} (h : BytesKept σ w) : SameBytes σ w.commit := by
  intro a
  obtain ⟨hbase, hlog⟩ := h
  rw [commit_read, Work.byte, hbase, hlog]
  rfl

theorem mapDev_commit (σ : State) (f : Dev → Dev) : ((Work.begin σ).mapDev f).commit = withDev σ (f σ.dev) := rfl

-- Vertical buses and boundaries

theorem loseLane_eq (c : Column) (g until_ : Nat) (h : c.bus ≠ 3) :
    let c1 : Column := { c with lost := c.lost.set g (c.lost.get g 0 + 1) }
    c.loseLane g until_ =
      if c.lost.get g 0 = 0 then { c1 with bus := if c.bus = 0 then 1 else c.bus, retrain := some until_ }
      else if halfWhole c1 0 ∨ halfWhole c1 32 then { c1 with bus := 2, retrain := some until_ }
      else { c1 with bus := 3, retrain := none } := by
  simp only [Column.loseLane, if_neg h, tab_get_set_same, Nat.add_eq_right]

theorem endRetrain_due {σ : State} {col u : Nat} (hu : (σ.dev.column col).retrain = some u) (h : u ≤ σ.dev.now) :
    endRetrain col (Work.begin σ) = (Work.begin σ).updColumn col fun c => { c with retrain := none } := by
  simp only [endRetrain, show (Work.begin σ).dev = σ.dev from rfl, hu, if_neg (Nat.not_lt.2 h)]

theorem loseBundle_last {σ : State} {b : Nat} (h : σ.dev.bounds.get b 0 = 15) :
    loseBundle b (Work.begin σ) =
      let d : Dev := { σ.dev with bounds := σ.dev.bounds.set b 16 }
      let newly := (List.range 4).filter fun k => dieCut d k && !d.isolated.contains k
      newly.foldl Work.failOnDie
        (({ Work.begin σ with dev := { d with isolated := d.isolated ++ newly } } : Work).cutQueues).failSteals := by
  simp only [loseBundle, show (Work.begin σ).dev = σ.dev from rfl, h, ne_eq, not_true_eq_false, if_false]
  rfl

-- Peer ports

theorem takePortDown_kept {σ : State} {w : Work} (p : Nat) (h : BytesKept σ w) : BytesKept σ (takePortDown p w) := h

theorem takePortDown_ports (p : Nat) (w : Work) :
    (takePortDown p w).dev.ports = w.dev.ports.set p { w.dev.ports.get p {} with up := false } := rfl

/-- No translation through the port's link is left (R30). -/
theorem takePortDown_tlb (p : Nat) (w : Work) : ∀ c ∈ (takePortDown p w).dev.cores, ∀ e ∈ c.2.tlb,
    ¬ (regionOf e.frame = .peer ∧ w.dev.routes.get? (bits e.frame 49 38) = some p) := by
  intro c hc e he hremote
  obtain ⟨x, -, rfl⟩ := List.mem_map.1 hc
  obtain ⟨-, hkept⟩ := List.mem_filter.1 he
  simp [hremote.1, hremote.2] at hkept

theorem BytesKept.waitFor {σ : State} {w : Work} (h : BytesKept σ w) (b : Bool) (l : Nat) : BytesKept σ (w.waitFor b l) := by
  rw [Work.waitFor]
  split <;> exact h

theorem agentRead_kept {σ : State} (agent : Nat) (k pa n : Nat) {w : Work} (h : BytesKept σ w) :
    BytesKept σ (Work.agentRead agent k pa n w).2 := by
  induction k generalizing pa n w with
  | zero => exact h
  | succ k ih =>
    rw [Work.agentRead]
    split
    · exact h
    · exact ih _ _ (h.waitFor ..)

/-- A read within one line is one access of its home. -/
theorem agentRead_line (agent pa n : Nat) (w : Work) (hn : 0 < n) (hline : pa % 64 + n ≤ 64) :
    (Work.agentRead agent (n / 64 + 2) pa n w).1 = w.pread pa n := by
  have hm : min n (64 - pa % 64) = n := Nat.min_eq_left (by omega)
  simp only [Work.agentRead, if_neg (Nat.pos_iff_ne_zero.1 hn), hm, Nat.sub_self, if_true, Nat.mul_zero, Nat.add_zero]

section Peers

variable {σ : State} {p : Nat} {q : MemReq}

/-- A peer's request through a port that is up, to memory that it may reach (R69, R166, R193). -/
structure PeerMay (σ : State) (p : Nat) (q : MemReq) : Prop where
  up : (σ.dev.ports.get p {}).up = true
  reached : rangeFault σ.dev (portDie p) q.addr q.len false = 0
  shared : anyPrivate σ.dev q.addr q.len = false
  open_ : anySecure σ.dev q.addr q.len = false

theorem peerRequest_refused (h : (σ.dev.ports.get p {}).up = false ∨ rangeFault σ.dev (portDie p) q.addr q.len false ≠ 0 ∨
    anyPrivate σ.dev q.addr q.len = true ∨ anySecure σ.dev q.addr q.len = true) :
    peerRequest p q (Work.begin σ) = (Work.begin σ).reply .linkError := by
  rw [peerRequest]
  by_cases hup : (σ.dev.ports.get p {}).up = false
  · exact if_pos hup
  · exact (if_neg hup).trans (if_pos (h.resolve_left hup))

theorem peerRequest_may (h : PeerMay σ p q) : peerRequest p q (Work.begin σ) =
    if outsideWaits σ.dev q.addr q.len (decide (q.kind = 1)) then ((Work.begin σ).snoopLines q.addr q.len).askAgain 2 p q
    else (Work.begin σ).outsideAccess (portAgent p) q .linkError := by
  obtain ⟨hup, hreach, hpriv, hsec⟩ := h
  rw [peerRequest]
  refine (if_neg (by simp [hup])).trans (if_neg ?_)
  simp [hreach, hpriv, hsec]

end Peers

/-- Settles O42. -/
theorem links : Obligations.Links := by
  unfold Obligations.Links
  refine ⟨⟨?lane, ?retrain, ?bundle, ?boundary, ?replay, ?down, ?up⟩, ?peer⟩
  case lane =>
    intro σ col g hbus
    exact congrArg (fun c2 : Column => Host.Outcome.next (withDev σ { σ.dev with cols := σ.dev.cols.set col c2 }))
      (loseLane_eq (σ.dev.column col) g _ hbus)
  case retrain =>
    intro σ col u hu h
    exact congrArg (fun w : Work => Host.Outcome.next w.commit) (endRetrain_due hu h)
  case bundle =>
    intro σ b h
    exact congrArg (fun w : Work => Host.Outcome.next w.commit) (if_pos h)
  case boundary =>
    intro σ b h
    exact congrArg (fun w : Work => Host.Outcome.next w.commit) (loseBundle_last h)
  case replay =>
    intro σ p x recent y
    refine ⟨fun h => ?stays, fun hlen hup => ⟨_, congrArg (fun w : Work => Host.Outcome.next w.commit) (if_pos ⟨hlen, hup⟩),
      BytesKept.same ⟨rfl, rfl⟩, ?falls⟩⟩
    case stays =>
      have hno : ¬ (32 < recent.length ∧ x.up = true) := by
        rintro ⟨hlen, hup⟩
        rcases h with h | h
        · omega
        · simp [hup] at h
      exact congrArg (fun w : Work => Host.Outcome.next w.commit) (if_neg hno)
    case falls =>
      rw [commit_dev, takePortDown_ports, tab_get_set_same]
  case down =>
    intro σ p
    exact ⟨_, rfl, BytesKept.same ⟨rfl, rfl⟩, rfl, rfl, takePortDown_tlb p (Work.begin σ)⟩
  case up =>
    intro σ p h
    exact congrArg (fun w : Work => Host.Outcome.next w.commit) (if_neg (by rw [show (Work.begin σ).dev = σ.dev from rfl, h]; decide))
  case peer =>
    intro σ p q
    refine ⟨fun h => congrArg (fun w : Work => Host.Outcome.next w.commit) (peerRequest_refused h),
      fun hup hreach hpriv hsec hnow => ?serve, fun hup hreach hpriv hsec hwait => ?wait⟩
    case wait =>
      refine congrArg (fun w : Work => Host.Outcome.next w.commit) ((peerRequest_may ⟨hup, hreach, hpriv, hsec⟩).trans ?_)
      rw [if_pos hwait]
    case serve =>
      have hgo := (peerRequest_may ⟨hup, hreach, hpriv, hsec⟩).trans (if_neg (by rw [hnow]; decide))
      refine ⟨fun hkind hlen hline hclean => ⟨_, congrArg (fun w : Work => Host.Outcome.next w.commit) hgo, ?_, ?_⟩, fun hkind =>
        congrArg (fun w : Work => Host.Outcome.next w.commit) (hgo.trans ?_)⟩
      · rw [Work.outsideAccess, if_pos hkind]
        exact BytesKept.same (agentRead_kept _ _ _ _ ⟨rfl, rfl⟩)
      · rw [Work.outsideAccess, if_pos hkind, hclean, ← agentRead_line (portAgent p) _ _ _ hlen hline]
        rfl
      · rw [Work.outsideAccess, if_neg (by omega), if_pos hkind]

end Sys2Proof.Proofs.PackageLinks
end

section
/-! Reset, bring-up and the recovery commands (R37, R38, R80, R81). -/

namespace Sys2Proof.Proofs.ResetAndRecovery

open Sys2Proof Sys2Proof.Machine Sys2Proof.Safety Sys2Proof.Laws Sys2Proof.Proofs.Traps Sys2Proof.Proofs.PackageLinks

-- Bytes

theorem logFind_eq_none {l : List Host.Cell} {x : Nat} (h : ∀ c ∈ l, c.1 ≠ x) : logFind l x = none := by
  induction l with
  | nil => rfl
  | cons c t ih =>
    obtain ⟨hc, ht⟩ := List.forall_mem_cons.1 h
    exact (if_neg hc).trans (ih ht)

/-- The bytes at the keys of some cells that lie in a range are zeroed. -/
def zeroListed (k n : Nat) (l : List Host.Cell) (w : Work) : Work :=
  l.foldl (fun a c => if k ≤ c.1 ∧ c.1 < k + n then a.setByte c.1 0 else a) w

theorem zeroKeys_eq (w : Work) (k n : Nat) : w.zeroKeys k n = zeroListed k n w.base.cells (zeroListed k n w.log w) := rfl

theorem zeroListed_dev (k n : Nat) (l : List Host.Cell) (w : Work) : (zeroListed k n l w).dev = w.dev := by
  induction l generalizing w with
  | nil => rfl
  | cons c t ih =>
    refine (ih _).trans ?_
    dsimp only
    split <;> rfl

theorem zeroListed_outside {k n : Nat} (l : List Host.Cell) (w : Work) {x : Nat} (h : ¬ (k ≤ x ∧ x < k + n)) :
    (zeroListed k n l w).byte x = w.byte x := by
  induction l generalizing w with
  | nil => rfl
  | cons c t ih =>
    refine (ih _).trans ?_
    dsimp only
    split
    · rw [byte_setByte, if_neg (by rintro rfl; exact h ‹_›)]
    · rfl

theorem zeroListed_stays_zero {k n : Nat} (l : List Host.Cell) {w : Work} {x : Nat} (hw : w.byte x = 0) :
    (zeroListed k n l w).byte x = 0 := by
  induction l generalizing w with
  | nil => exact hw
  | cons c t ih =>
    refine ih ?_
    dsimp only
    split
    · rw [byte_setByte, hw, ite_self]
    · exact hw

theorem zeroListed_inside {k n : Nat} {l : List Host.Cell} {x : Nat} (hx : ∃ c ∈ l, c.1 = x) (w : Work)
    (h : k ≤ x ∧ x < k + n) : (zeroListed k n l w).byte x = 0 := by
  induction l generalizing w with
  | nil => simp at hx
  | cons c t ih =>
    by_cases hc : c.1 = x
    · subst hc
      refine zeroListed_stays_zero t (w := if k ≤ c.1 ∧ c.1 < k + n then w.setByte c.1 0 else w) ?_
      rw [if_pos h, byte_setByte, if_pos rfl]
    · obtain ⟨c', hmem, hkey⟩ := hx
      rcases List.mem_cons.1 hmem with rfl | hmem
      · exact absurd hkey hc
      · exact ih ⟨c', hmem, hkey⟩ _

@[simp] theorem zeroKeys_dev (w : Work) (k n : Nat) : (w.zeroKeys k n).dev = w.dev := by
  rw [zeroKeys_eq, zeroListed_dev, zeroListed_dev]

theorem byte_zeroKeys_outside (w : Work) {k n x : Nat} (h : ¬ (k ≤ x ∧ x < k + n)) : (w.zeroKeys k n).byte x = w.byte x := by
  rw [zeroKeys_eq, zeroListed_outside _ _ h, zeroListed_outside _ _ h]

/-- A byte of the range that no list holds reads zero before as after. -/
theorem byte_zeroKeys_inside (w : Work) {k n x : Nat} (h : k ≤ x ∧ x < k + n) : (w.zeroKeys k n).byte x = 0 := by
  rw [zeroKeys_eq]
  by_cases hcells : ∃ c ∈ w.base.cells, c.1 = x
  · exact zeroListed_inside hcells _ h
  · refine zeroListed_stays_zero _ ?_
    by_cases hlog : ∃ c ∈ w.log, c.1 = x
    · exact zeroListed_inside hlog _ h
    · refine zeroListed_stays_zero _ ?_
      have hnone : logFind w.log x = none := logFind_eq_none fun c hc hk => hlog ⟨c, hc, hk⟩
      have hbase : w.base.read x = 0 := by
        rw [Memory.read, ← logFind_cells, logFind_eq_none fun c hc hk => hcells ⟨c, hc, hk⟩]
        rfl
      rw [Work.byte, hnone, hbase]

theorem readN_lt (w : Work) (k n : Nat) : w.readN k n < 256 ^ n := by
  induction n generalizing k with
  | zero => exact Nat.one_pos
  | succ n ih =>
    have hb := (w.byte k).isLt
    have ht := ih (k + 1)
    rw [Work.readN, Nat.pow_succ]
    omega

/-- A byte of a number read. -/
theorem readN_digit (w : Work) {k n i : Nat} (h : i < n) : w.readN k n / 256 ^ i % 256 = (w.byte (k + i)).toNat := by
  induction n generalizing k i with
  | zero => omega
  | succ n ih =>
    have hb := (w.byte k).isLt
    cases i with
    | zero =>
      simp only [Work.readN, Nat.pow_zero, Nat.div_one, Nat.add_zero, Nat.add_mul_mod_self_left]
      exact Nat.mod_eq_of_lt hb
    | succ i =>
      have hdiv : ((w.byte k).toNat + 256 * w.readN (k + 1) n) / 256 = w.readN (k + 1) n := by omega
      rw [Work.readN, Nat.pow_succ, Nat.mul_comm (256 ^ i), ← Nat.div_div_eq_div_mul, hdiv, ih (by omega), Nat.add_assoc, Nat.add_comm 1]

/-- Bytes copied from one place to another. -/
theorem byte_copyN (w : Work) (a b : Nat) {n i : Nat} (h : i < n) :
    (w.writeN a n (w.readN b n)).byte (a + i) = w.byte (b + i) := by
  apply BitVec.eq_of_toNat_eq
  rw [← readN_digit _ h, ← readN_digit w h, readN_writeN, Nat.mod_eq_of_lt (readN_lt w b n)]

-- What outlasts a reset

/-- The flash, its minimum versions and what waits outside are as they were. -/
def FlashKept (w w' : Work) : Prop :=
  w'.dev.flash = w.dev.flash ∧ w'.dev.minVer = w.dev.minVer ∧ w'.dev.inputs = w.dev.inputs

theorem FlashKept.refl (w : Work) : FlashKept w w := ⟨rfl, rfl, rfl⟩

theorem FlashKept.trans {u v w : Work} (h : FlashKept u v) (h' : FlashKept v w) : FlashKept u w := by
  obtain ⟨hf, hm, hi⟩ := h
  obtain ⟨hf', hm', hi'⟩ := h'
  exact ⟨hf'.trans hf, hm'.trans hm, hi'.trans hi⟩

theorem FlashKept.of_dev {w w' : Work} (h : w'.dev = w.dev) : FlashKept w w' := by
  rw [FlashKept, h]
  exact ⟨rfl, rfl, rfl⟩

theorem FlashKept.foldl {α : Type} {f : Work → α → Work} (l : List α) (h : ∀ w x, FlashKept w (f w x)) (w : Work) :
    FlashKept w (l.foldl f w) := by
  induction l generalizing w with
  | nil => exact .refl w
  | cons x l ih => exact (h w x).trans (ih _)

theorem put_dev (w : Work) (k : Nat) (v : Byte) : (w.put k v).dev = w.dev := by
  rw [Work.put]
  split <;> rfl

theorem pwrite_dev (w : Work) (pa n v : Nat) : (w.pwrite pa n v).dev = w.dev := by
  induction n generalizing w pa v with
  | zero => rfl
  | succ n ih => exact (ih _ _ _).trans (put_dev ..)

theorem updCoh_flash (w : Work) (f : Coherence → Coherence) : FlashKept w (w.updCoh f) := ⟨rfl, rfl, rfl⟩

theorem writeN_flash (w : Work) (k n v : Nat) : FlashKept w (w.writeN k n v) := .of_dev (writeN_dev w k n v)

theorem pwrite_flash (w : Work) (pa n v : Nat) : FlashKept w (w.pwrite pa n v) := .of_dev (pwrite_dev w pa n v)

theorem writeBack_flash (w : Work) (l : Nat) : FlashKept w (w.writeBack l) := by
  rw [Work.writeBack]
  split
  · exact (writeN_flash ..).trans (updCoh_flash ..)
  · exact .refl w

theorem takeArray_flash (w : Work) (l : Nat) : FlashKept w (w.takeArray l) := by
  rw [Work.takeArray]
  split
  · exact ((pwrite_flash ..).trans (writeN_flash ..)).trans (updCoh_flash ..)
  · exact .refl w

theorem settleLine_flash (w : Work) (l : Nat) : FlashKept w (w.settleLine l) :=
  (writeBack_flash w l).trans (takeArray_flash ..)

theorem sweepLines_flash (w : Work) (pa n : Nat) : FlashKept w (w.sweepLines pa n) :=
  (FlashKept.foldl _ settleLine_flash w).trans (updCoh_flash ..)

theorem rekey_flash (w : Work) (g old new : Nat) : FlashKept w (w.rekey g old new) := sweepLines_flash w _ _

theorem zeroKeys_flash (w : Work) (k n : Nat) : FlashKept w (w.zeroKeys k n) := .of_dev (zeroKeys_dev w k n)

theorem cleanRange_flash (w : Work) (pa n : Nat) : FlashKept w (w.cleanRange pa n) := ⟨rfl, rfl, rfl⟩

theorem zeroGranule_flash (w : Work) (g : Nat) : FlashKept w (w.zeroGranule g) := by
  have hclean := ((sweepLines_flash w (g * 2 ^ 21) (2 ^ 21)).trans (zeroKeys_flash _ (Key.phys (g * 2 ^ 21)) (2 ^ 21))).trans
    (cleanRange_flash _ (g * 2 ^ 21) (2 ^ 21))
  unfold Work.zeroGranule
  extract_lets base w1 w2
  have hkeys : FlashKept w w2 := hclean.trans ⟨rfl, rfl, rfl⟩
  clear_value w2
  split
  · exact hkeys.trans ⟨rfl, rfl, rfl⟩
  · exact hkeys

theorem dropPartitions_flash (w : Work) : FlashKept w w.dropPartitions := by
  refine FlashKept.foldl _ (fun a p => FlashKept.foldl _ (fun b g => ?_) a) w
  split
  · exact (zeroGranule_flash b g).trans (rekey_flash ..)
  · exact rekey_flash ..

-- Bring-up

theorem usedCopy_congr {d d' : Dev} (hf : d'.flash = d.flash) (hm : d'.minVer = d.minVer) (k : Nat) (serial : Option Nat) :
    usedCopy d' k serial = usedCopy d k serial := by
  rw [usedCopy, usedCopy, hf, hm]

theorem recordInForce_congr {d d' : Dev} (hf : d'.flash = d.flash) (hm : d'.minVer = d.minVer) (k : Nat) :
    recordInForce d' k = recordInForce d k := by
  simp only [recordInForce, usedCopy_congr hf hm]

/-- What every outcome of bring-up leaves (R38). -/
structure Emptied (d0 d : Dev) : Prop where
  flash : d.flash = d0.flash
  inputs : d.inputs = d0.inputs
  ctxs : d.ctxs = []
  cores : d.cores = []
  launches : d.launches = []
  parts : d.parts = []
  streams : d.streams = []
  coh : d.coh = {}
  ring : ∀ e ∈ d.errRing, e.cause = 44 ∧ e.part = 16

/-- Bring-up enters nothing in the error ring but bad copies of remap tables (R181). -/
theorem noteCopies_ring {d : Dev} (h : d.errRing = []) : ∀ e ∈ d.noteCopies.errRing, e.cause = 44 ∧ e.part = 16 := by
  intro e he
  simp only [Dev.noteCopies, h, List.append_nil] at he
  have hmem := List.mem_of_mem_take he
  rw [List.mem_reverse, List.mem_map] at hmem
  obtain ⟨k, -, rfl⟩ := hmem
  exact ⟨rfl, rfl⟩

theorem noteCopies_emptied {d0 d : Dev} (h : Emptied d0 d) (hring : d.errRing = []) : Emptied d0 d.noteCopies :=
  ⟨h.flash, h.inputs, h.ctxs, h.cores, h.launches, h.parts, h.streams, h.coh, noteCopies_ring hring⟩

theorem bringUp_emptied (d0 : Dev) : Emptied d0 d0.bringUp := by
  have hkeep : Emptied d0 d0.keep := ⟨rfl, rfl, rfl, rfl, rfl, rfl, rfl, rfl, fun _ he => absurd he List.not_mem_nil⟩
  have hnote := noteCopies_emptied hkeep rfl
  unfold Dev.bringUp
  extract_lets d held n
  replace hnote : Emptied d0 n := hnote
  clear_value n
  obtain ⟨hflash, hinputs, hctxs, hcores, hlaunches, hparts, hstreams, hcoh, hring⟩ := hnote
  split
  · split
    · exact ⟨rfl, rfl, rfl, rfl, rfl, rfl, rfl, rfl, fun _ he => absurd he List.not_mem_nil⟩
    · extract_lets d1
      split
      · exact ⟨hflash, hinputs, hctxs, hcores, hlaunches, hparts, hstreams, hcoh, hring⟩
      · exact ⟨hflash, hinputs, hctxs, hcores, hlaunches, hparts, hstreams, hcoh, hring⟩
  · exact ⟨rfl, rfl, rfl, rfl, rfl, rfl, rfl, rfl, fun _ he => absurd he List.not_mem_nil⟩

/-- The records of kinds 1 to 3 are in force. -/
def RecordsOk (d : Dev) : Prop :=
  (recordInForce d 1).isSome = true ∧ (recordInForce d 2).isSome = true ∧ (recordInForce d 3).isSome = true

theorem bringUp_noRecords {d0 : Dev} (h : ¬ RecordsOk d0) : d0.bringUp = d0.keep.stopAt 1 := by
  unfold Dev.bringUp
  extract_lets d
  split
  next one two three h1 h2 h3 =>
    have hsome : ∀ {k x}, recordInForce d k = some x → (recordInForce d0 k).isSome = true := fun hk =>
      Option.isSome_iff_exists.2 ⟨_, hk⟩
    exact absurd ⟨hsome h1, hsome h2, hsome h3⟩ h
  next => rfl

theorem bringUp_noImage {d0 : Dev} (h : RecordsOk d0) (himage : (usedCopy d0 0 none).isSome = false) :
    d0.bringUp = d0.keep.stopAt 2 := by
  obtain ⟨h1, h2, h3⟩ := h
  obtain ⟨one, h1⟩ := Option.isSome_iff_exists.1 h1
  obtain ⟨two, h2⟩ := Option.isSome_iff_exists.1 h2
  obtain ⟨three, h3⟩ := Option.isSome_iff_exists.1 h3
  have hnone : usedCopy d0.keep 0 none = none := Option.isSome_eq_false_iff.1 himage |> Option.isNone_iff_eq_none.1
  unfold Dev.bringUp
  extract_lets d
  rw [show recordInForce d 1 = some one from h1, show recordInForce d 2 = some two from h2,
    show recordInForce d 3 = some three from h3, hnone]

/-- Steps 3 to 255 of bring-up, with the record of kind 2 in force. -/
theorem bringUp_image {d0 : Dev} {two : FlashCopy} (h : RecordsOk d0) (himage : (usedCopy d0 0 none).isSome = true)
    (htwo : recordInForce d0 2 = some two) :
    (enablementOk two = true → d0.bringUp.mode = .running ∧ d0.bringUp.step = 255 ∧ d0.bringUp.failed = 0 ∧
      d0.bringUp.envelope = if (recordInForce d0 4).isNone then 900 else 1500) ∧
    (enablementOk two = false → d0.bringUp.mode = .recovery ∧ d0.bringUp.failed = 6) := by
  obtain ⟨h1, -, h3⟩ := h
  obtain ⟨one, h1⟩ := Option.isSome_iff_exists.1 h1
  obtain ⟨three, h3⟩ := Option.isSome_iff_exists.1 h3
  obtain ⟨image, himage⟩ := Option.isSome_iff_exists.1 himage
  unfold Dev.bringUp
  extract_lets d
  rw [show recordInForce d 1 = some one from h1, show recordInForce d 2 = some two from htwo,
    show recordInForce d 3 = some three from h3, show usedCopy d 0 none = some image from himage]
  dsimp only
  refine ⟨fun hfit => ?_, fun hfit => ?_⟩
  · rw [if_pos hfit]
    exact ⟨rfl, rfl, rfl, rfl⟩
  · rw [hfit]
    exact ⟨rfl, rfl⟩

-- The recovery buffer and window

/-- A key lies in the staging buffer. -/
def InBuffer (k : Nat) : Prop := Key.recBuf 0 ≤ k ∧ k < Key.recBuf 0 + 0x100000

/-- A key lies in the recovery window. -/
def InWindow (k : Nat) : Prop := Key.recWin 0 ≤ k ∧ k < Key.recWin 0 + 0x10000

theorem byte_resetDevice_inside (w : Work) {k : Nat} (h : InBuffer k ∨ InWindow k) : (resetDevice w).byte k = 0 := by
  change ((w.dropPartitions.zeroKeys (Key.recBuf 0) 0x100000).zeroKeys (Key.recWin 0) 0x10000).byte k = 0
  by_cases hwin : InWindow k
  · exact byte_zeroKeys_inside _ hwin
  · rw [byte_zeroKeys_outside _ hwin]
    exact byte_zeroKeys_inside _ (h.resolve_right hwin)

theorem byte_resetDevice_outside {w : Work} (hparts : w.dev.parts = []) {k : Nat} (hbuf : ¬ InBuffer k)
    (hwin : ¬ InWindow k) : (resetDevice w).byte k = w.byte k := by
  have hdrop : w.dropPartitions = w := by rw [Work.dropPartitions, hparts, List.foldl_nil]
  change ((w.dropPartitions.zeroKeys (Key.recBuf 0) 0x100000).zeroKeys (Key.recWin 0) 0x10000).byte k = w.byte k
  rw [byte_zeroKeys_outside _ hwin, byte_zeroKeys_outside _ hbuf, hdrop]

theorem resetDevice_dev (w : Work) : (resetDevice w).dev = w.dropPartitions.dev.bringUp := by
  change Dev.bringUp ((w.dropPartitions.zeroKeys (Key.recBuf 0) 0x100000).zeroKeys (Key.recWin 0) 0x10000).dev = _
  rw [zeroKeys_dev, zeroKeys_dev]

theorem key_recBuf_add (a i : Nat) : Key.recBuf (a + i) = Key.recBuf a + i := by
  unfold Key.recBuf
  generalize 0x80000000000000 = base
  exact (Nat.add_assoc base a i).symm

theorem key_recWin_add (a i : Nat) : Key.recWin (a + i) = Key.recWin a + i := by
  unfold Key.recWin
  generalize 0x80000100000000 = base
  exact (Nat.add_assoc base a i).symm

theorem inBuffer_recBuf {k : Nat} (h : k < 0x100000) : InBuffer (Key.recBuf k) := by
  have hk := key_recBuf_add 0 k
  rw [Nat.zero_add] at hk
  exact ⟨by omega, by omega⟩

-- The recovery commands

section Commands

variable {σ : State}

theorem exec_deviceReset (σ : State) : exec .deviceReset σ = .next (resetDevice (Work.begin σ)).commit := rfl

theorem command_busy (h : σ.dev.recovery.st = 1) (f : Work → Work) : (Work.begin σ).command f = Work.begin σ := if_pos h

theorem command_free (h : σ.dev.recovery.st ≠ 1) (f : Work → Work) : (Work.begin σ).command f = f (Work.begin σ) := if_neg h

theorem appendWindow_fits (h : σ.dev.recovery.off + σ.dev.recovery.len ≤ 0x100000) :
    (appendWindow (Work.begin σ)).dev = { σ.dev with recovery := { σ.dev.recovery with
      slen := max σ.dev.recovery.slen (σ.dev.recovery.off + σ.dev.recovery.len), st := 2, why := 0, storing := none } } ∧
    ∀ k, (appendWindow (Work.begin σ)).byte k = ((Work.begin σ).writeN (Key.recBuf σ.dev.recovery.off)
      (min σ.dev.recovery.len 65536) ((Work.begin σ).readN (Key.recWin 0) (min σ.dev.recovery.len 65536))).byte k := by
  have heq : appendWindow (Work.begin σ) = (((Work.begin σ).writeN (Key.recBuf σ.dev.recovery.off)
      (min σ.dev.recovery.len 65536) ((Work.begin σ).readN (Key.recWin 0) (min σ.dev.recovery.len 65536))).updRecovery fun x =>
        { x with slen := max x.slen (σ.dev.recovery.off + σ.dev.recovery.len) }).endCommand 0 := if_neg (Nat.not_lt.2 h)
  have hdev := writeN_dev (Work.begin σ) (Key.recBuf σ.dev.recovery.off) (min σ.dev.recovery.len 65536)
    ((Work.begin σ).readN (Key.recWin 0) (min σ.dev.recovery.len 65536))
  rw [heq]
  generalize (Work.begin σ).writeN (Key.recBuf σ.dev.recovery.off) (min σ.dev.recovery.len 65536)
    ((Work.begin σ).readN (Key.recWin 0) (min σ.dev.recovery.len 65536)) = w at hdev ⊢
  exact ⟨congrArg (fun d : Dev => { d with recovery := { d.recovery with
    slen := max d.recovery.slen (σ.dev.recovery.off + σ.dev.recovery.len), st := 2, why := 0, storing := none } }) hdev,
    fun _ => rfl⟩

theorem emptyStaging_dev (w : Work) :
    w.emptyStaging.dev = { w.dev with recovery := { w.dev.recovery with slen := 0 } } := by
  have hdev := zeroKeys_dev w (Key.recBuf 0) 0x100000
  unfold Work.emptyStaging
  generalize w.zeroKeys (Key.recBuf 0) 0x100000 = v at hdev ⊢
  exact congrArg (fun d : Dev => { d with recovery := { d.recovery with slen := 0 } }) hdev

theorem endCommand_dev (w : Work) (why : Nat) : (w.endCommand why).dev = { w.dev with
    recovery := { w.dev.recovery with st := if why = 0 then 2 else 3, why := why, storing := none } } := rfl

theorem emptied_dev (w : Work) (why : Nat) : (w.emptyStaging.endCommand why).dev = { w.dev with
    recovery := { w.dev.recovery with slen := 0, st := if why = 0 then 2 else 3, why := why, storing := none } } := by
  rw [endCommand_dev, emptyStaging_dev]

theorem byte_emptyStaging (w : Work) {k : Nat} (h : InBuffer k) : w.emptyStaging.byte k = 0 :=
  byte_zeroKeys_inside w h

/-- The end of a store of a firmware image: refused, or failed by the flash, or done (R81). -/
theorem endStore_image {obj : Nat} (h : σ.dev.recovery.storing = some (2, obj)) : ∃ why w,
    endStore (Work.begin σ) = w.emptyStaging.endCommand why ∧
    ((imageRefused σ.dev obj ≠ 0 ∧ why = imageRefused σ.dev obj ∧ w = (Work.begin σ).free.2) ∨
      (imageRefused σ.dev obj = 0 ∧ why = 4 ∧ w = (Work.begin σ).free.2) ∨
      (imageRefused σ.dev obj = 0 ∧ why = 0 ∧ w = (Work.begin σ).free.2.putFlash 0 (Config.imageVersion obj) 0 obj
        (sha384 obj σ.dev.recovery.slen))) := by
  have h' : (Work.begin σ).dev.recovery.storing = some (2, obj) := h
  unfold endStore
  rw [h']
  dsimp -zeta only
  extract_lets len f why0 why w1 w2
  refine ⟨why, w2, rfl, ?_⟩
  by_cases hok : imageRefused σ.dev obj = 0
  · have hwhy0 : why0 = 0 := hok
    by_cases hfail : f.1 % 2 = 1
    · have hwhy : why = 4 := if_pos ⟨hwhy0, hfail⟩
      exact .inr (.inl ⟨hok, hwhy, if_pos (by rw [hwhy]; decide)⟩)
    · have hwhy : why = 0 := (if_neg fun hc => hfail hc.2).trans hwhy0
      exact .inr (.inr ⟨hok, hwhy, (if_neg (not_not_intro hwhy)).trans (if_pos rfl)⟩)
  · have hwhy : why = imageRefused σ.dev obj := if_neg fun hc => hok hc.1
    exact .inl ⟨hok, hwhy, if_pos (by rw [hwhy]; exact hok)⟩

end Commands

/-- Settles O43: a reset drops the partitions, empties the recovery's two buffers and takes the steps of Table 1.8, which read
nothing of the part but its flash. -/
theorem resetAndRecovery : Obligations.ResetAndRecovery := by
  unfold Obligations.ResetAndRecovery
  refine ⟨fun σ => ⟨(resetDevice (Work.begin σ)).commit, rfl, ?reset⟩, fun σ hst i hi => ?busy, fun σ hst => ?commands,
    fun σ obj hstore => ?stored⟩
  case reset =>
    obtain ⟨hflash, hmin, hinputs⟩ := dropPartitions_flash (Work.begin σ)
    have hrec := recordInForce_congr (d := σ.dev) hflash hmin
    have himage := usedCopy_congr (d := σ.dev) hflash hmin 0 none
    have hrecords : RecordsOk (Work.begin σ).dropPartitions.dev ↔ RecordsOk σ.dev := by simp only [RecordsOk, hrec]
    obtain ⟨eflash, einputs, ectxs, ecores, elaunches, eparts, estreams, ecoh, ering⟩ :=
      bringUp_emptied (Work.begin σ).dropPartitions.dev
    simp only [commit_read, commit_dev, resetDevice_dev]
    refine ⟨fun hmode => ?_, fun k hk => byte_resetDevice_inside _ hk,
      fun hparts k hbuf hwin => byte_resetDevice_outside hparts hbuf hwin, eflash.trans hflash, einputs.trans hinputs, ectxs,
      ecores, elaunches, eparts, estreams, ecoh, ering, ?_, fun hno => ?_, fun ⟨h1, h2, h3, hnone⟩ => ?_, ?_⟩
    · rw [step, hmode]
    · rintro ⟨h1, h2, h3, hsome, hfits⟩
      obtain ⟨two, htwo⟩ := Option.isSome_iff_exists.1 h2
      obtain ⟨hrun, -⟩ := bringUp_image (hrecords.2 ⟨h1, h2, h3⟩) (himage ▸ hsome) ((hrec 2).trans htwo)
      rw [hrec] at hrun
      exact hrun (hfits two htwo)
    · rw [bringUp_noRecords (mt hrecords.1 hno)]
      exact ⟨rfl, rfl⟩
    · rw [bringUp_noImage (hrecords.2 ⟨h1, h2, h3⟩) (himage ▸ hnone)]
      exact ⟨rfl, rfl⟩
    · rintro ⟨h1, h2, h3, hsome, hfits⟩
      obtain ⟨two, htwo⟩ := Option.isSome_iff_exists.1 h2
      obtain ⟨-, hstop⟩ := bringUp_image (hrecords.2 ⟨h1, h2, h3⟩) (himage ▸ hsome) ((hrec 2).trans htwo)
      refine hstop (Bool.eq_false_iff.2 fun hfit => hfits fun x hx => ?_)
      rwa [← Option.some.inj (htwo.symm.trans hx)]
  case busy =>
    simp only [List.mem_cons, List.not_mem_nil, or_false] at hi
    rcases hi with rfl | rfl | rfl | rfl | rfl <;>
      exact congrArg (fun w : Work => Host.Outcome.next w.commit) (command_busy hst _)
  case commands =>
    intro r ended
    refine ⟨?stores, congrArg (fun w : Work => Host.Outcome.next w.commit) (command_free hst _), fun hbig => ?tooLong,
      fun hfits => ⟨_, congrArg (fun w : Work => Host.Outcome.next w.commit) (command_free hst _), ?appended⟩,
      ⟨_, congrArg (fun w : Work => Host.Outcome.next w.commit) (command_free hst _), ?emptied⟩⟩
    case stores =>
      simp only [List.forall_mem_cons, List.not_mem_nil, false_imp_iff, implies_true, and_true]
      have hnone (kind : Nat) (h : r.slen = 0) : beginStore kind (Work.begin σ) = (Work.begin σ).endCommand 3 := if_pos h
      have hsome (kind : Nat) (h : r.slen ≠ 0) : beginStore kind (Work.begin σ) = (Work.begin σ).updRecovery fun x =>
        { x with st := 1, why := 0, storing := some (kind, (Work.begin σ).readN (Key.recBuf 0) r.slen) } := if_neg h
      exact ⟨⟨fun h => congrArg (fun w : Work => Host.Outcome.next w.commit) ((command_free hst _).trans (hnone 2 h)),
          fun h => congrArg (fun w : Work => Host.Outcome.next w.commit) ((command_free hst _).trans (hsome 2 h))⟩,
        fun h => congrArg (fun w : Work => Host.Outcome.next w.commit) ((command_free hst _).trans (hnone 3 h)),
        fun h => congrArg (fun w : Work => Host.Outcome.next w.commit) ((command_free hst _).trans (hsome 3 h))⟩
    case tooLong =>
      exact congrArg (fun w : Work => Host.Outcome.next w.commit) ((command_free hst _).trans (if_pos hbig))
    case appended =>
      obtain ⟨hdev, hbytes⟩ := appendWindow_fits hfits
      refine ⟨hdev, fun k hk => ?_, fun k hk => ?_⟩
      · have hwin := key_recWin_add 0 k
        rw [Nat.zero_add] at hwin
        rw [commit_read, hbytes, key_recBuf_add, hwin]
        exact byte_copyN _ _ _ hk
      · rw [key_recBuf_add] at hk
        rw [commit_read, hbytes]
        exact byte_writeN _ _ _ _ _ hk
    case emptied =>
      refine ⟨emptied_dev .., fun k hk => ?_⟩
      rw [commit_read]
      exact byte_emptyStaging _ (inBuffer_recBuf hk)
  case stored =>
    obtain ⟨why, w, hend, hcases⟩ := endStore_image hstore
    refine ⟨_, congrArg (fun w : Work => Host.Outcome.next w.commit) hend, ?_⟩
    rw [commit_dev, emptied_dev]
    rcases hcases with ⟨hbad, rfl, rfl⟩ | ⟨hok, rfl, rfl⟩ | ⟨hok, rfl, rfl⟩
    · exact ⟨rfl, rfl, fun _ => ⟨if_neg hbad, rfl, rfl⟩, fun h => absurd h hbad⟩
    · exact ⟨rfl, rfl, fun h => absurd hok h, fun _ => .inr ⟨rfl, rfl, rfl⟩⟩
    · exact ⟨rfl, rfl, fun h => absurd hok h, fun _ => .inl ⟨rfl, rfl, rfl⟩⟩

end Sys2Proof.Proofs.ResetAndRecovery
end

section
/-! The memory system's events: the floor of logical times, the swap engine, rows and layers (R163, R169, R178 to R182,
R191). -/

namespace Sys2Proof.Proofs.MemoryEvents

open Sys2Proof Sys2Proof.Machine Sys2Proof.Safety Sys2Proof.Laws Sys2Proof.Proofs.Traps Sys2Proof.Proofs.PackageLinks
open Sys2Proof.Proofs.ResetAndRecovery

-- What an operation leaves as it was

/-- A part of the device's record is as it was. -/
def Keeps {α : Type} (p : Dev → α) (w w' : Work) : Prop := p w'.dev = p w.dev

section Keeping

variable {α β : Type} {p : Dev → α} {u v w : Work}

theorem Keeps.refl (w : Work) : Keeps p w w := Eq.refl (p w.dev)

theorem Keeps.trans (h : Keeps p u v) (h' : Keeps p v w) : Keeps p u w := Eq.trans h' h

theorem Keeps.of_dev (h : w.dev = v.dev) : Keeps p v w := congrArg p h

theorem Keeps.foldl {f : Work → β → Work} (l : List β) (h : ∀ w x, Keeps p w (f w x)) (w : Work) :
    Keeps p w (l.foldl f w) := by
  induction l generalizing w with
  | nil => exact .refl w
  | cons x l ih => exact (h w x).trans (ih _)

end Keeping

/-- The contexts and the exchanges under way. -/
def ctxsSwaps (d : Dev) : Tab Ctx × List Swap := (d.ctxs, d.coh.swaps)

/-- The exchanges under way. -/
def swapsOf (d : Dev) : List Swap := d.coh.swaps

theorem Keeps.swaps {w w' : Work} (h : Keeps ctxsSwaps w w') : Keeps swapsOf w w' := congrArg Prod.snd h

theorem Keeps.ctxs {w w' : Work} (h : Keeps ctxsSwaps w w') : w'.dev.ctxs = w.dev.ctxs := congrArg Prod.fst h

section CtxsSwaps

variable (w : Work) (l pa n v : Nat)

theorem updCoh_keeps {f : Coherence → Coherence} (h : ∀ c, (f c).swaps = c.swaps) : Keeps ctxsSwaps w (w.updCoh f) :=
  congrArg (Prod.mk w.dev.ctxs) (h w.dev.coh)

theorem writeBack_keeps : Keeps ctxsSwaps w (w.writeBack l) := by
  rw [Work.writeBack]
  split
  · exact (Keeps.of_dev (writeN_dev w _ _ _)).trans (updCoh_keeps _ fun _ => rfl)
  · exact .refl w

theorem takeArray_keeps : Keeps ctxsSwaps w (w.takeArray l) := by
  rw [Work.takeArray]
  split
  · exact ((Keeps.of_dev (pwrite_dev ..)).trans (Keeps.of_dev (writeN_dev ..))).trans (updCoh_keeps _ fun _ => rfl)
  · exact .refl w

theorem settleLine_keeps : Keeps ctxsSwaps w (w.settleLine l) := (writeBack_keeps w l).trans (takeArray_keeps ..)

theorem sweepLines_keeps : Keeps ctxsSwaps w (w.sweepLines pa n) :=
  (Keeps.foldl _ settleLine_keeps w).trans (updCoh_keeps _ fun _ => rfl)

theorem waitFor_keeps (b : Bool) : Keeps ctxsSwaps w (w.waitFor b l) := by
  rw [Work.waitFor]
  split
  · exact updCoh_keeps _ fun _ => rfl
  · exact .refl w

theorem cleanSectors_keeps : Keeps ctxsSwaps w (w.cleanSectors pa n) := rfl

theorem joinTimes_keeps (l2 : Nat) : Keeps ctxsSwaps w (w.joinTimes l l2) := updCoh_keeps _ fun _ => rfl

theorem swapMarks_keeps (s1 s2 : Nat) : Keeps ctxsSwaps w (w.swapMarks s1 s2) := by
  unfold Work.swapMarks
  extract_lets a b put
  have hput (x : Work) (s m : Nat) : Keeps ctxsSwaps x (put x s m) := by
    refine (cleanSectors_keeps x (32 * s) 32).trans ?_
    change Keeps ctxsSwaps (x.cleanSectors (32 * s) 32) (if m = 0 then _ else _)
    split
    · exact .refl _
    · exact updCoh_keeps _ fun _ => rfl
  split
  · exact .refl w
  · exact (hput w s1 b).trans (hput _ s2 a)

theorem awaitHolders_keeps (x : Swap) : Keeps ctxsSwaps w (w.awaitHolders x) :=
  Keeps.foldl _ (fun a (g : GuestLine) => waitFor_keeps a g.line true) w

theorem makeDirty_keeps : Keeps ctxsSwaps w (w.makeDirty l) := by
  rw [Work.makeDirty]
  split
  · exact .refl w
  · refine Keeps.trans ?_ (updCoh_keeps _ fun _ => rfl)
    split
    · exact .refl w
    · exact .of_dev (writeN_dev ..)

/-- A write wakes contexts, but leaves the exchanges. -/
theorem cohWrite_swaps (t : Nat) : Keeps swapsOf w (w.cohWrite t pa n v).2 := by
  unfold Work.cohWrite
  extract_lets l h t' w1 w2
  have hw1 : Keeps ctxsSwaps w w1 := ((waitFor_keeps ..).trans (makeDirty_keeps ..)).trans (.of_dev (pwrite_dev ..))
  have hw2 : Keeps ctxsSwaps w w2 := hw1.trans (updCoh_keeps _ fun _ => rfl)
  dsimp only
  split
  · exact (hw2.trans (cleanSectors_keeps ..)).swaps
  · exact hw2.swaps

theorem rewrite_swaps (a old new : Nat) : Keeps swapsOf w (w.rewrite a old new) := by
  rw [Work.rewrite]
  split
  · exact .refl w
  · exact cohWrite_swaps ..

theorem retargetTable_swaps (x : Swap) (k table : Nat) : Keeps swapsOf w (Work.retargetTable x k table w) := by
  induction k generalizing w table with
  | zero =>
    refine Keeps.foldl _ (fun a i => ?_) w
    dsimp only
    split
    · exact rewrite_swaps ..
    · exact .refl a
  | succ k ih =>
    refine Keeps.foldl _ (fun a i => ?_) w
    dsimp only
    split
    · exact .refl a
    · split
      · split
        · exact rewrite_swaps ..
        · exact .refl a
      · exact (ih ..).trans (rewrite_swaps ..)

theorem retargetHandles_swaps (x : Swap) (htab : Nat) : Keeps swapsOf w (Work.retargetHandles x htab n w) := by
  refine Keeps.foldl _ (fun a i => ?_) w
  dsimp only
  split
  · exact rewrite_swaps ..
  · exact .refl a

theorem retargetAll_swaps (x : Swap) : Keeps swapsOf w (w.retargetAll x) := by
  refine Keeps.foldl _ (fun a p => ?_) w
  dsimp only
  split
  · exact .refl a
  · refine Keeps.trans (Keeps.trans ?_ (retargetHandles_swaps ..)) rfl
    split
    · exact .refl a
    · exact retargetTable_swaps ..

end CtxsSwaps

-- Layers

/-- The layers that one partition's granules need, over what others need. -/
def layersFor (col : Nat) (m : Nat) (rs : List (Nat × Nat)) : Nat :=
  rs.foldl (fun k r =>
    let top := min (r.1 + r.2) (256 * col + 256)
    if 256 * col < top ∧ r.1 < top then max k ((top - 1 - 256 * col) / 32 + 1) else k) m

theorem layersFor_cons (col m : Nat) (r : Nat × Nat) (rs : List (Nat × Nat)) : layersFor col m (r :: rs) =
    layersFor col (if 256 * col < min (r.1 + r.2) (256 * col + 256) ∧ r.1 < min (r.1 + r.2) (256 * col + 256)
      then max m ((min (r.1 + r.2) (256 * col + 256) - 1 - 256 * col) / 32 + 1) else m) rs := rfl

theorem layersFor_bounds (col : Nat) (rs : List (Nat × Nat)) {m : Nat} (h : m ≤ 8) :
    m ≤ layersFor col m rs ∧ layersFor col m rs ≤ 8 := by
  induction rs generalizing m with
  | nil => exact ⟨Nat.le_refl m, h⟩
  | cons r rs ih =>
    rw [layersFor_cons]
    split
    · have := ih (m := max m ((min (r.1 + r.2) (256 * col + 256) - 1 - 256 * col) / 32 + 1)) (by omega)
      omega
    · exact ih h

theorem layersFor_covers {col : Nat} {rs : List (Nat × Nat)} {m : Nat} (h : m ≤ 8) {r : Nat × Nat} (hr : r ∈ rs) {g : Nat}
    (hlo : r.1 ≤ g) (hhi : g < r.1 + r.2) (hcol : g / 256 = col) : g % 256 / 32 < layersFor col m rs := by
  induction rs generalizing m with
  | nil => cases hr
  | cons s rs ih =>
    rw [layersFor_cons]
    rcases List.mem_cons.1 hr with rfl | hr
    · rw [if_pos (by omega)]
      have := layersFor_bounds col rs (m := max m ((min (r.1 + r.2) (256 * col + 256) - 1 - 256 * col) / 32 + 1)) (by omega)
      omega
    · split
      · exact ih (by omega) hr
      · exact ih h hr

/-- The layers that some partitions' granules need. -/
def layersOf (col : Nat) (m : Nat) (ps : Tab Part) : Nat := ps.foldl (fun m p => layersFor col m p.2.granules) m

theorem neededLayers_eq (d : Dev) (col : Nat) : neededLayers d col = layersOf col 1 d.parts := rfl

theorem layersOf_bounds (col : Nat) (ps : Tab Part) {m : Nat} (h : m ≤ 8) : m ≤ layersOf col m ps ∧ layersOf col m ps ≤ 8 := by
  induction ps generalizing m with
  | nil => exact ⟨Nat.le_refl m, h⟩
  | cons p ps ih =>
    obtain ⟨hlo, hhi⟩ := layersFor_bounds col p.2.granules h
    obtain ⟨hlo', hhi'⟩ := ih hhi
    exact ⟨Nat.le_trans hlo hlo', hhi'⟩

theorem layersOf_covers {col : Nat} {ps : Tab Part} {m : Nat} (h : m ≤ 8) {p : Nat × Part} (hp : p ∈ ps) {r : Nat × Nat}
    (hr : r ∈ p.2.granules) {g : Nat} (hlo : r.1 ≤ g) (hhi : g < r.1 + r.2) (hcol : g / 256 = col) :
    g % 256 / 32 < layersOf col m ps := by
  induction ps generalizing m with
  | nil => cases hp
  | cons q ps ih =>
    obtain ⟨-, hhi8⟩ := layersFor_bounds col q.2.granules h
    rcases List.mem_cons.1 hp with rfl | hp
    · exact Nat.lt_of_lt_of_le (layersFor_covers h hr hlo hhi hcol) (layersOf_bounds col ps hhi8).1
    · exact ih hhi8 hp

-- Rows

/-- The outcomes of a row's remapping: the table mended, or the column failed and noted (R180, R181). -/
theorem remapRow_outcomes (col row : Nat) (σ : State) :
    let w := remapRow col row (Work.begin σ)
    let c := σ.dev.column col
    BytesKept σ w ∧ w.dev.ctxs = σ.dev.ctxs ∧ ∃ c', w.dev.cols = σ.dev.cols.set col c' ∧
      (c' = { c with rbad := 0, remapped := row :: c.remapped.filter fun x => decide (x ≠ row) } ∨
        c' = { c with rbad := 3, rfail := true } ∧
          w.dev.errRing.head? = some { cause := 44, part := 16, agent := col, time := σ.dev.now, value := row }) := by
  intro w c
  by_cases hall : (Work.begin σ).free.1 % 4 = 3
  · have hw : w = ((Work.begin σ).free.2.logError 44 16 col row).updColumn col fun c => { c with rbad := 3, rfail := true } := by
      refine (if_pos hall).trans ?_
      rw [if_neg (by omega)]
    rw [hw]
    exact ⟨⟨rfl, rfl⟩, rfl, _, rfl, .inr ⟨rfl, rfl⟩⟩
  · have hw : w = (if (Work.begin σ).free.1 % 4 = 0 then (Work.begin σ).free.2 else
        (Work.begin σ).free.2.logError 44 16 col row).updColumn col fun c =>
          { c with rbad := 0, remapped := row :: c.remapped.filter fun x => decide (x ≠ row) } := if_neg hall
    rw [hw]
    split
    · exact ⟨⟨rfl, rfl⟩, rfl, _, rfl, .inl rfl⟩
    · exact ⟨⟨rfl, rfl⟩, rfl, _, rfl, .inl rfl⟩

/-- Settles O44. -/
theorem floorsRowsAndLayers : Obligations.FloorsRowsAndLayers := by
  unfold Obligations.FloorsRowsAndLayers
  refine ⟨⟨fun σ => rfl, fun σ l => ?table, fun σ core bank => ?publish⟩, fun σ col row => ?row, fun σ col => ?on,
    fun σ col => ?powered, fun σ col h => ?top, fun σ col n hn h => ?down, fun d col => ?needed⟩
  case table =>
    change Host.Outcome.next (writeTableLine l (Work.begin σ)).commit = _
    rw [writeTableLine]
    cases writerOf (Work.begin σ) l <;> rfl
  case publish =>
    change Host.Outcome.next (if _ then _ else _ : Work).commit = _
    split
    · exact (congrArg Host.Outcome.next (if_pos ‹_›)).symm
    · exact (congrArg Host.Outcome.next (if_neg ‹_›)).symm
  case row =>
    obtain ⟨hkept, hctxs, c', hcols, hcase⟩ := remapRow_outcomes col row σ
    have hcol : (remapRow col row (Work.begin σ)).commit.dev.column col = c' := by
      rw [commit_dev, Dev.column, hcols, tab_get_set_same]
    refine ⟨_, rfl, hkept.same, hctxs, fun k hk => ?_, ?_⟩
    · rw [commit_dev, hcols, tab_get?_set_other _ _ _ _ hk]
    · rw [hcol]
      exact hcase
  case on =>
    change Host.Outcome.next (if _ then _ else _ : Work).commit = _
    split
    · exact (congrArg Host.Outcome.next (if_pos ‹_›)).symm
    · exact (congrArg Host.Outcome.next (if_neg ‹_›)).symm
  case powered =>
    intro c
    change Host.Outcome.next (if _ then _ else _ : Work).commit = _
    split
    · exact (congrArg Host.Outcome.next (if_pos ‹_›)).symm
    · exact (congrArg Host.Outcome.next (if_neg ‹_›)).symm
  case top => exact congrArg (fun w : Work => Host.Outcome.next w.commit) (if_pos h)
  case down =>
    refine congrArg (fun w : Work => Host.Outcome.next w.commit) ((if_neg (Nat.not_le.2 (by rw [show (Work.begin σ).dev = σ.dev from rfl, hn]; omega))).trans ?_)
    rw [show (Work.begin σ).dev = σ.dev from rfl, hn, Nat.add_sub_cancel]
  case needed =>
    obtain ⟨hlo, hhi⟩ := layersOf_bounds col d.parts (m := 1) (by decide)
    exact ⟨hlo, hhi, fun p hp r hr g hg hg' hcol => layersOf_covers (by decide) hp hr hg hg' hcol⟩

-- The swap engine

/-- A byte written through its owner's key reads as it was written (R67). -/
theorem seen_put (w : Work) (k x : Nat) (v : Byte) : (w.put k v).seen x = if x = k then v else w.seen x := by
  rw [Work.seen, put_dev, Work.seen, Work.put]
  by_cases hx : x = k
  · subst hx
    cases hk : w.dev.dataKeys.get? (x / 2 ^ 21) with
    | none => simp [byte_setByte]
    | some ks => simp [byte_setByte, BitVec.xor_assoc]
  · cases w.dev.dataKeys.get? (k / 2 ^ 21) <;> cases w.dev.dataKeys.get? (x / 2 ^ 21) <;> simp [byte_setByte, hx]

theorem copyKeys_dev (w : Work) (src dst n : Nat) : (w.copyKeys src dst n).dev = w.dev := by
  induction n generalizing w src dst with
  | zero => rfl
  | succ n ih => exact (ih _ _ _).trans (put_dev ..)

theorem seen_copyKeys_outside (w : Work) {src dst n x : Nat} (h : x < dst ∨ dst + n ≤ x) :
    (w.copyKeys src dst n).seen x = w.seen x := by
  induction n generalizing w src dst with
  | zero => rfl
  | succ n ih => rw [Work.copyKeys, ih _ (by omega), seen_put, if_neg (by omega)]

/-- What is copied to a place apart from it reads as it did. -/
theorem seen_copyKeys_inside (w : Work) {src dst n i : Nat} (hi : i < n) (h : dst + n ≤ src ∨ src + n ≤ dst) :
    (w.copyKeys src dst n).seen (dst + i) = w.seen (src + i) := by
  induction n generalizing w src dst i with
  | zero => omega
  | succ n ih =>
    rw [Work.copyKeys]
    cases i with
    | zero => simp only [Nat.add_zero, seen_copyKeys_outside _ (show dst < dst + 1 ∨ _ from .inl (by omega)), seen_put, if_true]
    | succ i =>
      rw [show dst + (i + 1) = dst + 1 + i by omega, show src + (i + 1) = src + 1 + i by omega, ih _ (by omega) (by omega),
        seen_put, if_neg (by omega)]

theorem begin_commit_seen (w : Work) (k : Nat) : (Work.begin w.commit).seen k = w.seen k := by
  have hbyte : (Work.begin w.commit).byte k = w.byte k := commit_read w k
  rw [Work.seen, Work.seen, hbyte]
  rfl

theorem updSwap_swaps (w : Work) (die : Nat) (f : Swap → Swap) : (w.updSwap die f).dev.coh =
    { w.dev.coh with swaps := w.dev.coh.swaps.map fun x => if x.die = die then f x else x } := rfl

/-- n bytes of both frames, from an offset, read into the buffer (R178 steps 1 and 2). -/
def chunkRead (w : Work) (x : Swap) (off n : Nat) : Work :=
  (((w.sweepLines (x.f1 + off) n).sweepLines (x.f2 + off) n).copyKeys (Key.phys (x.f1 + off))
    (Key.swapBuf x.die 0 0) n).copyKeys (Key.phys (x.f2 + off)) (Key.swapBuf x.die 1 0) n

theorem copyTwice_dev (w : Work) (a b c d n : Nat) : ((w.copyKeys a b n).copyKeys c d n).dev = w.dev := by
  rw [copyKeys_dev, copyKeys_dev]

theorem chunkRead_keeps (w : Work) (x : Swap) (off n : Nat) : Keeps ctxsSwaps w (chunkRead w x off n) := by
  unfold chunkRead
  generalize Key.swapBuf x.die 0 0 = b0
  generalize Key.swapBuf x.die 1 0 = b1
  exact (Keeps.trans (sweepLines_keeps ..) (sweepLines_keeps ..)).trans (.of_dev (copyTwice_dev ..))

theorem beginChunk_eq {w : Work} {x : Swap} (h : 4096 * x.done < x.size) :
    w.beginChunk x = (chunkRead w x (4096 * x.done) 4096).updSwap x.die fun y => { y with inFlight := true } :=
  if_neg (Nat.not_le.2 h)

theorem updSwap_keeps {w v : Work} (hkeep : Keeps ctxsSwaps w v) (die : Nat) (f : Swap → Swap) :
    (v.updSwap die f).dev.coh.swaps = w.dev.coh.swaps.map (fun x => if x.die = die then f x else x) ∧
      (v.updSwap die f).dev.ctxs = w.dev.ctxs := by
  rw [updSwap_swaps, show v.dev.coh.swaps = w.dev.coh.swaps from hkeep.swaps]
  exact ⟨rfl, hkeep.ctxs⟩

/-- A chunk begins: the exchange has one in flight. -/
theorem beginChunk_swaps {w : Work} {x : Swap} (h : 4096 * x.done < x.size) :
    (w.beginChunk x).dev.coh.swaps =
      w.dev.coh.swaps.map (fun y => if y.die = x.die then { y with inFlight := true } else y) ∧
    (w.beginChunk x).dev.ctxs = w.dev.ctxs := by
  rw [beginChunk_eq h]
  exact updSwap_keeps (chunkRead_keeps ..) x.die _

theorem exchangeOk_fresh {w : Work} {die f1 f2 size : Nat} (h : exchangeOk w die f1 f2 size = true) :
    0 < size ∧ ∀ x ∈ w.dev.coh.swaps, x.die ≠ die := by
  simp only [exchangeOk, Bool.and_eq_true, Bool.or_eq_true, decide_eq_true_eq, List.all_eq_true] at h
  obtain ⟨⟨⟨⟨⟨⟨⟨⟨⟨⟨⟨⟨hsize, -⟩, -⟩, -⟩, -⟩, -⟩, -⟩, -⟩, hfresh⟩, -⟩, -⟩, -⟩, -⟩ := h
  exact ⟨by omega, hfresh⟩

theorem map_eq_self {α : Type} {l : List α} {p : α → Prop} [DecidablePred p] (f : α → α) (h : ∀ x ∈ l, ¬ p x) :
    (l.map fun x => if p x then f x else x) = l := by
  exact (List.map_congr_left fun x hx => if_neg (h x hx)).trans (List.map_id' l)

/-- The two halves of the buffer, n bytes of each, written to the other frames from an offset (R178 step 3). -/
def chunkWritten (w : Work) (x : Swap) (off n : Nat) : Work :=
  (w.copyKeys (Key.swapBuf x.die 0 0) (Key.phys (x.f2 + off)) n).copyKeys (Key.swapBuf x.die 1 0) (Key.phys (x.f1 + off)) n

theorem chunkWritten_dev (w : Work) (x : Swap) (off n : Nat) : (chunkWritten w x off n).dev = w.dev := by
  rw [chunkWritten, copyTwice_dev]

theorem key_swapBuf_add (die half a i : Nat) : Key.swapBuf die half (a + i) = Key.swapBuf die half a + i := by
  unfold Key.swapBuf
  generalize 0x80000200000000 + die * 0x1000000 + half * 0x400000 = base
  exact (Nat.add_assoc base a i).symm

theorem swapBuf_ge (die half a : Nat) : 0x80000200000000 ≤ Key.swapBuf die half a := by
  unfold Key.swapBuf
  omega

/-- Each frame's chunk reads as the other's half of the buffer did. -/
theorem seen_chunkWritten (w : Work) {x : Swap} {off n k : Nat} (hk : k < n) (h2 : x.f2 + off + n ≤ 0x10000000000000)
    (h1 : x.f1 + off + n ≤ 0x10000000000000) (hapart : x.f1 + off + n ≤ x.f2 + off ∨ x.f2 + off + n ≤ x.f1 + off) :
    (chunkWritten w x off n).seen (Key.phys (x.f2 + off + k)) = w.seen (Key.swapBuf x.die 0 k) ∧
      (chunkWritten w x off n).seen (Key.phys (x.f1 + off + k)) = w.seen (Key.swapBuf x.die 1 k) := by
  have hb0 := swapBuf_ge x.die 0 0
  have hb1 := swapBuf_ge x.die 1 0
  have hb0k := key_swapBuf_add x.die 0 0 k
  have hb1k := key_swapBuf_add x.die 1 0 k
  rw [Nat.zero_add] at hb0k hb1k
  simp only [chunkWritten, Key.phys, hb0k]
  constructor
  · rw [seen_copyKeys_outside _ (by omega), seen_copyKeys_inside _ hk (by omega)]
  · rw [seen_copyKeys_inside _ hk (by omega), ← hb1k, seen_copyKeys_outside _ (by omega)]

/-- The last chunk of the exchange at the head of the list is done. -/
theorem endChunk_last {σ : State} {x : Swap} {rest : List Swap} (hs : σ.dev.coh.swaps = x :: rest) (hf : x.inFlight = true)
    (hsize : x.size = 4096 * (x.done + 1)) (hj : joined σ.dev x.die (homeDie σ.dev x.f2) = true) :
    endChunk x.die (Work.begin σ) =
      (chunkWritten (Work.begin σ) x (4096 * x.done) 4096).updSwap x.die fun _ => { x with done := x.done + 1, inFlight := false } := by
  have hfind : (Work.begin σ).dev.coh.swaps.find? (fun y => decide (y.die = x.die) && y.inFlight) = some x := by
    rw [show (Work.begin σ).dev.coh.swaps = x :: rest from hs, List.find?_cons_of_pos (by simp [hf])]
  rw [endChunk, hfind]
  refine (if_neg (by simp [hj])).trans (if_pos ?_)
  change x.size ≤ 4096 * (x.done + 1)
  exact Nat.le_of_eq hsize

theorem updSwap_head {σ : State} {w : Work} {x : Swap} {rest : List Swap} (hs : σ.dev.coh.swaps = x :: rest)
    (hrest : ∀ y ∈ rest, y.die ≠ x.die) (hdev : w.dev = (Work.begin σ).dev) (y : Swap) :
    (w.updSwap x.die fun _ => y).commit.dev.ctxs = σ.dev.ctxs ∧
      (w.updSwap x.die fun _ => y).commit.dev.coh = { σ.dev.coh with swaps := y :: rest } := by
  rw [commit_dev, updSwap_swaps, hdev, show (Work.begin σ).dev.coh = σ.dev.coh from rfl, hs, List.map_cons, if_pos rfl,
    map_eq_self (fun _ => y) hrest]
  exact ⟨(congrArg Dev.ctxs hdev : w.dev.ctxs = σ.dev.ctxs), rfl⟩

theorem seen_updSwap_commit (w : Work) (die : Nat) (f : Swap → Swap) (a : Nat) :
    (Work.begin (w.updSwap die f).commit).seen a = w.seen a := begin_commit_seen ..

/-- The release's work, up to the contexts and what they watch. -/
def framesJoined (w : Work) (x : Swap) : Work :=
  let w1 := (((w.retargetAll x).awaitHolders x).sweepLines x.f1 x.size).sweepLines x.f2 x.size
  let w2 := (List.range (x.size / 64)).foldl (fun a k => a.joinTimes (x.f1 / 64 + k) (x.f2 / 64 + k)) w1
  (List.range (x.size / 32)).foldl (fun a k => a.swapMarks (x.f1 / 32 + k) (x.f2 / 32 + k)) w2

theorem framesJoined_keeps (w : Work) (x : Swap) : Keeps ctxsSwaps (w.retargetAll x) (framesJoined w x) := by
  unfold framesJoined
  exact ((((awaitHolders_keeps ..).trans (sweepLines_keeps ..)).trans (sweepLines_keeps ..)).trans
    (Keeps.foldl _ (fun a (_ : Nat) => joinTimes_keeps a _ _) _)).trans (Keeps.foldl _ (fun a (_ : Nat) => swapMarks_keeps a _ _) _)

theorem releaseSwap_eq {w : Work} {die : Nat} {x : Swap}
    (hx : w.dev.coh.swaps.find? (fun y => decide (y.die = die) && decide (y.done = y.size / 4096)) = some x) :
    releaseSwap die w = if movable w x = false ∨ holdsBlock w x.f1 x.size ∨ holdsBlock w x.f2 x.size then w
      else ((framesJoined w x).mapDev (Dev.exchange x)).updCoh fun c =>
        { c with swaps := c.swaps.filter fun y => decide (y.die ≠ die) } := by
  rw [releaseSwap, hx]
  rfl

/-- Settles O45: the frames' lines, marks and tables change with an exchange, the list of exchanges and the contexts only as its
steps say. -/
theorem swapEvents : Obligations.SwapEvents := by
  unfold Obligations.SwapEvents
  refine ⟨fun σ die f1 f2 size h => ?refused, fun σ die f1 f2 size h => ?taken, fun σ die h => ?idle,
    fun σ x rest hs hf hrest hsize hj => ?last, fun σ die x hx => ⟨fun h => ?stays, fun hm h1 h2 => ?released⟩,
    fun σ x hs hf hj => ?unjoined, fun σ die h => ?unfinished⟩
  case refused => exact congrArg (fun w : Work => Host.Outcome.next w.commit) (if_neg (by rw [h]; decide))
  case taken =>
    obtain ⟨hpos, hfresh⟩ := exchangeOk_fresh h
    refine ⟨_, congrArg (fun w : Work => Host.Outcome.next w.commit) (if_pos h), ?_⟩
    obtain ⟨hswaps, hctxs⟩ := beginChunk_swaps (w := (Work.begin σ).updCoh fun c =>
      { c with swaps := c.swaps ++ [{ die := die, f1 := f1, f2 := f2, size := size }] })
      (x := { die := die, f1 := f1, f2 := f2, size := size }) hpos
    refine ⟨hswaps.trans ?_, hctxs⟩
    change List.map _ (σ.dev.coh.swaps ++ [_]) = _
    rw [List.map_append, List.map_singleton, if_pos rfl]
    exact congrArg (· ++ [_]) (map_eq_self (fun y : Swap => { y with inFlight := true }) hfresh)
  case idle =>
    have hnone : (Work.begin σ).dev.coh.swaps.find? (fun x => decide (x.die = die) && x.inFlight) = none := by
      refine List.find?_eq_none.2 fun x hx => ?_
      by_cases hd : x.die = die
      · simp [hd, h x hx hd]
      · simp [hd]
    refine congrArg (fun w : Work => Host.Outcome.next w.commit) (show endChunk die (Work.begin σ) = Work.begin σ from ?_)
    rw [endChunk, hnone]
  case last =>
    refine ⟨_, congrArg (fun w : Work => Host.Outcome.next w.commit) (endChunk_last hs hf hsize hj), ?_⟩
    obtain ⟨hctxs, hcoh⟩ := updSwap_head hs hrest (chunkWritten_dev (Work.begin σ) x (4096 * x.done) 4096)
      { x with done := x.done + 1, inFlight := false }
    refine ⟨hctxs, hcoh, fun h2 h1 hapart k hk => ?_⟩
    rw [seen_updSwap_commit, seen_updSwap_commit]
    exact seen_chunkWritten (Work.begin σ) hk h2 h1 (by omega)
  case stays =>
    refine congrArg (fun w : Work => Host.Outcome.next w.commit) ((releaseSwap_eq (w := Work.begin σ) hx).trans (if_pos h))
  case released =>
    refine ⟨_, congrArg (fun w : Work => Host.Outcome.next w.commit) ((releaseSwap_eq (w := Work.begin σ) hx).trans (if_neg (by simp [hm, h1, h2]))), ?_⟩
    have hkeeps := framesJoined_keeps (Work.begin σ) x
    refine ⟨?_, fun hparts => ?_⟩
    · have hswaps : (framesJoined (Work.begin σ) x).dev.coh.swaps = σ.dev.coh.swaps :=
        ((retargetAll_swaps (Work.begin σ) x).trans hkeeps.swaps)
      exact congrArg (List.filter fun y : Swap => decide (y.die ≠ die)) hswaps
    · have hnone : (Work.begin σ).retargetAll x = Work.begin σ := by
        rw [Work.retargetAll, show (Work.begin σ).dev = σ.dev from rfl, hparts, List.foldl_nil]
      rw [hnone] at hkeeps
      exact congrArg (List.map fun p : Nat × Ctx => (p.1, p.2.exchange x)) hkeeps.ctxs
  case unjoined =>
    have hfind : (Work.begin σ).dev.coh.swaps.find? (fun y => decide (y.die = x.die) && y.inFlight) = some x := by
      rw [show (Work.begin σ).dev.coh.swaps = [x] from hs, List.find?_cons_of_pos (by simp [hf])]
    refine congrArg (fun w : Work => Host.Outcome.next w.commit) (show endChunk x.die (Work.begin σ) = Work.begin σ from ?_)
    rw [endChunk, hfind]
    exact if_pos hj
  case unfinished =>
    have hnone : (Work.begin σ).dev.coh.swaps.find? (fun x => decide (x.die = die) && decide (x.done = x.size / 4096)) = none := by
      refine List.find?_eq_none.2 fun x hx => ?_
      by_cases hd : x.die = die
      · simp [h x hx hd]
      · simp [hd]
    refine congrArg (fun w : Work => Host.Outcome.next w.commit) (show releaseSwap die (Work.begin σ) = Work.begin σ from ?_)
    rw [releaseSwap, hnone]

end Sys2Proof.Proofs.MemoryEvents
end

section
/-! The scheduler's events: admission, dependence, dispatch, stealing, tides, audits and the quarantine class (R99, R100, R129 to
R150). -/

namespace Sys2Proof.Proofs.SchedulerEvents

open Sys2Proof Sys2Proof.Machine Sys2Proof.Safety Sys2Proof.Laws Sys2Proof.Proofs.PackageLinks

/-- An event whose work is v gives what v commits. -/
theorem next_of_eq {v w : Work} (h : v = w) : (Host.Outcome.next v.commit : Host.Outcome State Fault Refusal) = .next w.commit := by
  rw [h]

theorem launch_updLaunch (w : Work) (ix : Nat) (f : Launch → Launch) :
    (w.updLaunch ix f).dev.launch ix = f (w.dev.launch ix) :=
  tab_get_set_same ..

theorem updLaunch_congr {w : Work} {ix : Nat} {f g : Launch → Launch} (h : f (w.dev.launch ix) = g (w.dev.launch ix)) :
    w.updLaunch ix f = w.updLaunch ix g := by
  change w.mapDev (fun _ => { w.dev with launches := w.dev.launches.set ix (f (w.dev.launch ix)) }) = _
  rw [h]
  rfl

-- Admission and dependence (R129, R147)

theorem admitLaunch_eq {w : Work} {ix : Nat} (hst : (w.dev.launch ix).st = 1) (hended : (w.dev.launch ix).ended = false)
    (hadmitted : (w.dev.launch ix).admitted = false) (hpolicy : w.dev.policy.get (w.dev.launch ix).die 0 = 0)
    (hmode : w.dev.mode = .running) (hruns : w.dev.partRuns (w.dev.launch ix).part = true) :
    admitLaunch ix w = match admitted w (w.dev.launch ix) with
      | .error (.ends code) => w.endLaunch ix code
      | .error (.waits x) => w.waitFor true x
      | .ok x => x.2.updLaunch ix fun _ => x.1 :=
  if_neg (by simp [hst, hended, hadmitted, hpolicy, hmode, hruns])

theorem testDependence_idle {w : Work} {ix : Nat} (h : (w.dev.launch ix).dependsSince = none) : testDependence ix w = w := by
  simp only [testDependence, h]

theorem testDependence_waits {w : Work} {ix : Nat} {m : Option Nat} (hm : (w.dev.launch ix).dependsSince = some m)
    (h : ((w.dev.launch ix).quarantine = true ∧ (w.dev.launch ix).began = false) ∨
      w.dev.partRuns (w.dev.launch ix).part = false ∨ calWaits w.dev (w.dev.launch ix) = true) : testDependence ix w = w := by
  simp only [testDependence, hm]
  exact if_pos h

/-- The test of a launch that nothing holds back. -/
theorem testDependence_ready {w : Work} {ix : Nat} {m : Option Nat} (hm : (w.dev.launch ix).dependsSince = some m)
    (hbegan : (w.dev.launch ix).quarantine = true → (w.dev.launch ix).began = true)
    (hruns : w.dev.partRuns (w.dev.launch ix).part = true) (hcal : calWaits w.dev (w.dev.launch ix) = false) :
    ((w.dev.launch ix).din = 0 → testDependence ix w = w.openTide ix) ∧
      ∀ x, (w.dev.launch ix).din ≠ 0 →
        w.devRead (w.dev.launch ix).part (w.dev.launch ix).die (w.dev.launch ix).din 8 = .ok x →
        testDependence ix w = if dependenceTrue (w.dev.launch ix) x.1 then x.2.openTide ix
          else (x.2.updLaunch ix fun y => { y with phase := .dependence none, recheck := w.dev.now + 600 }).watchWord ix
            (w.dev.launch ix) := by
  have hfree : ¬ (((w.dev.launch ix).quarantine = true ∧ (w.dev.launch ix).began = false) ∨
      w.dev.partRuns (w.dev.launch ix).part = false ∨ calWaits w.dev (w.dev.launch ix) = true) := by
    rintro (⟨hq, hb⟩ | hr | hc)
    · exact absurd (hbegan hq) (by simp [hb])
    · simp [hr] at hruns
    · simp [hc] at hcal
  simp only [testDependence, hm]
  refine ⟨fun hdin => (if_neg hfree).trans (if_pos hdin), fun x hdin hx => (if_neg hfree).trans ((if_neg hdin).trans ?_)⟩
  rw [hx]

theorem openTide_launch (w : Work) (ix : Nat) :
    ((w.openTide ix).dev.launch ix).st = 2 ∧ ((w.openTide ix).dev.launch ix).phase = .flood := by
  rw [Work.openTide, launch_updLaunch]
  split <;> exact ⟨rfl, rfl⟩

/-- Settles O46: a case of the policy core's admission and of the dependence test each. -/
theorem admissionAndDependence : Obligations.AdmissionAndDependence := by
  unfold Obligations.AdmissionAndDependence
  refine ⟨fun σ ix => ?admits, fun σ ix h => ?idle, fun w l hdr hhdr hbusy hbad => ?header, fun σ ix => ?test,
    fun w ix => ⟨rfl, openTide_launch w ix⟩⟩
  case admits =>
    intro l hst hended hadmitted hpolicy hmode hruns
    have heq := admitLaunch_eq (w := Work.begin σ) hst hended hadmitted hpolicy hmode hruns
    refine ⟨fun x hx => next_of_eq (heq.trans ?_), fun code hx => next_of_eq (heq.trans ?_),
      fun line hx => next_of_eq (heq.trans ?_)⟩ <;>
    · rw [show admitted (Work.begin σ) ((Work.begin σ).dev.launch ix) = _ from hx]
  case idle =>
    refine next_of_eq (if_pos (?_ : _ ∨ _))
    obtain h | h | h | h | h := h
    · exact .inl h
    · exact .inr (.inr (.inl h))
    · exact .inr (.inl h)
    · exact .inr (.inr (.inr (.inr (.inl h))))
    · exact .inr (.inr (.inr (.inr (.inr h))))
  case header => simp only [admitted, hhdr, hbusy, hbad, if_true]
  case test =>
    refine ⟨fun h => next_of_eq (testDependence_idle h), fun m hm => ⟨fun h => next_of_eq (testDependence_waits hm h),
      fun hbegan hruns hcal => ?_⟩⟩
    obtain ⟨hopens, hreads⟩ := testDependence_ready (w := Work.begin σ) hm hbegan hruns hcal
    refine ⟨fun hdin => next_of_eq (hopens hdin), fun x hdin hx => ?_⟩
    refine (next_of_eq (hreads x hdin hx)).trans ?_
    by_cases htrue : ((σ.dev.launch ix).dinbase + (σ.dev.launch ix).tide * (σ.dev.launch ix).dinstep) % 2 ^ 64 ≤ x.1
    · rw [if_pos htrue]
      exact next_of_eq (if_pos (decide_eq_true htrue))
    · rw [if_neg htrue]
      exact next_of_eq (if_neg (by rw [dependenceTrue, decide_eq_true_eq]; exact htrue))

-- Dispatch and stealing (R131, R136, R143, R150)

theorem dispatch_eq {w : Work} (die : Nat) : dispatch die w = match pickLaunch w.dev die with
    | none => w
    | some ix => if mayDispatch w.dev die = true then (w.placeNext ix die).dispatched die else w := rfl

theorem dispatchTask_ok {w w1 : Work} {ix die t bank : Nat} {q : List Nat} {es : List Extent}
    (h : launchExtents w ix die t = (.ok es, w1)) (hq : reservedCore (q.headD 0) = false) :
    w.dispatchTask ix die t bank q =
      ((w1.updLaunch ix fun l => l.take die t).startTask ix t bank q es).updLaunch ix fun l => l.charge die := by
  simp only [Work.dispatchTask, h, hq]
  rfl

/-- The context in which a member starts. -/
theorem startMember_ctx (w : Work) (ix t bank lead rank core : Nat) (ext : List Extent) :
    ∃ x : Ctx, (w.startMember ix t bank lead rank core ext).ctx core bank =
      let l := w.dev.launch ix
      let y := (x.forLaunch l ix (w.dev.partOf l.part)).taskItems l ix t (w.dev.partOf l.part)
      { y with
        rank := rank, quire := lead + 512 * l.qlog, lead := lead
        ext := (List.range ext.length).zip ext
        pc := bits l.flood 55 5 * 32
        ebb := false
        alt := decide (bank = 1)
        lts := max y.lts l.acquired
        reloc := if decide (bank = 1) = true then (l.altlsb : Int) - (l.lsb : Int) else 0 } :=
  ⟨(w.enterBank ix core bank).ctx core bank, tab_get_set_same ..⟩

theorem taskItems_args (c : Ctx) (l : Launch) (ix t : Nat) (p : Part) :
    (c.taskItems l ix t p).s.get 1 0 = BitVec.ofNat 64 l.args ∧ (c.taskItems l ix t p).s.get 2 0 = BitVec.ofNat 64 l.extent ∧
      (c.taskItems l ix t p).s.get 3 0 = BitVec.ofNat 64 ix := by
  refine ⟨?_, ?_, tab_get_set_same ..⟩
  · exact (tab_get_set_other _ 3 1 _ _ (by decide)).trans ((tab_get_set_other _ 2 1 _ _ (by decide)).trans (tab_get_set_same ..))
  · exact (tab_get_set_other _ 3 2 _ _ (by decide)).trans (tab_get_set_same ..)

theorem floods_running {l : Launch} (h : l.floods = true) : l.st = 2 := by
  simp only [Launch.floods, Bool.and_eq_true, decide_eq_true_eq] at h
  exact h.1

theorem resumeOn_eq {w : Work} {die ix bank : Nat} {q : List Nat} {s : Saved} (hfloods : (w.dev.launch ix).floods = true)
    (hq : pickQuire w.dev ix die = some (q, bank)) (hs : lowestSaved (w.dev.launch ix) = some s)
    (hruns : w.dev.partRuns (w.dev.launch ix).part = true) (hmay : mayDispatch w.dev die = true) :
    resumeOn die ix w = (w.resumeTask ix die bank q s).dispatched die := by
  refine (if_neg (by simp [hfloods, floods_running hfloods, hruns, hmay])).trans ?_
  simp only [hq, hs]

theorem stealFor_sets_out {w : Work} {ix die v : Nat} (hnone : ∀ s ∈ (w.dev.launch ix).steals, s.thief ≠ die)
    (hfloods : (w.dev.launch ix).floods = true)
    (hempty : ((w.dev.launch ix).ranges.get die (0, 0)).2 ≤ ((w.dev.launch ix).ranges.get die (0, 0)).1)
    (hquire : (pickQuire w.dev ix die).isSome = true) (hv : victimOf w.dev (w.dev.launch ix) die = some v) :
    stealFor ix die w = w.updLaunch ix fun x => { x with steals := x.steals ++ [{ thief := die, victim := v }] } := by
  have hfind : ((w.dev.launch ix).steals.find? fun s => s.thief = die) = none :=
    List.find?_eq_none.2 fun s hs => by simp [hnone s hs]
  simp only [stealFor, hfind]
  refine (if_neg ?_).trans (by rw [hv])
  rintro (h | h | h)
  · simp [hfloods] at h
  · omega
  · rw [Option.isSome_iff_ne_none] at hquire
    simp [hquire] at h

theorem stealFor_arrives {w : Work} {ix : Nat} {s : Steal} {rest : List Steal} (hs : (w.dev.launch ix).steals = s :: rest)
    (hnew : s ∉ rest) :
    stealFor ix s.thief w = w.updLaunch ix fun x => { x.steal s.thief s.victim with steals := rest } := by
  have hfilter : (s :: rest).filter (fun y => decide (y ≠ s)) = rest := by
    rw [List.filter_cons_of_neg (by simp), List.filter_eq_self]
    exact fun y hy => decide_eq_true fun h => hnew (h ▸ hy)
  have hfind : ((w.dev.launch ix).steals.find? fun y => y.thief = s.thief) = some s := by
    rw [hs, List.find?_cons_of_pos (by simp)]
  simp only [stealFor, hfind]
  refine updLaunch_congr ?_
  rw [hs, hfilter]

/-- What a steal that arrives leaves of the ranges (R143). -/
theorem steal_eq (l : Launch) (thief victim : Nat) (rest : List Steal) :
    { l.steal thief victim with steals := rest } =
      if (l.ranges.get victim (0, 0)).2 - (l.ranges.get victim (0, 0)).1 < 2 then { l with steals := rest }
      else { l with
        ranges := (l.ranges.set victim ((l.ranges.get victim (0, 0)).1, (l.ranges.get victim (0, 0)).1 +
            ((l.ranges.get victim (0, 0)).2 - (l.ranges.get victim (0, 0)).1 + 1) / 2)).set thief
          ((l.ranges.get victim (0, 0)).1 + ((l.ranges.get victim (0, 0)).2 - (l.ranges.get victim (0, 0)).1 + 1) / 2,
            (l.ranges.get victim (0, 0)).2)
        steals := rest } := by
  rw [Launch.steal]
  split <;> rfl

/-- Settles O47: the scheduler's choices are those of the rules' functions, and a member starts with the items of Table 6.2. -/
theorem dispatches : Obligations.Dispatches := by
  unfold Obligations.Dispatches
  refine ⟨fun σ die => ?dispatch, fun w die => ⟨rfl, rfl⟩, fun w w1 ix die t bank q es h hq => dispatchTask_ok h hq,
    fun w ix t bank lead rank core ext => ?start,
    fun σ die ix q bank s hfloods hq hs hruns hmay => next_of_eq (resumeOn_eq hfloods hq hs hruns hmay),
    fun σ die ix h => ?refused, fun σ ix die v => ?sets_out, fun σ ix s rest => ?arrives⟩
  case dispatch =>
    refine (next_of_eq (dispatch_eq die)).trans ?_
    rw [show (Work.begin σ).dev = σ.dev from rfl]
    cases pickLaunch σ.dev die with
    | none => rfl
    | some ix =>
      by_cases hmay : mayDispatch σ.dev die = true
      · exact (next_of_eq (if_pos hmay)).trans (congrArg _ (if_pos hmay).symm)
      · exact (next_of_eq (if_neg hmay)).trans (congrArg _ (if_neg hmay).symm)
  case start =>
    obtain ⟨x, hx⟩ := startMember_ctx w ix t bank lead rank core ext
    intro l c
    rw [show c = _ from hx]
    obtain ⟨h1, h2, h3⟩ := taskItems_args (x.forLaunch l ix (w.dev.partOf l.part)) l ix t (w.dev.partOf l.part)
    exact ⟨rfl, rfl, rfl, rfl, rfl, rfl, h1, h2, h3, rfl, rfl, rfl, rfl, rfl⟩
  case refused =>
    refine next_of_eq (if_pos (?_ : _ ∨ _))
    obtain h | h | h := h
    · exact .inl h
    · exact .inr (.inr (.inl h))
    · exact .inr (.inr (.inr h))
  case sets_out =>
    intro l hnone hfloods hempty hquire hv
    exact next_of_eq (stealFor_sets_out hnone hfloods hempty hquire hv)
  case arrives =>
    intro l r hs hnew mid l1
    refine (next_of_eq (stealFor_arrives (w := Work.begin σ) hs hnew)).trans ?_
    exact congrArg (fun x => Host.Outcome.next (withDev σ { σ.dev with launches := σ.dev.launches.set ix x }))
      (steal_eq (σ.dev.launch ix) s.thief s.victim rest)

-- Tides, audits, held translations and the quarantine class (R99, R100, R141 to R147)

theorem endEbb_eq {w : Work} {ix : Nat} (h : (w.dev.launch ix).st = 2 ∧ (w.dev.launch ix).phase = .ebb ∧
    (w.dev.launch ix).gang.flatten.all (hasReported w.dev ix) = true) (hdout : (w.dev.launch ix).dout = 0) :
    endEbb ix w = w.nextTide ix :=
  (if_pos h).trans (if_pos hdout)

/-- The auditor's other cores of the gang. -/
def auditors (l : Launch) (a : Audit) : List Nat := l.gang.flatten.filter fun k => decide (k ≠ a.core)

/-- The core that replays, of the free value's choice. -/
def auditor (w : Work) (l : Launch) (a : Audit) : Nat := (auditors l a).getD (w.free.1 % (auditors l a).length) a.core

/-- The comparison is logged and the piece of work is no longer to be replayed. -/
def audited (ix : Nat) (w : Work) (a : Audit) (rest : List Audit) (good : Bool) : Work :=
  let l := w.dev.launch ix
  let e := auditEntry l ix a good (auditor w l a) w.free.2.free.1
  (w.free.2.free.2.mapDev fun d => { d with host := { d.host with
    alog := d.host.alog.set l.part ((e :: d.host.alog.get l.part []).take 64) } }).updLaunch ix fun x => { x with audits := rest }

theorem replayAudit_eq {ix : Nat} {ok : Bool} {w : Work} {a : Audit} {rest : List Audit}
    (ha : (w.dev.launch ix).audits = a :: rest) (hst : (w.dev.launch ix).st = 2) :
    replayAudit ix ok w =
      if (auditors (w.dev.launch ix) a).isEmpty then w.updLaunch ix fun x => { x with audits := rest }
      else if (a.ok && ok) = true then audited ix w a rest (a.ok && ok)
      else ((audited ix w a rest (a.ok && ok)).logError 46 (w.dev.launch ix).part (auditor w (w.dev.launch ix) a) a.subject).failLaunch
        ix 0x105 := by
  simp only [replayAudit, ha]
  exact if_neg (not_not_intro hst)

theorem auditors_nonempty {l : Launch} {a : Audit} (h : ∃ k ∈ l.gang.flatten, k ≠ a.core) : (auditors l a).isEmpty = false := by
  obtain ⟨k, hk, hne⟩ := h
  rw [List.isEmpty_eq_false_iff]
  exact List.ne_nil_of_mem (List.mem_filter.2 ⟨hk, decide_eq_true hne⟩)

theorem auditor_mem {w : Work} {l : Launch} {a : Audit} (h : (auditors l a).isEmpty = false) :
    auditor w l a ∈ l.gang.flatten ∧ auditor w l a ≠ a.core := by
  have hlen : w.free.1 % (auditors l a).length < (auditors l a).length :=
    Nat.mod_lt _ (List.length_pos_iff.2 (List.isEmpty_eq_false_iff.1 h))
  have hmem : auditor w l a ∈ auditors l a := by
    rw [auditor, List.getD_eq_getElem?_getD, List.getElem?_eq_getElem hlen]
    exact List.getElem_mem hlen
  obtain ⟨hgang, hne⟩ := List.mem_filter.1 hmem
  exact ⟨hgang, of_decide_eq_true hne⟩

theorem claimReserved_test {σ : State} {ix : Nat} (h : nextQuarantined σ.dev = some ix) (hfree : reservedFree σ.dev = true) :
    startQuarantined (Work.begin σ) = testDependence ix (((Work.begin σ).claimReserved (σ.dev.launch ix).part).updLaunch ix
      fun x => { x with began := true, since := σ.dev.now }) := by
  simp only [startQuarantined, show (Work.begin σ).dev = σ.dev from rfl, h]
  exact if_neg (by rw [hfree]; decide)

theorem startQuarantined_waits {w : Work} (h : nextQuarantined w.dev = none ∨ reservedFree w.dev = false) :
    startQuarantined w = w := by
  unfold startQuarantined
  cases hn : nextQuarantined w.dev with
  | none => rfl
  | some ix => exact if_pos (h.resolve_left (by simp [hn]))

theorem retryTranslation_eq {w : Work} {ix : Nat} {h : Held} (hdout : (w.dev.launch ix).doutSince = none)
    (hdin : (w.dev.launch ix).dependsSince = none)
    (hh : (w.dev.launch ix).held.find? (fun x => decide (x.task = h.task)) = some h) :
    retryTranslation ix h.task w = w.retryHeld ix h false := by
  simp only [retryTranslation, hdout, hdin, hh]
  rfl

theorem timeoutTranslation_eq {w : Work} {d : Dev} {ix : Nat} {h : Held} (hd : w.dev = d)
    (hdout : (d.launch ix).doutSince = none) (hdin : (d.launch ix).dependsSince = none)
    (hh : (d.launch ix).held.find? (fun x => decide (x.task = h.task)) = some h) :
    timeoutTranslation ix h.task w = if h.since + 60000000 ≤ d.now then w.retryHeld ix h true else w := by
  subst hd
  simp only [timeoutTranslation, hdout, hdin, hh]
  exact if_neg (by decide)

theorem endQuarantined_late {w : Work} {d : Dev} {ix : Nat} (hd : w.dev = d) (h : (d.launch ix).quarantine = true ∧
    (d.launch ix).began = true ∧ (d.launch ix).ended = false ∧ ((d.launch ix).st = 1 ∨ (d.launch ix).st = 2 ∨ (d.launch ix).st = 4) ∧
    (d.launch ix).since + 600000000 ≤ d.now) :
    endQuarantined ix w = ((w.cancelRunning ix).clearReports ix).failLaunch ix 0x104 := by
  subst hd
  exact if_pos h

/-- Settles O48: a case of the barrier's, the ebb's, the auditor's, the translations' and the quarantine class's events each. -/
theorem tideAndQuarantineEvents : Obligations.TideAndQuarantineEvents := by
  unfold Obligations.TideAndQuarantineEvents
  refine ⟨fun σ ix h => next_of_eq (if_pos h), fun σ ix h => ?released, fun σ ix => ?ebb,
    fun σ ix ok a rest ha hst hall => ?alone, fun σ ix ok a rest ha hst hbad hother => ?erred,
    fun σ ix a rest ha hst hok hother => ?good, fun σ ix h => ?held, fun σ h => next_of_eq (startQuarantined_waits h),
    fun σ ix h hfree => next_of_eq (claimReserved_test h hfree), fun σ ix => ?limit⟩
  case released => exact next_of_eq (if_neg (by rw [show mayRelease (Work.begin σ).dev ix = true from h]; decide))
  case ebb =>
    intro l reports
    refine ⟨fun h => next_of_eq (if_neg h), fun h hdout hlast => next_of_eq ?_, fun h hdout hnext => next_of_eq ?_⟩
    · exact (endEbb_eq (w := Work.begin σ) h hdout).trans (if_neg (Nat.not_lt.2 hlast))
    · exact (endEbb_eq (w := Work.begin σ) h hdout).trans (if_pos hnext)
  case alone =>
    refine next_of_eq ((replayAudit_eq (w := Work.begin σ) ha hst).trans (if_pos ?_))
    rw [List.isEmpty_iff, auditors, List.filter_eq_nil_iff]
    exact fun k hk => by simp [hall k hk]
  case erred =>
    have hsome := auditors_nonempty hother
    obtain ⟨hgang, hne⟩ := auditor_mem (w := Work.begin σ) hsome
    refine ⟨audited ix (Work.begin σ) a rest (a.ok && ok), _, hgang, hne, rfl, rfl, next_of_eq ?_⟩
    refine (replayAudit_eq (w := Work.begin σ) ha hst).trans ((if_neg ?_).trans (if_neg ?_))
    · rw [show auditors ((Work.begin σ).dev.launch ix) a = auditors (σ.dev.launch ix) a from rfl, hsome]
      decide
    · rw [hbad]
      decide
  case good =>
    have hsome := auditors_nonempty hother
    refine ⟨_, next_of_eq ((replayAudit_eq (w := Work.begin σ) ha hst).trans ((if_neg ?_).trans (if_pos (by simp [hok])))), ?_⟩
    · rw [show auditors ((Work.begin σ).dev.launch ix) a = auditors (σ.dev.launch ix) a from rfl, hsome]
      decide
    · refine ⟨fun b => commit_read .., rfl, rfl, ?_⟩
      refine (congrArg List.length (tab_get_set_same ..)).trans ?_
      rw [List.length_take, List.length_cons]
      rfl
  case held =>
    intro l hdout hdin hh
    refine ⟨next_of_eq (retryTranslation_eq (w := Work.begin σ) hdout hdin hh),
      (next_of_eq (timeoutTranslation_eq (w := Work.begin σ) (d := σ.dev) rfl hdout hdin hh)).trans ?_⟩
    by_cases hlate : h.since + 60000000 ≤ σ.dev.now
    · rw [if_pos hlate, if_pos hlate]
    · rw [if_neg hlate, if_neg hlate]
      rfl
  case limit =>
    intro l hq hbegan hended hst hlate
    exact next_of_eq (endQuarantined_late (w := Work.begin σ) (d := σ.dev) rfl ⟨hq, hbegan, hended, hst, hlate⟩)

end Sys2Proof.Proofs.SchedulerEvents

end

section
/-! The cores' events: limits, barriers, parks, landings, passes, engines, trap entry, pre-emption and holds (R215 to R219, R223 to
R233, R253, R259, R329, R357 to R374). -/

namespace Sys2Proof.Proofs.CoreEventRules

open Sys2Proof Sys2Proof.Machine Sys2Proof.Safety Sys2Proof.Laws Sys2Proof.Proofs.Traps Sys2Proof.Proofs.ResetAndRecovery
open Sys2Proof.Proofs.MemoryEvents Sys2Proof.Proofs.SchedulerEvents Sys2Proof.Proofs.PackageLinks

/-- An event that has its effect where a condition holds. -/
theorem next_ite {c : Prop} [Decidable c] {v w : Work} {σ : State} (h : w.commit = σ) :
    (Host.Outcome.next (if c then v else w).commit : Host.Outcome State Fault Refusal) = .next (if c then v.commit else σ) := by
  rw [apply_ite Work.commit, h]

-- Limits (R119, R216, R219, R223)

theorem frozenOut_eq {c : Ctx} {n l : Nat}
    (h : c.freeze = some (.limited, n) ∨ c.freeze = some (.sequencer, n) ∨ c.freeze = some (.walk l, n)) :
    frozenOut c = decide (c.frzlim ≤ n) := by
  obtain h | h | h := h <;> simp only [frozenOut, h]

theorem releaseSync_idle {core bank : Nat} {w : Work} (h : (w.ctx core bank).sync = none) : releaseSync core bank w = w := by
  simp only [releaseSync, h]

theorem limitBarrier_idle {core bank : Nat} {w : Work} (h : (w.ctx core bank).sync = none) : limitBarrier core bank w = w := by
  simp only [limitBarrier, h]

theorem limitBarrier_held {core bank n mask t : Nat} {w : Work} (h : (w.ctx core bank).sync = some (n, mask, t)) :
    limitBarrier core bank w = if (w.ctx core bank).syncGo = none ∧ t + 600 * (w.dev.launch (w.ctx core bank).ix).barlim < w.dev.now
      then w.raiseHere core bank 49 else w := by
  simp only [limitBarrier, h, Option.isNone_iff_eq_none]

/-- A member of a barrier goes on. -/
def letGo (w : Work) (ix : Nat) (a : Work) (k : Nat) : Work :=
  match runsNow w ix k with
  | none => a
  | some b => a.updCtx k b fun x => if x.sync.isSome then { x with syncGo := some w.dev.now } else x

theorem releaseSync_held {core bank n mask t : Nat} {w : Work} (h : (w.ctx core bank).sync = some (n, mask, t)) :
    releaseSync core bank w = if (maskCores core mask).all (heldAt w (w.ctx core bank).ix n mask) = true then
      (maskCores core mask).foldl (letGo w (w.ctx core bank).ix) w else w := by
  simp only [releaseSync, h]
  rfl

/-- One context's entry of the table of contexts. -/
theorem ctx_updCtx (w : Work) (core bank core' bank' : Nat) (f : Ctx → Ctx) : (w.updCtx core bank f).ctx core' bank' =
    if 2 * core' + bank' = 2 * core + bank then f (w.ctx core bank) else w.ctx core' bank' := by
  split
  · rename_i h
    rw [Work.ctx, Dev.ctx, h]
    exact tab_get_set_same ..
  · rename_i h
    exact tab_get_set_other _ _ _ _ _ h

section LetGo

variable (w : Work) (ix core bank : Nat)

theorem letGo_frame (a : Work) (k : Nat) : (letGo w ix a k).log = a.log ∧ (letGo w ix a k).base = a.base ∧
    (letGo w ix a k).dev.cores = a.dev.cores := by
  rw [letGo]
  split <;> exact ⟨rfl, rfl, rfl⟩

theorem letGo_foldl_frame (ks : List Nat) (a : Work) : (ks.foldl (letGo w ix) a).log = a.log ∧
    (ks.foldl (letGo w ix) a).base = a.base ∧ (ks.foldl (letGo w ix) a).dev.cores = a.dev.cores := by
  induction ks generalizing a with
  | nil => exact ⟨rfl, rfl, rfl⟩
  | cons k ks ih =>
    obtain ⟨hlog, hbase, hcores⟩ := letGo_frame w ix a k
    obtain ⟨hlog', hbase', hcores'⟩ := ih (letGo w ix a k)
    exact ⟨hlog'.trans hlog, hbase'.trans hbase, hcores'.trans hcores⟩

/-- A context that has come to a barrier keeps that, and is let go or left. -/
theorem letGo_ctx {a : Work} {k : Nat} (hs : (a.ctx core bank).sync.isSome = true) :
    ((letGo w ix a k).ctx core bank).sync.isSome = true ∧ (((letGo w ix a k).ctx core bank).syncGo = some w.dev.now ∨
      ((letGo w ix a k).ctx core bank).syncGo = (a.ctx core bank).syncGo) := by
  rw [letGo]
  split
  · exact ⟨hs, .inr rfl⟩
  · rename_i b _
    rw [ctx_updCtx]
    split
    · rename_i hkey
      have hsame : a.ctx k b = a.ctx core bank := congrArg (a.dev.ctxs.get · {}) hkey.symm
      rw [hsame, if_pos hs]
      exact ⟨hs, .inl rfl⟩
    · exact ⟨hs, .inr rfl⟩

theorem letGo_foldl_kept (ks : List Nat) {a : Work} (hs : (a.ctx core bank).sync.isSome = true)
    (hgo : (a.ctx core bank).syncGo = some w.dev.now) : ((ks.foldl (letGo w ix) a).ctx core bank).syncGo = some w.dev.now := by
  induction ks generalizing a with
  | nil => exact hgo
  | cons k ks ih =>
    obtain ⟨hs', hgo'⟩ := letGo_ctx w ix core bank (k := k) hs
    exact ih hs' (hgo'.elim id fun h => h.trans hgo)

/-- The context that a core of the mask runs is let go. -/
theorem letGo_foldl_released {ks : List Nat} {a : Work} (hs : (a.ctx core bank).sync.isSome = true)
    (hruns : runsNow w ix core = some bank) (hmem : core ∈ ks) :
    ((ks.foldl (letGo w ix) a).ctx core bank).syncGo = some w.dev.now := by
  induction ks generalizing a with
  | nil => cases hmem
  | cons k ks ih =>
    by_cases hk : core = k
    · subst hk
      refine letGo_foldl_kept w ix core bank ks (letGo_ctx w ix core bank hs).1 ?_
      simp only [letGo, hruns]
      rw [ctx_updCtx, if_pos rfl, if_pos hs]
    · exact ih (letGo_ctx w ix core bank hs).1 ((List.mem_cons.1 hmem).resolve_left hk)

end LetGo

-- Parks (R119, R225, R329)

theorem parkOnQueue_idle {core bank : Nat} {w : Work} (h : waitedOut (w.ctx core bank) = none) : parkOnQueue core bank w = w := by
  simp only [parkOnQueue, h]

theorem parkOnQueue_waited {core bank : Nat} {w : Work} {ops : List Nat} (h : waitedOut (w.ctx core bank) = some ops) :
    parkOnQueue core bank w = ((quireOf w.dev core bank).foldl (fun a k => a.parkMember k bank (if k = core then ops else [])
      (waitCause (w.ctx core bank) ops)) w).handOver (quireOf w.dev core bank) bank := by
  simp only [parkOnQueue, h]

theorem limitPark_line {core bank l t : Nat} {x : Bool} {w : Work} (h : (w.ctx core bank).st = .parked (.line l (some t) x)) :
    limitPark core bank w =
      if t ≤ w.dev.now then w.updCtx core bank fun c => { c with st := .parked (.woken false) } else w := by
  simp only [limitPark, h]

theorem wakePark_line {core bank l : Nat} {t : Option Nat} {x : Bool} {w : Work}
    (h : (w.ctx core bank).st = .parked (.line l t x)) :
    wakePark core bank w = if x = true then w.updCtx core bank fun c => { c with st := .parked (.woken false) } else w := by
  cases x <;> simp only [wakePark, h] <;> rfl

theorem limitWalk_walk {core bank l t cause : Nat} {w : Work} (h : (w.ctx core bank).st = .parked (.walk l t cause)) :
    limitWalk core bank w = if t ≤ w.dev.now then w.endTask core bank cause else w := by
  simp only [limitWalk, h]

-- Landings and passes (R215, R253, R259)

theorem landAccess_lands {core bank : Nat} {w : Work} {a : Access} {rest : List Access} (h : (w.ctx core bank).accs = a :: rest)
    (hk : (∃ n s i, a.kind = .load n s i) ∨ ∃ x n o v f i, a.kind = .atomic x n o v f i) :
    landAccess core bank w = if w.accessReady core bank = true then w.performAccess core bank else w := by
  obtain ⟨n, s, i, hkind⟩ | ⟨x, n, o, v, f, i, hkind⟩ := hk <;> simp only [landAccess, h, hkind, true_and]

theorem releaseTrigger_held {core n : Nat} {w : Work}
    (h : (w.ctx core (w.core core).cur).freeze = some (.sequencer, n)) :
    releaseTrigger core w = if (w.core core).streaming < 2 then w.thaw core (w.core core).cur else w := by
  simp only [releaseTrigger, h]

theorem completePass_eq {core : Nat} {w : Work} :
    (duePass (w.core core) (w.core core).clk = none → completePass core w = w) ∧
      ∀ p, duePass (w.core core) (w.core core).clk = some p → p.done + 1 = p.rows →
        completePass core w = (w.cycle core (w.core core).clk).raiseAfter core p.ctx := by
  refine ⟨fun h => ?_, fun p h hlast => ?_⟩
  · simp only [completePass, h]
  · simp only [completePass, h, hlast, if_true]

-- Engines (R251, R357, R360, R374)

/-- An entry of a table changed throughout. -/
theorem get?_map_snd {α β : Type} (f : α → β) (t : Tab α) (k : Nat) :
    Tab.get? (t.map fun p => (p.1, f p.2)) k = (t.get? k).map f := by
  induction t with
  | nil => rfl
  | cons c t ih =>
    rw [List.map_cons, Tab.get?, Tab.get?, ih]
    split <;> rfl

theorem finishLoad_ended {core : Nat} {w : Work} {x : WCmd} (h : loadEnded w core = some x) :
    w.finishLoad core = ((loadMembers core x).foldl (fun a k => a.endLoad x k) w).auditCommand core x.ctx 1 x.word := by
  simp only [Work.finishLoad, h]

/-- A core's weight-load stream and banks. -/
def streamBanks (k : Nat) (d : Dev) : List WCmd × Tab WBank := ((d.core k).strm, (d.core k).wb)

section StreamBanks

variable (k : Nat) (w : Work)

theorem waitFor_streamBanks (b : Bool) (l : Nat) : Keeps (streamBanks k) w (w.waitFor b l) := by
  cases b <;> rfl

theorem makeDirty_streamBanks (l : Nat) : Keeps (streamBanks k) w (w.makeDirty l) := by
  rw [Work.makeDirty]
  split
  · exact .refl w
  · refine Keeps.trans (v := if w.dev.coh.isBanked l then w else _) ?_ rfl
    split
    · exact .refl w
    · exact .of_dev (writeN_dev ..)

theorem get_noted (t : Tab Core) (l : Nat) :
    let c := Tab.get (t.map fun p => (p.1, { p.2 with tlb := p.2.tlb.filter fun e => !e.lines.contains l })) k {}
    (c.strm, c.wb) = ((t.get k {}).strm, (t.get k {}).wb) := by
  intro c
  have h := get?_map_snd (fun c : Core => { c with tlb := c.tlb.filter fun e => !e.lines.contains l }) t k
  simp only [c, Tab.get]
  rw [h]
  cases t.get? k <;> rfl

/-- A write of a line takes what cores hold of its translations, no more of a core. -/
theorem noteWrite_streamBanks (l : Nat) : Keeps (streamBanks k) w (w.noteWrite l) := get_noted k w.dev.cores l

theorem cohWrite_streamBanks (t pa n v : Nat) : Keeps (streamBanks k) w (w.cohWrite t pa n v).2 := by
  unfold Work.cohWrite
  extract_lets l h t' w1 w2
  have hw1 : Keeps (streamBanks k) w w1 :=
    ((waitFor_streamBanks ..).trans (makeDirty_streamBanks ..)).trans (.of_dev (pwrite_dev ..))
  have hw2 : Keeps (streamBanks k) w w2 := hw1.trans rfl
  refine Keeps.trans (v := if n = 32 ∨ n = 64 then w2.cleanSectors pa n else w2) ?_ (noteWrite_streamBanks ..)
  split
  · exact hw2.trans rfl
  · exact hw2

/-- The act of a command on its word leaves the streams and banks as they are. -/
theorem actOnWord_streamBanks (core bank va pa wts bytes : Nat) (err : Option (Nat × Nat)) :
    Keeps (streamBanks k) w (w.actOnWord core bank va pa wts bytes err) := by
  unfold Work.actOnWord
  extract_lets raised v r
  have hraised (a : Work) (t : Nat) : Keeps (streamBanks k) a (raised a t) := rfl
  have hr : Keeps (streamBanks k) w r.2 := cohWrite_streamBanks ..
  clear_value r
  split
  · exact hraised ..
  · exact (hr.trans (w := r.2.updCtx core bank fun c => c.armedNow pa v r.1) rfl).trans (hraised ..)

end StreamBanks

/-- What the end of a load leaves of the member's stream and banks. -/
theorem endLoad_streamBanks {w : Work} {x y : WCmd} {k : Nat} {rest : List WCmd} (h : (w.core k).strm = y :: rest) :
    streamBanks k (w.endLoad x k).dev = ((Core.startCal { w.core k with strm := rest }).strm,
      (w.core k).wb.set y.wbank (match x.err with
        | none => loadedBank x ((w.core k).wb.get y.wbank {})
        | some _ => { (w.core k).wb.get y.wbank {} with st := .empty, fmt := 0 })) := by
  simp only [Work.endLoad, h]
  refine (show streamBanks k _ = streamBanks k _ from actOnWord_streamBanks ..).trans ?_
  exact congrArg (fun c : Core => (c.strm, c.wb)) (tab_get_set_same ..)

theorem updCore_core (w : Work) (core : Nat) (f : Core → Core) : (w.updCore core f).dev.core core = f (w.core core) :=
  tab_get_set_same ..

theorem staleTimer_core {core b : Nat} {w : Work} (h : ((w.core core).wb.get b {}).calAt + 300000000 ≤ w.dev.now) :
    (staleTimer core b w).dev.core core =
      { w.core core with wb := (w.core core).wb.set b { (w.core core).wb.get b {} with stale := true } } := by
  rw [staleTimer, updCore_core]
  exact if_pos h

theorem finishCal_due {core : Nat} {w : Work} {x : WCmd} {rest : List WCmd} (h : (w.core core).strm = x :: rest)
    (hdue : x.form = 2 ∧ x.started = true ∧ x.due ≤ (w.core core).raw) :
    w.finishCal core = w.updCore core fun c => { c with
      strm := (Core.startCal { c with strm := rest }).strm
      wb := c.wb.set x.wbank { c.wb.get x.wbank {} with
        stale := false, calAt := w.dev.now, calTemp := w.dev.junc.get (coreCluster core) 180 } } := by
  simp only [Work.finishCal, h]
  exact if_pos hdue

theorem finishCopy_eq {core eng id : Nat} {w : Work} {c : CopyCmd}
    (h : ((w.core core).engineCmds eng).find? (fun x => decide (x.id = id)) = some c) :
    w.finishCopy core eng id = if copyEnded w core c = false then w
      else
        let w1 := w.updCore core fun k => ({ k with
          ceLts := k.ceLts.set eng (max (k.ceLts.get eng 0) (max c.lts c.wts))
          ce := k.ce.set eng ((k.ce.get eng []).filter fun x => match x with
            | .cmd y => decide (y.id ≠ id)
            | .fence _ _ => true) }.dropFences 0).dropFences 1
        if c.form = 13 then w1
        else (w1.actOnWord core c.ctx c.a.toNat c.wordPa (max c.lts c.wts) c.bytes c.err).auditCommand core c.ctx 1 c.a.toNat := by
  simp only [Work.finishCopy, h] <;> rfl

theorem operateAtHome_eq (core bank : Nat) (w : Work) : operateAtHome core bank w = match (w.ctx core bank).nextQueueOp with
    | none => w
    | some q => w.performQueueOp core bank q := rfl

-- The end of a trap entry (R227)

/-- What decides the level of a trap. -/
def levelItems (c : Ctx) : BitVec 64 × Nat × Nat × Bool := (c.tdel, c.lvl, c.lssz, c.handler)

theorem trapLevel_congr {c c' : Ctx} (h : levelItems c = levelItems c') (cause : Nat) : c.trapLevel cause = c'.trapLevel cause := by
  simp only [levelItems, Prod.mk.injEq] at h
  obtain ⟨hdel, hlvl, hsize, hhandler⟩ := h
  unfold Ctx.trapLevel Ctx.hasFrame
  rw [hdel, hlvl, hsize, hhandler]

theorem putS_levelItems (c : Ctx) (dst : Option Nat) (v : BitVec 64) (m : Nat) : levelItems (c.putS dst v m) = levelItems c := by
  cases dst with
  | none => rfl
  | some n =>
    rw [Ctx.putS]
    split <;> rfl

theorem updCtx_levelItems (w : Work) (core bank : Nat) {f : Ctx → Ctx} (h : ∀ c, levelItems (f c) = levelItems c) :
    levelItems ((w.updCtx core bank f).ctx core bank) = levelItems (w.ctx core bank) := by
  rw [ctx_updCtx, if_pos rfl, h]

theorem setMark_levelItems (c : Ctx) (k cause : Nat) : levelItems (c.setMark k cause) = levelItems c := rfl

theorem scalar_levelItems (w : Work) (core bank latch : Nat) (val : BitVec 64) (dst : Option Nat) (mark : Nat) :
    levelItems ((landEffect w core bank (.scalar latch val dst mark)).ctx core bank) = levelItems (w.ctx core bank) := by
  rw [landEffect]
  refine updCtx_levelItems w core bank fun c => ?_
  rw [putS_levelItems, setMark_levelItems]
  rfl

theorem landOut_levelItems (w : Work) (core bank : Nat) (o : Outstanding) (a : Arrived) :
    levelItems ((w.landOut core bank o a).ctx core bank) = levelItems (w.ctx core bank) := by
  unfold Work.landOut
  extract_lets w1
  have hw1 : w1.ctx core bank = w.ctx core bank := by
    change (if _ then _ else _ : Work).ctx core bank = _
    split
    · rfl
    · exact congrArg (fun t : Tab Ctx => t.get (2 * core + bank) {}) (lsPut_ctxs ..)
  rw [← hw1]
  refine (scalar_levelItems _ core bank o.latch a.val o.dst a.mark).trans ?_
  exact updCtx_levelItems w1 core bank (f := fun c => { c.raiseLts a.lts with outs := c.outs.filter fun x => decide (x.id ≠ o.id) })
    fun c => rfl

theorem waitFor_ctx (w : Work) (b : Bool) (l core bank : Nat) : (w.waitFor b l).ctx core bank = w.ctx core bank := by
  cases b <;> rfl

theorem landReady_levelItems (core bank n : Nat) (w : Work) :
    levelItems ((landReady core bank n w).ctx core bank) = levelItems (w.ctx core bank) := by
  induction n generalizing w with
  | zero => rfl
  | succ n ih =>
    rw [landReady]
    split
    · rw [waitFor_ctx]
    · split
      · rfl
      · rename_i o a _
        have hland := landOut_levelItems w core bank o a
        generalize w.landOut core bank o a = v at hland ⊢
        dsimp only
        rw [ih]
        cases a.fault with
        | none => exact hland
        | some f =>
          exact (updCtx_levelItems v core bank (f := fun x => { x with second := x.second ++ [(f.1, f.2, o.pc, true)] })
            fun c => rfl).trans hland

theorem finishEntry_waits {core bank : Nat} {w : Work} {e : Entry} (h : (w.ctx core bank).st = .entering e)
    (hq : ∃ q ∈ (w.ctx core bank).qops, q.form ≠ 0x40) (hearly : (w.core core).raw < e.begun + (w.ctx core bank).frzlim) :
    finishEntry core bank w = w := by
  obtain ⟨q, hmem, hform⟩ := hq
  simp only [finishEntry, h]
  exact if_pos ⟨List.any_eq_true.2 ⟨q, hmem, decide_eq_true hform⟩, hearly⟩

/-- An entry of a trap of a level with no queue operation left. -/
theorem finishEntry_completes {core bank lvl : Nat} {w : Work} {e : Entry} (h : (w.ctx core bank).st = .entering e)
    (hq : (w.ctx core bank).qops = []) (hpark : e.park = none) (hwatch : e.watch = none)
    (hlvl : (w.ctx core bank).trapLevel e.cause = some lvl) :
    let w1 := (landReady core bank (w.ctx core bank).outs.length w).completeEntry core bank lvl e
    finishEntry core bank w = takeSecond core bank (w1.ctx core bank).second.length w1 := by
  have hlvl' := (trapLevel_congr (landReady_levelItems core bank (w.ctx core bank).outs.length w) e.cause).trans hlvl
  have hend : (landReady core bank (w.ctx core bank).outs.length w).endEntry core bank e =
      (landReady core bank (w.ctx core bank).outs.length w).completeEntry core bank lvl e := by
    rw [Work.endEntry, hwatch, hpark]
    simp only [Option.isSome_none, Bool.false_eq_true, if_false, hlvl']
  simp only [finishEntry, h, hq, List.any_nil, Bool.false_eq_true, false_and, if_false, hpark, hwatch, Option.isSome_none,
    or_self, hend]

-- Pre-emption and holds (R75, R232)

theorem preempt_unready {core bank : Nat} {w : Work} (h : preemptNow w (quireOf w.dev core bank) bank = false) :
    preempt core bank w = w := if_pos h

theorem preempt_honoured {core bank : Nat} {w : Work} {areas : List Nat}
    (h : preemptNow w (quireOf w.dev core bank) bank = true)
    (hareas : placeAreas (w.dev.partOf (w.ctx ((quireOf w.dev core bank).headD core) bank).part)
      (areaSize (w.dev.launch (w.ctx ((quireOf w.dev core bank).headD core) bank).ix)) (quireOf w.dev core bank).length
      (areasInUse w.dev (w.ctx ((quireOf w.dev core bank).headD core) bank).part) = some areas) :
    let q := quireOf w.dev core bank
    let c := w.ctx (q.headD core) bank
    let cl := coreCluster (q.headD core)
    let w0 := q.foldl (fun a k => a.drainMember k bank) w
    preempt core bank w = if (q.any fun k => faultLanded w0 k bank) = true then w0 else
      ((((w0.saveMembers bank (q.zip areas)).releaseQuire q bank).updLaunch c.ix fun x => { x with
        saved := x.saved ++ [{ task := c.task.toNat, cluster := cl, areas := areas }]
        disp := x.disp.set cl (x.disp.get cl 0 - 1) }).settleLaunch c.ix) := by
  refine (if_neg (by rw [h]; decide)).trans ?_
  rw [hareas]

/-- Settles O49: a case of each of the cores' events. -/
theorem coreEvents : Obligations.CoreEvents := by
  unfold Obligations.CoreEvents
  refine ⟨fun σ core bank => ?limits, fun σ core bank a rest h hk => ?landing, fun σ core n => ?trigger, fun σ core => ?pass,
    fun σ core x h => next_of_eq (finishLoad_ended h), fun w x k y rest h => ?load, fun σ core x rest h hform hstarted hdue => ?cal,
    fun σ core b => ?stale, fun σ core eng id c h => ?copy, fun σ core bank => ?queue,
    fun σ core bank e lvl => ?entry, fun σ core bank e => ?waits, fun σ core bank h => next_of_eq (preempt_unready h),
    fun σ core bank areas => ?honoured, fun σ core bank => next_ite rfl⟩
  case limits =>
    intro c w woken
    refine ⟨next_ite rfl, next_ite rfl, fun n l h => frozenOut_eq h,
      fun h => ⟨next_of_eq (releaseSync_idle h), next_of_eq (limitBarrier_idle h)⟩, fun n mask t h => ?_,
      fun h => next_of_eq (parkOnQueue_idle h), fun ops h => next_of_eq (parkOnQueue_waited h),
      fun l t x h => (next_of_eq (limitPark_line (w := w) h)).trans (next_ite rfl),
      fun l t x h => (next_of_eq (wakePark_line (w := w) h)).trans (next_ite rfl),
      fun l t cause h => (next_of_eq (limitWalk_walk (w := w) h)).trans (next_ite rfl)⟩
    refine ⟨fun hheld => ?_, fun hheld => ?_, (next_of_eq (limitBarrier_held (w := w) h)).trans (next_ite rfl)⟩
    · exact next_of_eq ((releaseSync_held (w := w) h).trans (if_neg (ne_true_of_eq_false hheld)))
    · refine ⟨_, next_of_eq ((releaseSync_held (w := w) h).trans (if_pos hheld)), ?_⟩
      obtain ⟨hlog, hbase, hcores⟩ := letGo_foldl_frame w c.ix (maskCores core mask) w
      refine ⟨(BytesKept.same ⟨hbase, hlog⟩), hcores, fun hruns hmem => ?_⟩
      exact letGo_foldl_released w c.ix core bank (Option.isSome_iff_exists.2 ⟨_, h⟩) hruns hmem
  case landing => exact (next_of_eq (landAccess_lands (w := Work.begin σ) h hk)).trans (next_ite rfl)
  case trigger =>
    intro b h
    exact (next_of_eq (releaseTrigger_held (w := Work.begin σ) h)).trans (next_ite rfl)
  case pass =>
    obtain ⟨hnone, hsome⟩ := completePass_eq (core := core) (w := Work.begin σ)
    exact ⟨fun h => next_of_eq (hnone h), fun p h hlast => next_of_eq (hsome p h hlast)⟩
  case load =>
    obtain ⟨hstrm, hbanks⟩ := Prod.mk.inj (endLoad_streamBanks (x := x) h)
    refine ⟨hstrm, fun herr => ?_, fun herr => ?_⟩
    · have hbank : ((w.endLoad x k).core k).wb.get y.wbank {} = loadedBank x ((w.core k).wb.get y.wbank {}) := by
        refine (congrArg (fun t : Tab WBank => t.get y.wbank {}) hbanks).trans ?_
        rw [tab_get_set_same, herr]
      exact ⟨hbank, by rw [hbank]; rfl⟩
    · obtain ⟨e, he⟩ := Option.ne_none_iff_exists'.1 herr
      refine (congrArg (fun t : Tab WBank => (t.get y.wbank {}).st) hbanks).trans ?_
      rw [tab_get_set_same, he]
  case cal =>
    refine ⟨_, next_of_eq (finishCal_due (w := Work.begin σ) h ⟨hform, hstarted, hdue⟩), fun _ => commit_read .., rfl, ?_⟩
    rw [commit_dev, updCore_core]
    exact ⟨rfl, congrArg WBank.stale (tab_get_set_same ..), congrArg WBank.calAt (tab_get_set_same ..)⟩
  case stale =>
    intro k hlate
    refine ⟨_, rfl, fun _ => commit_read .., rfl, ?_⟩
    refine (congrArg (fun c : Core => c.wb.get b {}) (staleTimer_core (w := Work.begin σ) hlate)).trans ?_
    exact tab_get_set_same ..
  case copy =>
    refine ⟨fun hended => next_of_eq ((finishCopy_eq (w := Work.begin σ) h).trans (if_pos hended)), fun hended => ?_⟩
    intro w1
    exact next_of_eq ((finishCopy_eq (w := Work.begin σ) h).trans (if_neg (ne_false_of_eq_true hended)))
  case queue =>
    refine (next_of_eq (operateAtHome_eq core bank (Work.begin σ))).trans ?_
    rw [show (Work.begin σ).ctx core bank = σ.dev.ctx core bank from rfl]
    cases (σ.dev.ctx core bank).nextQueueOp <;> rfl
  case entry =>
    intro c h hq hpark hwatch hlvl w1
    exact next_of_eq (finishEntry_completes (w := Work.begin σ) h hq hpark hwatch hlvl)
  case waits =>
    intro c h hq hearly
    exact next_of_eq (finishEntry_waits (w := Work.begin σ) h hq hearly)
  case honoured =>
    intro q c cl hnow hareas w0
    have heq := preempt_honoured (w := Work.begin σ) hnow hareas
    refine ⟨fun hfault => next_of_eq (heq.trans (if_pos ?_)), fun hfault => next_of_eq (heq.trans (if_neg ?_))⟩
    · exact List.any_eq_true.2 hfault
    · rw [List.any_eq_true]
      rintro ⟨k, hk, htrue⟩
      exact absurd (hfault k hk) (ne_false_of_eq_true htrue)

end Sys2Proof.Proofs.CoreEventRules

end

section
/-! The command front end: fetching, carrying out the packets of a stream, and the services behind them (R77, R79, R83, R85 to R102,
R127). -/

namespace Sys2Proof.Proofs.CommandStreams

open Sys2Proof Sys2Proof.Machine Sys2Proof.Safety Sys2Proof.Laws Sys2Proof.Proofs.PackageLinks
open Sys2Proof.Proofs.SchedulerEvents Sys2Proof.Proofs.CoreEventRules

-- Fetching (R85, R88, R98)

/-- What keeps the front end from the head slot is one of three reasons. -/
theorem blockReason_mem (w : Work) (q : Nat) : blockReason w q ∈ [0, 8, 9, 10] := by
  unfold blockReason
  extract_lets b
  split
  · decide
  · split
    · decide
    · split <;> decide

theorem ifSound_reason {w : Work} {q : Nat} {go : Work → Work} :
    (blockReason w q = 0 → w.ifSound q go = go w) ∧
      (blockReason w q = 8 → w.ifSound q go = (w.policyWait (feDie w q)).poisonQueue q) ∧
      (blockReason w q = 9 → w.ifSound q go = w.queueEvent q 0 20 9) ∧
      (blockReason w q = 10 → w.ifSound q go = w.queueEvent q 0 19 10) := by
  refine ⟨fun h => ?_, fun h => ?_, fun h => ?_, fun h => ?_⟩ <;>
  · rw [Work.ifSound, h]
    rfl

section ReadHead

variable {w : Work} {q : Nat}

/-- The head slot of a queue that holds a packet, read. -/
theorem readHead_eq (hused : (w.block q).used ≠ 0) (hfault : headFault w q = 0) :
    let s := w.dev.stream q
    let r := Work.agentRead (feAgent (feDie w q)) 2 (headSlot w q) 64 w
    readHead q w =
      if pkV r.1 = false then
        if s.stallAt.isSome then r.2 else r.2.updStream q fun x => { x with stallAt := some (w.dev.now + 6000000) }
      else if pkCheck r.1 = false ∨ pkSeq r.1 ≠ s.seq then
        if 4 ≤ s.tries then r.2.discard q 1
        else r.2.updStream q fun x => { x with tries := x.tries + 1, retryAt := some (w.dev.now + 64) }
      else if packetReason r.2 q (clearV r.1) ≠ 0 then r.2.discard q (packetReason r.2 q (clearV r.1))
      else (r.2.freeSlot q).updStream q fun x => x.accept (clearV r.1) := by
  intro s r
  have hgood : decide (headFault w q ≠ 0) = false := by simp [hfault]
  unfold readHead
  extract_lets b bad r' p w1 why
  have hr : r' = r := by
    change (if bad = true then _ else _) = r
    rw [show bad = false from hgood]
    rfl
  have hbad : bad = false := hgood
  rw [if_neg hused]
  simp only [why, w1, p, hr, hbad, and_true, Bool.false_eq_true, false_or]

theorem clearV_eq {p : Nat} (h : pkV p = true) : clearV p = p - 2 ^ 15 := if_pos h

end ReadHead

theorem fetchPacket_goes {w : Work} {q : Nat} (hmay : mayFetch w q = true) (hretry : (w.dev.stream q).retryAt = none) :
    fetchPacket q w = (w.updHome q fun h => { h with notice := false }).ifSound q (readHead q) :=
  if_neg (by simp [hmay, hretry])

theorem retryFetch_due {w : Work} {q t : Nat} (ht : (w.dev.stream q).retryAt = some t) (hdue : t ≤ w.dev.now)
    (hmay : mayFetch w q = true) :
    retryFetch q w = w.ifSound q fun a => readHead q (a.updStream q fun x => { x with retryAt := none }) := by
  simp only [retryFetch, ht]
  exact if_neg (by simp [hmay, hdue])

theorem stallFetch_due {w : Work} {q t : Nat} (ht : (w.dev.stream q).stallAt = some t) (hdue : t ≤ w.dev.now)
    (hmay : mayFetch w q = true) :
    stallFetch q w = w.ifSound q fun a =>
      if pkV (a.pread (headSlot a q) 2) = true then a.updStream q fun x => { x with stallAt := none } else a.discard q 6 := by
  simp only [stallFetch, ht]
  exact if_neg (by simp [hmay, hdue])

/-- Settles O50: the head slot of a sound block, case by case. -/
theorem packetFetching : Obligations.PacketFetching := by
  unfold Obligations.PacketFetching
  refine ⟨fun σ q h => next_of_eq (if_pos h), fun σ q hmay hretry => next_of_eq (fetchPacket_goes (w := Work.begin σ) hmay hretry),
    fun w q go => ⟨ifSound_reason.1, ifSound_reason.2.1, ifSound_reason.2.2.1, ifSound_reason.2.2.2, blockReason_mem w q⟩,
    fun w q hused hfault => ?head,
    fun σ q t ht hdue hmay => next_of_eq (retryFetch_due (w := Work.begin σ) ht hdue hmay),
    fun σ q t ht hdue hmay => next_of_eq (stallFetch_due (w := Work.begin σ) ht hdue hmay)⟩
  case head =>
    intro s r
    have heq := readHead_eq hused hfault
    refine ⟨fun hv hstall => ?_, fun hv hbad htries => ?_, fun hv hbad htries => ?_, fun hv hcheck hseq => ?_⟩
    · exact heq.trans ((if_pos hv).trans (if_neg (by rw [hstall]; decide)))
    · exact heq.trans ((if_neg (ne_false_of_eq_true hv)).trans ((if_pos hbad).trans (if_neg (Nat.not_le.2 htries))))
    · exact heq.trans ((if_neg (ne_false_of_eq_true hv)).trans ((if_pos hbad).trans (if_pos htries)))
    · intro p
      refine heq.trans ((if_neg (ne_false_of_eq_true hv)).trans ((if_neg ?_).trans ?_))
      · rintro (h | h)
        · exact absurd hcheck (ne_true_of_eq_false h)
        · exact h hseq
      · rw [clearV_eq hv, ite_not]

end Sys2Proof.Proofs.CommandStreams

end

section
/-! The packets of a command stream and the services that carry some of them out (R77, R79, R83, R89 to R102, R127). -/

namespace Sys2Proof.Proofs.PacketServices

open Sys2Proof Sys2Proof.Machine Sys2Proof.Safety Sys2Proof.Laws Sys2Proof.Proofs.PackageLinks
open Sys2Proof.Proofs.SchedulerEvents Sys2Proof.Proofs.CoreEventRules

-- Reads by the front end

/-- A read: no byte changes, the front end's records stay, and what waits for a line goes on waiting. -/
structure Reads (w w' : Work) : Prop where
  base : w'.base = w.base
  log : w'.log = w.log
  fe : w'.dev.fe = w.dev.fe
  waits : w.dev.coh.waits ≠ [] → w'.dev.coh.waits ≠ []

theorem Reads.refl (w : Work) : Reads w w := ⟨rfl, rfl, rfl, id⟩

theorem Reads.trans {u v w : Work} (h : Reads u v) (h' : Reads v w) : Reads u w :=
  ⟨h'.base.trans h.base, h'.log.trans h.log, h'.fe.trans h.fe, h'.waits ∘ h.waits⟩

theorem waitFor_reads (w : Work) (b : Bool) (l : Nat) : Reads w (w.waitFor b l) := by
  cases b with
  | false => exact .refl w
  | true => exact ⟨rfl, rfl, rfl, fun _ => List.cons_ne_nil _ _⟩

theorem awaits_reads (w : Work) (e : XErr) : Reads w (w.awaits e) := by
  cases e with
  | busy l => exact waitFor_reads ..
  | absent l => exact .refl w
  | malformed => exact .refl w
  | refused c => exact .refl w

theorem agentRead_reads (agent k pa n : Nat) (w : Work) : Reads w (Work.agentRead agent k pa n w).2 := by
  induction k generalizing pa n w with
  | zero => exact .refl w
  | succ k ih =>
    rw [Work.agentRead]
    split
    · exact .refl w
    · have hwait := waitFor_reads w (readWaits w.dev (pa / 64)) (pa / 64)
      have hlease : Reads w ((w.lease (w.dev.agentTime agent) agentLease (pa / 64)).raiseAgent agent
          (max (w.dev.agentTime agent) (w.dev.coh.line (pa / 64)).wts)) := ⟨hwait.base, hwait.log, hwait.fe, hwait.waits⟩
      exact hlease.trans (ih (pa + min n (64 - pa % 64)) (n - min n (64 - pa % 64)) _)

theorem devRead_reads {w : Work} {part die va n : Nat} {x : Nat × Work} (h : w.devRead part die va n = .ok x) :
    Reads w x.2 := by
  rw [Work.devRead] at h
  split at h
  · cases h
  · split at h
    · cases h
    · split at h
      · cases h
      · split at h
        · cases h
          exact ⟨rfl, rfl, rfl, id⟩
        · cases h
          exact agentRead_reads ..

theorem devRecords_reads {part die z va n : Nat} {w : Work} {x : Nat × Work} (h : w.devRecords part die z va n = .ok x) :
    Reads w x.2 := by
  induction n generalizing w va x with
  | zero =>
    cases h
    exact .refl w
  | succ n ih =>
    rw [Work.devRecords] at h
    split at h
    · cases h
    · rename_i y hy
      split at h
      · cases h
      · rename_i z hz
        obtain ⟨x1, x2⟩ := x
        obtain ⟨-, hx⟩ := Prod.mk.inj (Except.ok.inj h)
        change Reads w x2
        rw [← hx]
        exact (devRead_reads hy).trans (ih hz)

theorem readGraph_reads {w : Work} {part die va : Nat} {x : Nat × Work} (h : readGraph w part die va = .ok x) :
    Reads w x.2 := by
  unfold readGraph at h
  cases hh : w.devRecords part die 64 va 1 with
  | error e => rw [hh] at h; cases h
  | ok y =>
    rw [hh] at h
    simp only [bind, Except.bind] at h
    split at h
    · cases hb : y.2.devRecords part die 64 (va + 64) (2 * graphCount y.1) with
      | error e => rw [hb] at h; cases h
      | ok z =>
        rw [hb] at h
        obtain ⟨x1, x2⟩ := x
        obtain ⟨-, hx⟩ := Prod.mk.inj (Except.ok.inj h)
        change Reads w x2
        rw [← hx]
        exact (devRecords_reads hh).trans (devRecords_reads hb)
    · cases h
      exact devRecords_reads hh

theorem feRead_reads {w : Work} {die part va n : Nat} {x : Nat × Work} (h : w.feRead die part va n = .ok x) : Reads w x.2 := by
  rw [Work.feRead] at h
  split at h
  · cases h
  · split at h
    · cases h
    · split at h
      · cases h
      · split at h
        · cases h
          exact ⟨rfl, rfl, rfl, id⟩
        · split at h
          · cases h
          · cases h
            exact agentRead_reads ..

-- Launches (R90, R91)

/-- Where a policy core runs, nothing waits for it. -/
theorem policyWait_runs {w : Work} {die : Nat} (h : w.dev.policy.get die 0 = 0) : w.policyWait die = w := by
  rw [Work.policyWait, Work.waitFor, if_neg (by simp [h])]

/-- Where it restarts, what asks for it waits. -/
theorem policyWait_restarts {w : Work} {die : Nat} (h : w.dev.policy.get die 0 ≠ 0) :
    (w.policyWait die).dev.coh.waits ≠ [] := by
  rw [Work.policyWait, Work.waitFor, if_pos (by simp [h])]
  exact List.cons_ne_nil _ _

theorem asyncStart_coh (w : Work) (q : Nat) : (w.asyncStart q).dev.coh = w.dev.coh := rfl

theorem carryLaunch_full {kind q : Nat} {w : Work} (h : freeLaunch w.dev = none) : carryLaunch kind q w = w := by
  rw [carryLaunch, h]
  cases current w q kind <;> rfl

theorem carryLaunch_eq {kind q p ix : Nat} {w : Work} (hp : current w q kind = some p) (hix : freeLaunch w.dev = some ix) :
    carryLaunch kind q w = ((w.policyWait (feDie w q)).asyncStart q).startLaunch ix p (ticketOf w q p)
      (decide ((w.dev.stream q).st = 1)) := by
  simp only [carryLaunch, hp, hix]

/-- An entry of the launch table changes no line's waiting. -/
theorem enterLaunch_waits (w : Work) (ix p : Nat) (t : Ticket) (qr : Bool) (sizes sizeErr : Option Nat) :
    (w.enterLaunch ix p t qr sizes sizeErr).dev.coh.waits = w.dev.coh.waits := by
  unfold Work.enterLaunch
  extract_lets die l w1
  split <;> rfl

theorem startLaunch_ind (w : Work) (ix p : Nat) (t : Ticket) (qr : Bool) (h : pkKind p = 0x81) :
    w.startLaunch ix p t qr = match w.feRead (feDie w t.q) t.part (packedBytes p 32 8) 16 with
      | .error e => (w.awaits e).enterLaunch ix p t qr none (some (e.cause 8))
      | .ok r => r.2.enterLaunch ix p t qr (some r.1) none := if_neg (not_not_intro h)

theorem startLaunch_waits {w : Work} (ix p : Nat) (t : Ticket) (qr : Bool) (h : w.dev.coh.waits ≠ []) :
    (w.startLaunch ix p t qr).dev.coh.waits ≠ [] := by
  by_cases hk : pkKind p = 0x81
  · rw [startLaunch_ind w ix p t qr hk]
    cases hr : w.feRead (feDie w t.q) t.part (packedBytes p 32 8) 16 with
    | error e => exact Sys2Proof.Proofs.Encoding.ne_of_eq_ne (enterLaunch_waits ..) ((awaits_reads w e).waits h)
    | ok r => exact Sys2Proof.Proofs.Encoding.ne_of_eq_ne (enterLaunch_waits ..) ((feRead_reads hr).waits h)
  · rw [Work.startLaunch, if_pos hk, enterLaunch_waits]
    exact h

theorem enterLaunch_entry (w : Work) (ix p : Nat) (t : Ticket) (sizes sizeErr : Option Nat) :
    ∃ l : Launch, (w.enterLaunch ix p t false sizes sizeErr).dev.launches = w.dev.launches.set ix l ∧ l.st = 1 ∧ l.part = t.part ∧
      l.hdrVa = packedBytes p 8 8 ∧ l.args = packedBytes p 16 8 ∧ l.cword = t.cword ∧ l.sizes = sizes ∧ l.sizeErr = sizeErr ∧
      l.admitted = false := by
  refine ⟨_, rfl, rfl, rfl, rfl, rfl, rfl, rfl, rfl, rfl⟩

theorem enterLaunch_kept (w : Work) (ix p : Nat) (t : Ticket) (sizes sizeErr : Option Nat) :
    (w.enterLaunch ix p t false sizes sizeErr).log = w.log ∧ (w.enterLaunch ix p t false sizes sizeErr).dev.ctxs = w.dev.ctxs :=
  ⟨rfl, rfl⟩

theorem launch_of_set {v w : Work} {ix : Nat} {l : Launch} (h : v.dev.launches = w.dev.launches.set ix l) :
    v.dev.launch ix = l ∧ ∀ k, k ≠ ix → v.dev.launches.get? k = w.dev.launches.get? k := by
  rw [Dev.launch, h]
  exact ⟨tab_get_set_same .., fun k hk => tab_get?_set_other _ _ _ _ hk⟩

-- WAIT, SIGNAL, COND, loops, FENCE (R87, R88, R92 to R94)

section Carried

variable {w : Work} {q p : Nat}

theorem beginWait_starts (hp : current w q 0x82 = some p) (h : (w.dev.stream q).waiting = false) :
    beginWait q w = (w.updStream q fun s => { s with
      waiting := true
      limit := if packedBytes p 28 4 = 0 then none else some (w.dev.now + 600 * packedBytes p 28 4) }).tryWait q p := by
  simp only [beginWait, hp]
  exact if_neg (by rw [h]; decide)

theorem recheckWait_waiting (hp : current w q 0x82 = some p) (h : (w.dev.stream q).waiting = true) :
    recheckWait q w = w.tryWait q p := by
  simp only [recheckWait, hp]
  exact if_pos h

theorem limitWait_due {t : Nat} {e : Bool × Work} (hp : current w q 0x82 = some p) (ht : (w.dev.stream q).limit = some t)
    (hdue : t ≤ w.dev.now) (he : evalTest w q p = .ok e) :
    limitWait q w = if e.1 = true then e.2.syncDone q p 0 else e.2.queueEvent q (pkSeq p) 0 7 := by
  simp only [limitWait, hp, ht]
  refine (if_neg (Nat.not_lt.2 hdue)).trans ?_
  rw [he]

theorem tryWait_error {e : XErr} (h : evalTest w q p = .error e) : w.tryWait q p = w.wordFailed q p e := by
  rw [Work.tryWait, h]

theorem tryWait_ok {r : Bool × Work} (h : evalTest w q p = .ok r) :
    w.tryWait q p = if r.1 then r.2.syncDone q p 0
      else r.2.updStream q fun s => { s with recheck := w.dev.now + 600, watch := wordLine w q p } := by
  rw [Work.tryWait, h]

theorem carrySignal_eq (hp : current w q 0x83 = some p) : carrySignal q w = match signalWord w (feDie w q) p with
    | .error e => w.wordFailed q p e
    | .ok w1 => w1.syncDone q p 0 := by
  simp only [carrySignal, hp] <;> rfl

theorem carryCond_ok {r : Bool × Work} (hp : current w q 0x86 = some p) (hr : evalTest w q p = .ok r) :
    carryCond q w = if r.1 = true then r.2.syncDone q p 0
      else (r.2.syncDone q p 0).updStream q fun s => { s with skip := packedBytes p 25 1 } := by
  simp only [carryCond, hp, hr]

theorem carryLoopBegin_eq (hp : current w q 0x84 = some p) :
    carryLoopBegin q w = (w.syncDone q p 0).updStream q fun s => s.openLoop (packedBytes p 8 4) := by
  simp only [carryLoopBegin, hp]

theorem carryLoopEnd_eq (hp : current w q 0x85 = some p) :
    carryLoopEnd q w = (w.syncDone q p 0).updStream q Stream.closeLoop := by
  simp only [carryLoopEnd, hp]

theorem carryFence_eq (hp : current w q 0x88 = some p) :
    carryFence q w = (w.raiseAgent (feAgent (feDie w q)) (releaseTime w.dev)).syncDone q p 0 := by
  simp only [carryFence, hp]

theorem limitWait_none (h : current w q 0x82 = none) : limitWait q w = w := by
  rw [limitWait, h]

end Carried

/-- A packet of none of the kinds leaves the machine as it is. -/
theorem carried_none {σ : State} {q k : Nat} {x : Instr}
    (hx : (x, k) ∈ [(Instr.launch q, 0x80), (.launchInd q, 0x81), (.wait q, 0x82), (.waitRecheck q, 0x82), (.signal q, 0x83),
      (.cond q, 0x86), (.loopBegin q, 0x84), (.loopEnd q, 0x85), (.fence q, 0x88)])
    (h : current (Work.begin σ) q k = none) : exec x σ = .next (same σ) := by
  have hlaunch (k : Nat) (h : current (Work.begin σ) q k = none) : carryLaunch k q (Work.begin σ) = Work.begin σ := by
    rw [carryLaunch, h]
  simp only [List.mem_cons, Prod.mk.injEq, List.not_mem_nil, or_false] at hx
  rcases hx with ⟨rfl, rfl⟩ | ⟨rfl, rfl⟩ | ⟨rfl, rfl⟩ | ⟨rfl, rfl⟩ | ⟨rfl, rfl⟩ | ⟨rfl, rfl⟩ | ⟨rfl, rfl⟩ | ⟨rfl, rfl⟩ | ⟨rfl, rfl⟩
  · exact next_of_eq (hlaunch _ h)
  · exact next_of_eq (hlaunch _ h)
  · exact next_of_eq (w := Work.begin σ) (by simp only [beginWait, h])
  · exact next_of_eq (w := Work.begin σ) (by simp only [recheckWait, h])
  · exact next_of_eq (w := Work.begin σ) (by simp only [carrySignal, h])
  · exact next_of_eq (w := Work.begin σ) (by simp only [carryCond, h])
  · exact next_of_eq (w := Work.begin σ) (by simp only [carryLoopBegin, h])
  · exact next_of_eq (w := Work.begin σ) (by simp only [carryLoopEnd, h])
  · exact next_of_eq (w := Work.begin σ) (by simp only [carryFence, h])

-- Event records (R101)

/-- The oldest record of a partition is no longer to be placed, and what waits for its place is freed. -/
def recordGone (part : Nat) (e : EventRec) (x : Work) : Work :=
  x.mapDev fun d => { d with
    events := dropRecord d.events part
    launches := match e.frees with
      | some ix => d.launches.del ix
      | none => d.launches }

/-- The record stands in its queue. -/
def recordSent (part : Nat) (e : EventRec) (x : Work) : Work :=
  (recordGone part e x).mapDev fun d => { d with
    parts := d.parts.set part { d.partOf part with evSeq := ((d.partOf part).evSeq + 1) % 2 ^ 32 } }

/-- What the home's answer to a record's enqueue leaves. -/
def recordPlaced (part die : Nat) (e : EventRec) (evq : Nat) (r : HomeAns × Work) : Work :=
  match r.1 with
  | .done _ _ _ => recordSent part e r.2
  | .full => r.2
  | .empty => r.2
  | .waiting => r.2
  | .held => r.2
  | .refused c => (recordGone part e r.2).logError c part (feAgent die) evq

theorem recordPlaced_full {part die : Nat} {e : EventRec} {evq : Nat} {r : HomeAns × Work} (h : r.1 = .full) :
    recordPlaced part die e evq r = r.2 := by
  rw [recordPlaced, h]

theorem recordPlaced_done {part die : Nat} {e : EventRec} {evq a b c : Nat} {r : HomeAns × Work} (h : r.1 = .done a b c) :
    recordPlaced part die e evq r = recordSent part e r.2 := by
  rw [recordPlaced, h]

theorem placeRecord_none {part : Nat} {w : Work} (h : oldestRecord w.dev.events part = none) : placeRecord part w = w := by
  simp only [placeRecord, h]

/-- A record for a queue that takes it goes to the queue's home. -/
theorem placeRecord_home {w : Work} {part die : Nat} {e : EventRec} {x : Xlat} (he : oldestRecord w.dev.events part = some e)
    (hsome : ∀ q, e.stream = some q → die = feDie w q) (hnone : e.stream = none → die = 0) (hruns : w.dev.policy.get die 0 = 0)
    (hx : translate w (deviceAsker w.dev part die) [.read] (w.dev.partOf part).evq = .ok x) (hfault : reachFault w.dev die x.pa = 0)
    (hreach : reachable w.dev die (queueSlice w x.pa) = true) (hevq : (w.dev.partOf part).evq ≠ 0)
    (hrole : (w.block x.pa).role = 2) :
    placeRecord part w = recordPlaced part die e (w.dev.partOf part).evq
      (w.atHome x.pa (queueSlice w x.pa) (w.dev.partOf part).evq (w.dev.agentTime (feAgent die)) .device
        (.enqueue (recordBytes e (w.dev.partOf part).evSeq) false)) := by
  rw [placeRecord, he]
  dsimp -zeta only
  extract_lets die' w1 gone p
  have hdie : die = die' := by
    cases hs : e.stream with
    | none => simpa only [die', hs] using hnone hs
    | some q => simpa only [die', hs] using hsome q hs
  clear_value die'
  subst hdie
  have hw : w1 = w := policyWait_runs hruns
  clear_value w1
  subst hw
  rw [show translate w1 (deviceAsker w1.dev part die) [.read] p.evq = .ok x from hx]
  dsimp -zeta only
  refine (if_neg (by simp [hfault, hreach])).trans ((if_neg (by simp [p, hevq, hrole])).trans ?_)
  rfl

-- Services (R77, R79, R95 to R98, R102)

section Served

variable {w : Work} {q p : Nat}

theorem carryCopy_eq (hp : current w q 0x87 = some p) : carryCopy q w = if 1024 ≤ serviceLoad w (feDie w q) then w
    else (w.asyncStart q).addCopy (feDie w q) (ticketOf w q p) p (w.dev.agentTime (feAgent (feDie w q))) := by
  simp only [carryCopy, hp]

theorem addCopy_copies (w : Work) (die : Nat) (t : Ticket) (p lts : Nat) :
    (w.addCopy die t p lts).dev.copies die = w.dev.copies die ++ [
      { id := w.dev.fe.serial, tk := t, part := t.part, src := packedBytes p 8 8, dst := packedBytes p 16 8,
        len := packedBytes p 24 8, lts := lts }] := tab_get_set_same ..

theorem endJob_eq {id die : Nat} {j : CopyJob}
    (hdie : ((List.range 4).find? fun d => (w.dev.copies d).any fun x => decide (x.id = id) && x.ended) = some die)
    (hj : (w.dev.copies die).find? (fun x => decide (x.id = id)) = some j) :
    endJob id w = (w.updCopies die fun js => js.filter fun x => decide (x.id ≠ id)).complete j.tk (j.err.getD 0) := by
  simp only [endJob, hdie, hj]

/-- What a GRAPH_RUN begins of an object read (R95, R96). -/
def newGraph (w : Work) (q p obj : Nat) : Graph :=
  { tk := ticketOf w q p, addr := packedBytes p 8 8, conc := bit (packedBytes p 24 1) 0, snap := obj
    after := if bit (packedBytes p 24 1) 0 then []
      else ((liveGraphs w.dev (pkPart p)).filter fun g => decide (g.2.addr = packedBytes p 8 8)).map (·.1)
    nodes := List.replicate (graphCount obj) .waiting }

theorem carryGraph_read {r : Nat × Work} (hp : current w q 0x89 = some p) (hruns : policyRuns w q = true)
    (hroom : (liveGraphs w.dev (pkPart p)).length < 16)
    (hr : readGraph w (pkPart p) (feDie w q) (packedBytes p 8 8) = .ok r) :
    carryGraph q w = if graphOk w.dev (pkPart p) r.1 = false then w.queueEvent q (pkSeq p) 0 11
      else (r.2.asyncStart q).updFe fun e => { e with
        graphs := e.graphs ++ [(e.serial, newGraph w q p r.1)], serial := e.serial + 1 } := by
  simp only [carryGraph, hp]
  refine (if_neg (by simp [hruns, hroom])).trans ?_
  rw [hr]
  rfl

theorem updFe_reads (w : Work) (f : FrontEnd → FrontEnd) :
    (w.updFe f).base = w.base ∧ (w.updFe f).log = w.log ∧ (w.updFe f).dev.fe = f w.dev.fe := ⟨rfl, rfl, rfl⟩

theorem asyncStart_reads (w : Work) (q : Nat) :
    (w.asyncStart q).base = w.base ∧ (w.asyncStart q).log = w.log ∧ (w.asyncStart q).dev.fe = w.dev.fe := ⟨rfl, rfl, rfl⟩

/-- A packet started by what has been read, with the front end's records changed. -/
theorem started_kept {σ : State} {v : Work} (h : Reads (Work.begin σ) v) (q : Nat) (f : FrontEnd → FrontEnd) :
    SameBytes σ ((v.asyncStart q).updFe f).commit ∧ ((v.asyncStart q).updFe f).commit.dev.fe = f σ.dev.fe := by
  obtain ⟨hbase, hlog, hfe⟩ := updFe_reads (v.asyncStart q) f
  obtain ⟨hbase', hlog', hfe'⟩ := asyncStart_reads v q
  have hkept : BytesKept σ ((v.asyncStart q).updFe f) := ⟨(hbase.trans hbase').trans h.base, (hlog.trans hlog').trans h.log⟩
  refine ⟨hkept.same, ?_⟩
  rw [commit_dev, hfe, hfe', h.fe]
  rfl

theorem endNode_eq {g node code : Nat} {x : Graph} (hx : w.dev.fe.graphs.get? g = some x)
    (hend : w.dev.nodeEnds.contains (g, node, code) = true) :
    endNode g node code w =
      let ns := x.nodes.set node (if code = 0 then .done else .failed)
      let y : Graph := { x with
        nodes := blockNodes x.snap ns.length 0 ns
        limits := x.limits.del node
        checks := x.checks.del node
        watch := x.watch.del node }
      let w1 := w.mapDev fun d => { d with nodeEnds := d.nodeEnds.erase (g, node, code) }
      if y.over then
        (w1.updFe fun e => { e with graphs := e.graphs.del g }).complete y.tk
          (if y.nodes.all fun s => decide (s = .done) then 0 else 0x107)
      else w1.updFe fun e => { e with graphs := e.graphs.set g y } := by
  simp only [endNode, hx]
  exact if_neg (ne_false_of_eq_true hend)

theorem carryCalibrate_eq (hp : current w q 0x8A = some p) (hruns : policyRuns w q = true) :
    carryCalibrate q w = (w.asyncStart q).updFe fun e => { e with
      calibs := e.calibs ++ [{
        id := w.dev.fe.serial, tk := ticketOf w q p, all := decide (packedBytes p 12 1 = 1)
        cores := ((List.range 32).filter fun k => bit (packedBytes p 8 4) k).flatMap (sitesOf w.dev) }]
      serial := e.serial + 1 } := by
  simp only [carryCalibrate, hp]
  exact if_neg (ne_false_of_eq_true hruns)

theorem carryFlip_eq (hp : current w q 0x8B = some p) (hruns : policyRuns w q = true) :
    carryFlip q w = (w.asyncStart q).updFe fun e => { e with
      flips := e.flips ++ [{
        id := w.dev.fe.serial, tk := ticketOf w q p, next := packedBytes p 8 8 / 4096
        last := packedBytes p 8 8 / 4096 + packedBytes p 16 8 / 4096 - 1, toDevice := decide (packedBytes p 24 1 = 1) }]
      serial := e.serial + 1 } := by
  simp only [carryFlip, hp]
  exact if_neg (ne_false_of_eq_true hruns)

theorem endFlip_eq {g : Nat} {x : Flip} (hx : w.dev.fe.flips.find? (fun f => decide (f.gran = some g)) = some x) :
    endFlip g w = if policyRuns w x.tk.q = false ∨ flipEnds w.dev x = false then w
      else ((if x.toDevice then w else w.sweepLines (4096 * g) 4096).updCoh fun c => { c with
        flipping := c.flipping.filter fun k => decide (k ≠ g)
        devBias := if x.toDevice then g :: c.devBias else c.devBias.filter fun k => decide (k ≠ g) }).nextGranule x := by
  simp only [endFlip, hx]

/-- A flip toward host bias ends at once, one toward device bias once the host's caches hold no line of the granule. -/
theorem flipEnds_iff {d : Dev} {g : Nat} {x : Flip} (hx : x.gran = some g) :
    flipEnds d x = true ↔ (x.toDevice = false ∨ ∀ l ∈ d.host.dir, l.line / 64 ≠ g) := by
  simp [flipEnds, hx]

theorem carrySummary_eq (hp : current w q 0x8C = some p) (hruns : policyRuns w q = true) :
    let w1 := (w.asyncStart q).mapDev fun d => { d with host := { d.host with sumCount := d.host.sumCount + 1 } }
    carrySummary q w = match w1.writeLines (feDie w q) (pkPart p) (packedBytes p 8 8) (summaryRecord w1.dev (pkPart p)) 64 with
      | .error e => (w1.awaits e).complete (ticketOf w q p) (e.cause 9)
      | .ok u => u.complete (ticketOf w q p) 0 := by
  intro w1
  simp only [carrySummary, hp]
  exact if_neg (ne_false_of_eq_true hruns)

/-- A QCLEAR that names a word, of a block that its handle finds. -/
theorem carryQclear_eq {cb : Nat} (hp : current w q 0x8D = some p) (hruns : policyRuns w q = true) (hh : packedBytes p 8 8 % 64 = 0)
    (hword : pkWord p ≠ 0) (hcb : clearedBlock w (pkPart p) (feDie w q) (packedBytes p 8 8) = .ok cb) :
    let finish (x : Work) (code : Nat) : Work := (x.writeCompletion (pkPart p) (feDie w q) (pkWord p) code).syncDone q p code
    carryQclear q w = if clearRefused w q (pkPart p) cb then finish w 0x106
      else if queueNormal w cb then finish w 0
      else finish (w.clearQueue q cb (packedBytes p 8 8) (packedBytes p 24 4)) 0 := by
  intro finish
  have hfinish (c : Nat) (x y : Work) : (if pkWord p = 0 ∧ c ≠ 0 ∧ c < 0x100 then x else y) = y := if_neg fun h => hword h.1
  simp only [carryQclear, hp]
  refine (if_neg (ne_false_of_eq_true hruns)).trans ((if_neg (not_not_intro hh)).trans ?_)
  rw [hcb]
  simp only [hfinish]
  rfl

end Served

-- Watchdogs (R83)

theorem expireWatchdog_eq (die : Nat) (σ : State) :
    let e : ErrEntry := { cause := 61, part := 16, agent := feAgent die, time := σ.dev.now, value := die }
    let ring := (e :: σ.dev.errRing).take 64
    (expireWatchdog die (Work.begin σ)).commit = if mayExpire σ.dev die = false then same σ else withDev σ (if die = 0 then
        { σ.dev with errRing := ring, mode := .recovery, policy := σ.dev.policy.set 0 2 }
      else { σ.dev with errRing := ring, policy := σ.dev.policy.set die 1 }) := by
  intro e ring
  by_cases hmay : mayExpire σ.dev die = false
  · rw [if_pos hmay]
    exact congrArg Work.commit (if_pos hmay)
  · rw [if_neg hmay]
    refine (congrArg Work.commit (if_neg hmay)).trans ?_
    by_cases h0 : die = 0
    · rw [if_pos h0, if_pos h0]
      rfl
    · rw [if_neg h0, if_neg h0]
      rfl

/-- Settles O51: the packets and services one by one. -/
theorem packets : Obligations.Packets := by
  unfold Obligations.Packets
  refine ⟨⟨fun x hx σ q p hp => ?launch, fun w ix p t qr => ?started, fun w ix p t sizes sizeErr => ?entered, fun σ q p hp => ?wait,
    fun w q p => ⟨fun e h => tryWait_error h, fun r h => tryWait_ok h⟩, fun x op => ⟨rfl, rfl, rfl, rfl⟩, fun σ q p hp => ?signal,
    fun σ q p r hp hr => ?cond, fun σ q p hp => next_of_eq (carryLoopBegin_eq hp), fun σ q p hp => next_of_eq (carryLoopEnd_eq hp),
    fun σ q p hp => next_of_eq (carryFence_eq hp), fun σ q k x hx h => carried_none hx h,
    fun σ part h => next_of_eq (placeRecord_none h), fun σ part e x r die => ?record⟩,
    fun σ q p hp => ?copy, fun w die t p lts => ⟨_, addCopy_copies w die t p lts, rfl, rfl, rfl, rfl, rfl, rfl, rfl, rfl⟩,
    fun σ id die j hdie hj => next_of_eq (endJob_eq (w := Work.begin σ) hdie hj), fun σ q p r => ?graph,
    fun σ g node code x hx hend => ?node, fun σ q p => ?calibrate, fun σ q p => ?flip, fun σ g x hx => ?flipped,
    fun σ q p => ?summary, fun σ q p cb => ?qclear, fun σ die => congrArg Host.Outcome.next (expireWatchdog_eq die σ),
    fun σ die => next_ite rfl⟩
  case launch =>
    have hcarry : exec (x.1 q) σ = .next (carryLaunch x.2 q (Work.begin σ)).commit := by
      rcases List.mem_cons.1 hx with rfl | hx
      · rfl
      · rw [List.mem_singleton.1 hx]
        rfl
    refine ⟨fun hfull => hcarry.trans (next_of_eq (carryLaunch_full hfull)), fun ix hix hruns => hcarry.trans ?_,
      fun ix hix hruns => ⟨_, hcarry, ?_⟩⟩
    · refine next_of_eq ((carryLaunch_eq (w := Work.begin σ) hp hix).trans ?_)
      rw [policyWait_runs (of_decide_eq_true hruns)]
      rfl
    · rw [carryLaunch_eq (w := Work.begin σ) hp hix]
      refine startLaunch_waits ix p _ _ ?_
      rw [asyncStart_coh]
      exact policyWait_restarts (of_decide_eq_false hruns)
  case started =>
    refine ⟨fun hk => if_pos (by rw [hk]; decide), fun r hk hr => ?_, fun e hk he => ?_⟩
    · rw [startLaunch_ind w ix p t qr hk, hr]
    · rw [startLaunch_ind w ix p t qr hk, he]
  case entered =>
    intro u
    obtain ⟨l, hl, hitems⟩ := enterLaunch_entry w ix p t sizes sizeErr
    obtain ⟨hix, hothers⟩ := launch_of_set hl
    obtain ⟨hlog, hctxs⟩ := enterLaunch_kept w ix p t sizes sizeErr
    rw [← hix] at hitems
    exact ⟨hlog, hctxs, hothers, hitems⟩
  case wait =>
    intro us lim
    exact ⟨fun h => next_of_eq (beginWait_starts (w := Work.begin σ) hp h),
      fun h => next_of_eq (recheckWait_waiting (w := Work.begin σ) hp h),
      fun t e ht hdue he => next_of_eq (limitWait_due (w := Work.begin σ) hp ht hdue he)⟩
  case signal =>
    have heq := carrySignal_eq (w := Work.begin σ) hp
    exact ⟨fun u hu => next_of_eq (heq.trans (by rw [hu])), fun e he => next_of_eq (heq.trans (by rw [he]))⟩
  case cond => exact (next_of_eq (carryCond_ok (w := Work.begin σ) hp hr)).trans (next_ite rfl)
  case record =>
    intro p he hsome hnone hruns hx hfault hreach hevq hrole hr
    have heq := placeRecord_home (w := Work.begin σ) he hsome hnone hruns hx hfault hreach hevq hrole
    rw [show (Work.begin σ).atHome x.pa (queueSlice (Work.begin σ) x.pa) ((Work.begin σ).dev.partOf part).evq
      ((Work.begin σ).dev.agentTime (feAgent die)) .device
      (.enqueue (recordBytes e ((Work.begin σ).dev.partOf part).evSeq) false) = r from hr] at heq
    refine ⟨fun hfull => next_of_eq (heq.trans (recordPlaced_full hfull)),
      fun a b c hdone => ⟨_, next_of_eq (heq.trans (recordPlaced_done hdone)), ?_⟩⟩
    refine ⟨fun k => (commit_read ..).trans (commit_read ..).symm, rfl, rfl, ?_⟩
    exact congrArg Part.evSeq (tab_get_set_same ..)
  case copy =>
    intro w die
    exact (next_of_eq (carryCopy_eq (w := w) hp)).trans (next_ite rfl)
  case graph =>
    intro w obj hp hruns hroom hr
    have heq := carryGraph_read (w := w) hp hruns hroom hr
    refine ⟨fun hbad => next_of_eq (heq.trans (if_pos hbad)),
      fun hgood => ⟨_, newGraph w q p obj, next_of_eq (heq.trans (if_neg (ne_false_of_eq_true hgood))), ?_⟩⟩
    obtain ⟨hbytes, hfe⟩ := started_kept (readGraph_reads hr) q fun e => { e with
      graphs := e.graphs ++ [(e.serial, newGraph w q p obj)], serial := e.serial + 1 }
    exact ⟨hbytes, congrArg FrontEnd.graphs hfe, rfl, rfl, rfl, rfl⟩
  case node =>
    intro ns y d
    have heq := endNode_eq (w := Work.begin σ) hx hend
    refine ⟨fun h => next_of_eq (heq.trans (if_neg (ne_true_of_eq_false h))), fun h => next_of_eq (heq.trans (if_pos h))⟩
  case calibrate =>
    intro w hp hruns
    exact ⟨_, _, next_of_eq (carryCalibrate_eq (w := w) hp hruns), BytesKept.same ⟨rfl, rfl⟩, rfl, rfl, rfl, rfl⟩
  case flip =>
    intro w hp hruns
    exact ⟨_, _, next_of_eq (carryFlip_eq (w := w) hp hruns), BytesKept.same ⟨rfl, rfl⟩, rfl, rfl, rfl, rfl⟩
  case flipped =>
    intro w1
    have hgran : x.gran = some g := by simpa using List.find?_some hx
    have heq := endFlip_eq (w := Work.begin σ) hx
    refine ⟨fun h => next_of_eq (heq.trans (if_pos ?_)), fun hruns h => next_of_eq (heq.trans (if_neg ?_))⟩
    · refine h.imp_right fun ⟨hdev, l, hl, hg⟩ => Bool.eq_false_iff.2 fun hends => ?_
      rcases (flipEnds_iff (d := σ.dev) hgran).1 hends with hhost | hnone
      · exact absurd hdev (ne_true_of_eq_false hhost)
      · exact hnone l hl hg
    · rintro (hno | hno)
      · exact absurd hruns (ne_true_of_eq_false hno)
      · exact absurd ((flipEnds_iff (d := σ.dev) hgran).2 h) (ne_true_of_eq_false hno)
  case summary =>
    intro w w1 hp hruns
    refine (next_of_eq (carrySummary_eq (w := w) hp hruns)).trans ?_
    cases w1.writeLines (feDie w q) (pkPart p) (packedBytes p 8 8) (summaryRecord w1.dev (pkPart p)) 64 <;> rfl
  case qclear =>
    intro w h done hp hruns hh hword hcb
    have heq := carryQclear_eq (w := w) hp hruns hh hword hcb
    refine ⟨fun hrefused => next_of_eq (heq.trans (if_pos hrefused)),
      fun hrefused hnormal => next_of_eq (heq.trans ((if_neg (ne_true_of_eq_false hrefused)).trans (if_pos hnormal))),
      fun hrefused hnormal => next_of_eq (heq.trans ((if_neg (ne_true_of_eq_false hrefused)).trans
        (if_neg (ne_true_of_eq_false hnormal))))⟩

end Sys2Proof.Proofs.PacketServices

end

section
/-! The partition table, the interface states, the Error state and scrubbing (R61, R63 to R66). -/

namespace Sys2Proof.Proofs.PartitionTable

open Sys2Proof Sys2Proof.Machine Sys2Proof.Safety Sys2Proof.Laws Sys2Proof.Proofs.Landing Sys2Proof.Proofs.Traps
open Sys2Proof.Proofs.PackageLinks Sys2Proof.Proofs.ResetAndRecovery
open Sys2Proof.Proofs.MemoryEvents Sys2Proof.Proofs.SchedulerEvents Sys2Proof.Proofs.CoreEventRules

-- What a queue's home does aside of the rest of the device

/-- A relation between the device before and after that no change of memory's coherence, of contexts and cores, or of queues' homes
breaks, and no note of a write. -/
structure Aside (R : Dev → Dev → Prop) : Prop where
  refl (d : Dev) : R d d
  trans {d e f : Dev} : R d e → R e f → R d f
  mem (d : Dev) (c : Coherence) (k : Tab Column) : R d { d with coh := c, cols := k }
  ctxs (d : Dev) (c : Tab Ctx) : R d { d with ctxs := c }
  cores (d : Dev) (c : Tab Core) : R d { d with cores := c }
  homes (d : Dev) (h : Tab Home) : R d { d with homes := h }
  note (w : Work) (l : Nat) : R w.dev (w.noteWrite l).dev

/-- The partition table stays. -/
def SameParts (d e : Dev) : Prop := e.parts = d.parts

theorem aside_parts : Aside SameParts where
  refl _ := rfl
  trans h h' := h'.trans h
  mem _ _ _ := rfl
  ctxs _ _ := rfl
  cores _ _ := rfl
  homes _ _ := rfl
  note _ _ := rfl

section HomeFrames

variable {R : Dev → Dev → Prop} (h : Aside R) (w : Work)
include h

theorem Aside.coh (d : Dev) (c : Coherence) : R d { d with coh := c } := h.mem d c d.cols

theorem Aside.of_dev {v w : Work} (hd : w.dev = v.dev) : R v.dev w.dev := by
  rw [hd]
  exact h.refl v.dev

theorem Aside.foldl {β : Type} {f : Work → β → Work} (l : List β) (hf : ∀ w b, R w.dev (f w b).dev) (w : Work) :
    R w.dev (l.foldl f w).dev := by
  induction l generalizing w with
  | nil => exact h.refl w.dev
  | cons b l ih => exact h.trans (hf w b) (ih _)

theorem waitFor_aside (b : Bool) (l : Nat) : R w.dev (w.waitFor b l).dev := by
  cases b with
  | false => exact h.refl w.dev
  | true => exact h.coh ..

theorem setBlock_aside (cb : Nat) (b : Block) : R w.dev (w.setBlock cb b).dev := by
  unfold Work.setBlock
  extract_lets l x t w1
  have hw1 : R w.dev w1.dev :=
    h.trans (h.trans (waitFor_aside h w _ l) (h.of_dev (pwrite_dev ..))) (h.coh ..)
  refine h.trans ?_ (h.note _ l)
  exact h.trans hw1 (h.homes w1.dev _)

theorem setWaiters_aside (cb : Nat) (ws : List Waiter) : R w.dev (w.setWaiters cb ws).dev := by
  unfold Work.setWaiters
  extract_lets ok w1
  have hw1 : R w.dev w1.dev := h.homes ..
  split
  · exact h.trans hw1 (setBlock_aside h ..)
  · exact hw1

theorem landParked_aside (core bank id : Nat) (a : Arrived) : R w.dev (w.landParked core bank id a).dev := by
  rw [Work.landParked]
  split
  · exact h.refl w.dev
  · split
    · exact h.refl w.dev
    · refine h.trans ?_ (h.ctxs ..)
      split
      · exact h.refl w.dev
      · exact h.trans (h.of_dev (writeN_dev ..)) (h.cores ..)

theorem answerOp_aside (core bank op : Nat) (ans : HomeAns) (free : Option Nat) (time : Nat) :
    R w.dev (w.answerOp core bank op ans free time).dev := by
  unfold Work.answerOp
  extract_lets c
  split
  · exact h.refl w.dev
  · extract_lets
    rename_i w1 _
    have hw1 : R w.dev w1.dev := h.ctxs ..
    clear_value w1
    split
    · exact h.trans hw1 (landParked_aside h ..)
    · exact hw1

theorem endWaiters_aside (cb cause : Nat) : R w.dev (w.endWaiters cb cause).dev := by
  rw [Work.endWaiters]
  split
  · exact h.refl w.dev
  · refine h.trans (setWaiters_aside h w cb []) (h.foldl _ (fun a x => ?_) _)
    rw [Work.answerWaiter]
    split
    · exact h.refl a.dev
    · exact answerOp_aside h ..

theorem quarantineQueue_aside (cb : Nat) : R w.dev (w.quarantineQueue cb).dev := by
  unfold Work.quarantineQueue
  extract_lets b b1
  exact h.trans (setBlock_aside h w cb _) (endWaiters_aside h _ cb 23)

theorem makeDirty_aside (l : Nat) : R w.dev (w.makeDirty l).dev := by
  rw [Work.makeDirty]
  split
  · exact h.refl w.dev
  · refine h.trans ?_ (h.coh ..)
    split
    · exact h.refl w.dev
    · exact h.of_dev (writeN_dev ..)

theorem cleanSectors_aside (pa n : Nat) : R w.dev (w.cleanSectors pa n).dev :=
  h.mem w.dev _ _

theorem cohWrite_aside (t pa n v : Nat) : R w.dev (w.cohWrite t pa n v).2.dev := by
  unfold Work.cohWrite
  extract_lets l x t' w1 w2
  have hw1 : R w.dev w1.dev :=
    h.trans (h.trans (waitFor_aside h ..) (makeDirty_aside h ..)) (h.of_dev (pwrite_dev ..))
  have hw2 : R w.dev w2.dev := h.trans hw1 (h.coh ..)
  refine h.trans (e := (if n = 32 ∨ n = 64 then w2.cleanSectors pa n else w2).dev) ?_ (h.note ..)
  split
  · exact h.trans hw2 (cleanSectors_aside h ..)
  · exact hw2

end HomeFrames

-- The Error state (R65)

theorem updPart_same (w : Work) (k : Nat) (f : Part → Part) : (w.updPart k f).dev.partOf k = f (w.dev.partOf k) :=
  tab_get_set_same ..

theorem partOf_of_parts {w w' : Work} (h : Keeps Dev.parts w w') (k : Nat) : w'.dev.partOf k = w.dev.partOf k :=
  congrArg (fun t : Tab Part => t.get k {}) h

theorem partError_idle {w : Work} {k : Nat} (h2 : (w.dev.partOf k).st ≠ 2) (h3 : (w.dev.partOf k).st ≠ 3) :
    w.partError k = w := if_pos ⟨h2, h3⟩

/-- The launches of a partition that stops are asked to stop too. -/
theorem suspendLaunch_parts (w : Work) (ix : Nat) : Keeps Dev.parts w (w.suspendLaunch ix) := Eq.refl w.dev.parts

theorem haltQueue_parts (w : Work) (part cb : Nat) : Keeps Dev.parts w
    (((w.quarantineQueue cb).updStream cb fun s => { s with st := 2 }).qnotice part ((w.dev.homeOf cb).handle) 0 0 0 2 none) := by
  have hq := quarantineQueue_aside aside_parts w cb
  generalize w.quarantineQueue cb = v at hq ⊢
  exact hq

/-- A partition that is Locked or Running enters Error. -/
theorem partError_st {w : Work} {k : Nat} (h : (w.dev.partOf k).st = 2 ∨ (w.dev.partOf k).st = 3) :
    ((w.partError k).dev.partOf k).st = 4 := by
  unfold Work.partError
  extract_lets p w1 w2
  have hw2 : Keeps Dev.parts w1 w2 := Keeps.foldl _ suspendLaunch_parts w1
  have hst : (w1.dev.partOf k).st = 4 := congrArg Part.st (updPart_same ..)
  rw [if_neg fun hno : p.st ≠ 2 ∧ p.st ≠ 3 => h.elim hno.1 hno.2]
  exact (congrArg Part.st (partOf_of_parts (hw2.trans (Keeps.foldl _ (fun a cb => haltQueue_parts a k cb) w2)) k)).trans hst

-- Scrubbing (R66)

/-- The bytes of a granule of physical memory. -/
def InGranule (g x : Nat) : Prop := g * 2 ^ 21 ≤ x ∧ x < (g + 1) * 2 ^ 21

/-- A byte is kept or zeroed. -/
def KeptOrZero (x : Nat) (w w' : Work) : Prop := w'.byte x = w.byte x ∨ w'.byte x = 0

theorem KeptOrZero.refl (x : Nat) (w : Work) : KeptOrZero x w w := .inl rfl

theorem KeptOrZero.trans {x : Nat} {u v w : Work} (h : KeptOrZero x u v) (h' : KeptOrZero x v w) : KeptOrZero x u w := by
  rcases h' with hsame | hzero
  · exact h.imp hsame.trans hsame.trans
  · exact .inr hzero

theorem KeptOrZero.zero {x : Nat} {w w' : Work} (h : KeptOrZero x w w') (hz : w.byte x = 0) : w'.byte x = 0 := h.elim (·.trans hz) id

theorem KeptOrZero.foldl {β : Type} {x : Nat} {f : Work → β → Work} (l : List β) (h : ∀ w b, KeptOrZero x w (f w b)) (w : Work) :
    KeptOrZero x w (l.foldl f w) := by
  induction l generalizing w with
  | nil => exact .refl x w
  | cons b l ih => exact (h w b).trans (ih _)

theorem swaps_nil {w w' : Work} (h : Keeps ctxsSwaps w w') (hs : w.dev.coh.swaps = []) : w'.dev.coh.swaps = [] :=
  Eq.trans h.swaps hs

section Bytes

variable (w : Work) {x : Nat}

theorem byte_put_other {k : Nat} (v : Byte) (h : x ≠ k) : (w.put k v).byte x = w.byte x := by
  rw [Work.put]
  split <;> rw [byte_setByte, if_neg h]

theorem byte_pwrite_outside {pa n : Nat} (v : Nat) (hs : w.dev.coh.swaps = []) (h : x < pa ∨ pa + n ≤ x) :
    (w.pwrite pa n v).byte x = w.byte x := by
  induction n generalizing w pa v with
  | zero => rfl
  | succ n ih =>
    have hkey : w.pkey pa = pa := by rw [Work.pkey, hs]; rfl
    rw [Work.pwrite, hkey, ih _ _ (by rw [put_dev]; exact hs) (by omega), byte_put_other _ _ (by omega)]

theorem writeN_zero_byte (k n : Nat) : KeptOrZero x w (w.writeN k n 0) := by
  induction n generalizing w k with
  | zero => exact .refl x w
  | succ n ih =>
    refine KeptOrZero.trans (v := w.setByte k 0) ?_ (by rw [Work.writeN, Nat.zero_div]; exact ih _ _)
    by_cases hx : x = k
    · exact .inr (by rw [byte_setByte, if_pos hx])
    · exact .inl (by rw [byte_setByte, if_neg hx])

theorem zeroKeys_byte (k n : Nat) : KeptOrZero x w (w.zeroKeys k n) := by
  by_cases h : k ≤ x ∧ x < k + n
  · exact .inr (byte_zeroKeys_inside w h)
  · exact .inl (byte_zeroKeys_outside w h)

theorem updCoh_byte (f : Coherence → Coherence) : KeptOrZero x w (w.updCoh f) := .inl (Eq.refl (w.byte x))

theorem mapDev_byte (f : Dev → Dev) : KeptOrZero x w (w.mapDev f) := .inl (Eq.refl (w.byte x))

theorem waitFor_byte (b : Bool) (l : Nat) : KeptOrZero x w (w.waitFor b l) := by
  cases b with
  | false => exact .refl x w
  | true => exact updCoh_byte ..

theorem writeBack_byte (l : Nat) : KeptOrZero x w (w.writeBack l) := by
  rw [Work.writeBack]
  split
  · exact (writeN_zero_byte w (Key.array (l * 64)) 64).trans (updCoh_byte ..)
  · exact .refl x w

theorem takeArray_byte {l : Nat} (hs : w.dev.coh.swaps = []) (h : x < l * 64 ∨ l * 64 + 64 ≤ x) :
    KeptOrZero x w (w.takeArray l) := by
  rw [Work.takeArray]
  split
  · exact (KeptOrZero.trans (.inl (byte_pwrite_outside w _ hs h)) (writeN_zero_byte _ (Key.array (l * 64)) 64)).trans
      (updCoh_byte ..)
  · exact .refl x w

theorem settleLine_byte {l : Nat} (hs : w.dev.coh.swaps = []) (h : x < l * 64 ∨ l * 64 + 64 ≤ x) :
    KeptOrZero x w (w.settleLine l) :=
  (writeBack_byte w l).trans (takeArray_byte _ (swaps_nil (writeBack_keeps w l) hs) h)

/-- Settling lines changes of what lies outside them no byte, but that array bytes come to 0. -/
theorem settleLines_byte (ls : List Nat) (hs : w.dev.coh.swaps = []) (h : ∀ l ∈ ls, x < l * 64 ∨ l * 64 + 64 ≤ x) :
    KeptOrZero x w (ls.foldl Work.settleLine w) := by
  induction ls generalizing w with
  | nil => exact .refl x w
  | cons l ls ih =>
    exact (settleLine_byte w hs (h l List.mem_cons_self)).trans
      (ih _ (swaps_nil (settleLine_keeps w l) hs) fun k hk => h k (List.mem_cons_of_mem _ hk))

end Bytes

-- The lines of a granule, settled

/-- The lines whose arrays hold bytes of their own. -/
def apartLines (w : Work) : List Nat := w.dev.coh.dirty ++ w.dev.coh.banked.map (·.line)

section Settled

variable (w : Work)

theorem writeBack_coh (l : Nat) : (w.writeBack l).dev.coh.dirty = w.dev.coh.dirty.filter (fun x => decide (x ≠ l)) ∧
    (w.writeBack l).dev.coh.banked = w.dev.coh.banked := by
  rw [Work.writeBack]
  split
  · have hdev := writeN_dev w (Key.array (l * 64)) 64 0
    generalize w.writeN (Key.array (l * 64)) 64 0 = v at hdev ⊢
    rw [← hdev]
    exact ⟨rfl, rfl⟩
  · rename_i h
    refine ⟨?_, rfl⟩
    symm
    rw [List.filter_eq_self]
    exact fun x hx => decide_eq_true fun e : x = l => h (e ▸ hx)

theorem takeArray_coh (l : Nat) : (w.takeArray l).dev.coh.dirty = w.dev.coh.dirty ∧
    (w.takeArray l).dev.coh.banked = w.dev.coh.banked.filter (fun x => decide (x.line ≠ l)) := by
  rw [Work.takeArray]
  split
  · have hdev := (writeN_dev (w.pwrite (l * 64) 64 (w.readN (Key.array (l * 64)) 64)) (Key.array (l * 64)) 64 0).trans
      (pwrite_dev w (l * 64) 64 (w.readN (Key.array (l * 64)) 64))
    generalize (w.pwrite (l * 64) 64 (w.readN (Key.array (l * 64)) 64)).writeN (Key.array (l * 64)) 64 0 = v at hdev ⊢
    rw [← hdev]
    exact ⟨rfl, rfl⟩
  · rename_i h
    refine ⟨rfl, ?_⟩
    symm
    rw [List.filter_eq_self]
    exact fun x hx => decide_eq_true fun e : x.line = l => h (List.any_eq_true.2 ⟨x, hx, decide_eq_true e⟩)

theorem mem_apart_settleLine (l k : Nat) : k ∈ apartLines (w.settleLine l) ↔ k ∈ apartLines w ∧ k ≠ l := by
  obtain ⟨hd, hb⟩ := writeBack_coh w l
  obtain ⟨hd', hb'⟩ := takeArray_coh (w.writeBack l) l
  simp only [apartLines, Work.settleLine, hd', hd, hb', hb, List.mem_append, List.mem_filter, List.mem_map, decide_eq_true_eq]
  constructor
  · rintro (⟨h, hk⟩ | ⟨x, ⟨hx, hk⟩, rfl⟩)
    · exact ⟨.inl h, hk⟩
    · exact ⟨.inr ⟨x, hx, rfl⟩, hk⟩
  · rintro ⟨h | ⟨x, hx, rfl⟩, hk⟩
    · exact .inl ⟨h, hk⟩
    · exact .inr ⟨x, ⟨hx, hk⟩, rfl⟩

theorem mem_apart_settleLines (ls : List Nat) (k : Nat) :
    k ∈ apartLines (ls.foldl Work.settleLine w) ↔ k ∈ apartLines w ∧ k ∉ ls := by
  induction ls generalizing w with
  | nil => simp
  | cons l ls ih =>
    rw [List.foldl_cons, ih, mem_apart_settleLine, List.mem_cons, not_or, and_assoc]

/-- The line lies in n bytes from an address. -/
def InRange (pa n l : Nat) : Prop := pa / 64 ≤ l ∧ 64 * l < pa + n

theorem sweepLines_eq (pa n : Nat) : w.sweepLines pa n =
    (((apartLines w).filter fun l => decide (pa / 64 ≤ l) && decide (64 * l < pa + n)).foldl Work.settleLine w).updCoh
      fun c => { c with copies := c.copies.filter fun x => !(decide (pa / 64 ≤ x.line) && decide (64 * x.line < pa + n)) } := rfl

theorem sweepLines_clean (pa n : Nat) {l : Nat} (hl : InRange pa n l) : l ∉ apartLines (w.sweepLines pa n) := by
  intro hmem
  rw [sweepLines_eq] at hmem
  obtain ⟨hap, hnot⟩ := (mem_apart_settleLines w _ l).1 hmem
  exact hnot (List.mem_filter.2 ⟨hap, by simp [hl.1, hl.2]⟩)

/-- Where no line is apart, a sweep changes no byte. -/
theorem sweepLines_idle {pa n : Nat} (h : ∀ l, InRange pa n l → l ∉ apartLines w) (x : Nat) :
    (w.sweepLines pa n).byte x = w.byte x := by
  have hnone : (apartLines w).filter (fun l => decide (pa / 64 ≤ l) && decide (64 * l < pa + n)) = [] := by
    refine List.filter_eq_nil_iff.2 fun l hl hin => ?_
    rw [Bool.and_eq_true, decide_eq_true_eq, decide_eq_true_eq] at hin
    exact h l hin hl
  rw [sweepLines_eq, hnone]
  rfl

theorem sweepLines_byte {pa n x : Nat} (hpa : pa % 64 = 0) (hn : n % 64 = 0) (hs : w.dev.coh.swaps = [])
    (h : x < pa ∨ pa + n ≤ x) : KeptOrZero x w (w.sweepLines pa n) := by
  rw [sweepLines_eq]
  refine (settleLines_byte w _ hs fun l hl => ?_).trans (updCoh_byte ..)
  obtain ⟨-, hin⟩ := List.mem_filter.1 hl
  rw [Bool.and_eq_true, decide_eq_true_eq, decide_eq_true_eq] at hin
  omega

end Settled

-- One granule scrubbed

section Granule

variable (w : Work) (g : Nat)

theorem awaitGranule_keeps : Keeps ctxsSwaps w (w.awaitGranule g) := Keeps.foldl _ (fun a l => waitFor_keeps a l true) w

theorem awaitGranule_byte (x : Nat) : KeptOrZero x w (w.awaitGranule g) := 
  KeptOrZero.foldl _ (fun a l => waitFor_byte a true l) w

/-- The bytes of a granule zeroed, before its marks and keys go. -/
def granuleZeroed : Work := (w.sweepLines (g * 2 ^ 21) (2 ^ 21)).zeroKeys (Key.phys (g * 2 ^ 21)) (2 ^ 21)

/-- What is left to do of the zeroing: marks, keys and tags of n bytes. -/
def granuleCleared (v : Work) (n : Nat) : Work :=
  if regionOf (g * n) = .stacked then
    ((v.cleanRange (g * n) n).mapDev fun d => { d with dataKeys := d.dataKeys.del g }).updColumn (columnOf (g * n)) fun c =>
      { c with tags := c.tags.del (g % 256) }
  else (v.cleanRange (g * n) n).mapDev fun d => { d with dataKeys := d.dataKeys.del g }

theorem zeroGranule_eq : w.zeroGranule g = granuleCleared g (granuleZeroed w g) (2 ^ 21) := rfl

/-- It changes no byte, no line apart and no exchange. -/
theorem granuleCleared_same (v : Work) (n : Nat) : (∀ x, (granuleCleared g v n).byte x = v.byte x) ∧
    apartLines (granuleCleared g v n) = apartLines v ∧ (granuleCleared g v n).dev.coh.swaps = v.dev.coh.swaps := by
  unfold granuleCleared
  split <;> exact ⟨fun _ => rfl, rfl, rfl⟩

theorem granuleZeroed_dev : (granuleZeroed w g).dev = (w.sweepLines (g * 2 ^ 21) (2 ^ 21)).dev := zeroKeys_dev ..

theorem zeroGranule_zero {x : Nat} (hx : InGranule g x) : (w.zeroGranule g).byte x = 0 := by
  rw [zeroGranule_eq, (granuleCleared_same ..).1]
  refine byte_zeroKeys_inside _ ?_
  unfold InGranule at hx
  unfold Key.phys
  omega

theorem zeroGranule_clean {l : Nat} (hl : InRange (g * 2 ^ 21) (2 ^ 21) l) : l ∉ apartLines (w.zeroGranule g) := by
  rw [zeroGranule_eq, (granuleCleared_same ..).2.1, apartLines, granuleZeroed_dev]
  exact sweepLines_clean w _ _ hl

theorem zeroGranule_swaps (hs : w.dev.coh.swaps = []) : (w.zeroGranule g).dev.coh.swaps = [] := by
  rw [zeroGranule_eq, (granuleCleared_same ..).2.2, granuleZeroed_dev]
  exact swaps_nil (sweepLines_keeps ..) hs

theorem zeroGranule_byte {x : Nat} (hs : w.dev.coh.swaps = []) (hx : ¬ InGranule g x) : KeptOrZero x w (w.zeroGranule g) := by
  have hout : x < g * 2 ^ 21 ∨ g * 2 ^ 21 + 2 ^ 21 ≤ x := by
    unfold InGranule at hx
    omega
  rw [zeroGranule_eq]
  exact ((sweepLines_byte w (by omega) (by omega) hs hout).trans (zeroKeys_byte ..)).trans (.inl ((granuleCleared_same ..).1 x))

theorem rekey_byte (old new x : Nat) : (w.rekey g old new).byte x = (w.sweepLines (g * 2 ^ 21) (2 ^ 21)).byte x := rfl

/-- A granule of a scrubbed partition. -/
def granuleScrubbed (part : Nat) (a : Work) (g : Nat) : Work := ((a.awaitGranule g).zeroGranule g).rekey g part 16

theorem granuleScrubbed_zero (part : Nat) {x : Nat} (hx : InGranule g x) : (granuleScrubbed part w g).byte x = 0 := by
  rw [granuleScrubbed, rekey_byte, sweepLines_idle _ fun l hl => zeroGranule_clean (w.awaitGranule g) g hl]
  exact zeroGranule_zero _ g hx

theorem granuleScrubbed_byte (part : Nat) {x : Nat} (hs : w.dev.coh.swaps = []) (hx : ¬ InGranule g x) :
    KeptOrZero x w (granuleScrubbed part w g) := by
  have hs' := swaps_nil (awaitGranule_keeps w g) hs
  have hswept := sweepLines_idle ((w.awaitGranule g).zeroGranule g) (fun l hl => zeroGranule_clean (w.awaitGranule g) g hl) x
  exact ((awaitGranule_byte w g x).trans (zeroGranule_byte _ g hs' hx)).trans
    (.inl ((rekey_byte ((w.awaitGranule g).zeroGranule g) g part 16 x).trans hswept))

theorem rekey_swaps (old new : Nat) : (w.rekey g old new).dev.coh.swaps = (w.sweepLines (g * 2 ^ 21) (2 ^ 21)).dev.coh.swaps := rfl

theorem granuleScrubbed_swaps (part : Nat) (hs : w.dev.coh.swaps = []) : (granuleScrubbed part w g).dev.coh.swaps = [] := by
  rw [granuleScrubbed, rekey_swaps]
  exact swaps_nil (sweepLines_keeps ..) (zeroGranule_swaps _ g (swaps_nil (awaitGranule_keeps w g) hs))

end Granule

theorem scrubMemory_eq (w : Work) (part : Nat) :
    w.scrubMemory part = (scrubGranules w.dev part).foldl (granuleScrubbed part) w := rfl

/-- A byte that is 0 stays so. -/
theorem scrubGranules_zero_kept (part : Nat) (gs : List Nat) {w : Work} {x : Nat} (hs : w.dev.coh.swaps = []) (hz : w.byte x = 0) :
    (gs.foldl (granuleScrubbed part) w).byte x = 0 := by
  induction gs generalizing w with
  | nil => exact hz
  | cons g gs ih =>
    refine ih (granuleScrubbed_swaps w g part hs) ?_
    by_cases hx : InGranule g x
    · exact granuleScrubbed_zero w g part hx
    · exact (granuleScrubbed_byte w g part hs hx).zero hz

/-- Every byte of a granule that is scrubbed is 0. -/
theorem scrubGranules_zero (part : Nat) {gs : List Nat} {w : Work} {g x : Nat} (hs : w.dev.coh.swaps = []) (hg : g ∈ gs)
    (hx : InGranule g x) : (gs.foldl (granuleScrubbed part) w).byte x = 0 := by
  induction gs generalizing w with
  | nil => cases hg
  | cons k gs ih =>
    rcases List.mem_cons.1 hg with rfl | hg
    · exact scrubGranules_zero_kept part gs (granuleScrubbed_swaps w g part hs) (granuleScrubbed_zero w g part hx)
    · exact ih (granuleScrubbed_swaps w k part hs) hg

-- The scrub's end

theorem tab_get_del_same {α : Type} (t : Tab α) (k : Nat) (x : α) : (t.del k).get k x = x := by
  rw [Tab.get, tab_get?_del_same]

theorem updCore_byte (w : Work) (x k : Nat) (f : Core → Core) : KeptOrZero x w (w.updCore k f) := .inl (Eq.refl (w.byte x))

theorem updCtx_byte (w : Work) (x k b : Nat) (f : Ctx → Ctx) : KeptOrZero x w (w.updCtx k b f) := .inl (Eq.refl (w.byte x))

theorem zeroCore_byte (x : Nat) (w : Work) (k : Nat) : KeptOrZero x w (w.zeroCore k) :=
  (((zeroKeys_byte w _ _).trans (updCore_byte _ x ..)).trans (updCtx_byte _ x ..)).trans (updCtx_byte _ x ..)

theorem zeroWay_byte (x cluster : Nat) (w : Work) (way : Nat) : KeptOrZero x w (zeroWay w cluster way) := by
  unfold zeroWay
  extract_lets base inWay
  refine KeptOrZero.trans ?_ (updCoh_byte ..)
  exact KeptOrZero.foldl _ (fun a _ => zeroKeys_byte a _ _) w

/-- What the scrub does once the memory is zeroed, and but for the guest's queues: cores, ways and copies of lines. -/
def coresScrubbed (part : Nat) (p : Part) (d : Dev) (w : Work) : Work :=
  let cls := (List.range 32).filter fun k => bit p.clusters k
  (cls.foldl (fun a k => (List.range 16).foldl (fun b y => zeroWay b k y) a) ((partCores d part).foldl Work.zeroCore w)).updCoh
    fun c => { c with copies := c.copies.filter fun x => !cls.contains x.cluster }

theorem coresScrubbed_byte (x part : Nat) (p : Part) (d : Dev) (w : Work) : KeptOrZero x w (coresScrubbed part p d w) :=
  ((KeptOrZero.foldl _ (zeroCore_byte x) w).trans
    (KeptOrZero.foldl _ (fun a k => KeptOrZero.foldl _ (zeroWay_byte x k) a) _)).trans (updCoh_byte ..)

/-- What the scrub's end leaves: the entry is free, and a byte of a granule is as the scrub of the memory left it, or 0. -/
theorem endScrub_of_st {w : Work} {part : Nat} (h : (w.dev.partOf part).st = 5) :
    (endScrub part w).dev.partOf part = {} ∧
    (scrubsQueues w.dev part = false → ∀ x, KeptOrZero x (w.scrubMemory part) (endScrub part w)) := by
  unfold endScrub
  extract_lets p w0 w1 w2 cls w3 w4
  rw [if_neg fun hne : p.st ≠ 5 => hne h]
  refine ⟨tab_get_del_same w4.dev.parts part {}, fun hq x => ?_⟩
  have hw1 : w1 = w0 := if_neg (ne_true_of_eq_false hq)
  have hw4 : KeptOrZero x w1 w4 := coresScrubbed_byte x part p w.dev w1
  rw [hw1] at hw4
  exact (hw4.trans (mapDev_byte ..)).trans (mapDev_byte ..)

/-- R66 step 2: when the scrub ends every byte of the partition's granules is 0. -/
theorem endScrub_zero {w : Work} {part g a : Nat} (h : (w.dev.partOf part).st = 5) (hq : scrubsQueues w.dev part = false)
    (hs : w.dev.coh.swaps = []) (hg : g ∈ scrubGranules w.dev part) (ha : InGranule g a) : (endScrub part w).byte a = 0 := by
  refine ((endScrub_of_st h).2 hq a).zero ?_
  rw [scrubMemory_eq]
  exact scrubGranules_zero part hs hg ha

-- The scrub's beginning

theorem beginScrub_begun {w : Work} {part : Nat} (h0 : (w.dev.partOf part).st ≠ 0) (h5 : (w.dev.partOf part).st ≠ 5) :
    ((w.beginScrub part).dev.partOf part).st = 5 ∧ (w.beginScrub part).dev.host.policies.get? part = none := by
  unfold Work.beginScrub
  extract_lets st w1 w2 w3 fe
  rw [if_neg fun h : st = 0 ∨ st = 5 => h.elim h0 h5]
  exact ⟨congrArg Part.st (updPart_same ..), tab_get?_del_same ..⟩

-- Writes of an entry

theorem registersAnswer_running {d : Dev} (h : d.mode = .running) : registersAnswer d = true := decide_eq_true h

theorem registersAnswer_stopped {d : Dev} (h : d.mode ≠ .running) : registersAnswer d = false := decide_eq_false h

section Writes

variable {w : Work} {part field val : Nat}

theorem writeEntry_stopped (h : w.dev.mode ≠ .running) : writeEntry part field val w = w.reply .unsupported :=
  if_pos (registersAnswer_stopped h)

theorem frozen_iff (p : Part) : p.frozen = true ↔ p.conf = true ∧ (p.st = 2 ∨ p.st = 3 ∨ p.st = 1 ∧ p.locked ≠ []) := by
  unfold Part.frozen
  cases p.locked <;> simp [or_assoc]

/-- The write of an entry's field once the device runs and the field is the entry's own. -/
def fieldWritten (w : Work) (part field val : Nat) (p q : Part) : Work :=
  if p.st = 4 ∨ p.st = 5 then w.reply .unsupported
  else if p.frozen ∧ p.changesFrozen q field then (w.partError part).reply .unsupported
  else if p.st = 3 ∧ p.conf = false ∧ (field ≤ 5 ∨ field = 13) then w.reply .unsupported
  else if entryOk w.dev part q = false then w.reply .unsupported
  else
    let w1 := w.updPart part fun _ => q
    let w2 := if p.st = 0 then w1.mapDev fun d => { d with keyGen := d.keyGen.set part (d.keyGen.get part 0 + 1) } else w1
    if field = 13 then w2.setPrivate part val
    else ((w2.newGranules part p q).assignWorlds).reply .done

/-- An entry with a field written, configured where it was free. -/
def entryWritten (p : Part) (field val : Nat) : Part := { p.put field val with st := if p.st = 0 then 1 else p.st }

theorem writeEntry_field (h : w.dev.mode = .running) (h15 : field ≠ 15) (h14 : field ≠ 14) : writeEntry part field val w =
    fieldWritten w part field val (w.dev.partOf part) (entryWritten (w.dev.partOf part) field val) := by
  unfold writeEntry
  rw [if_neg (ne_false_of_eq_true (registersAnswer_running h)), if_neg h15, if_neg h14]
  rfl

variable {p q : Part}

theorem fieldWritten_closed (h : p.st = 4 ∨ p.st = 5 ∨ p.conf = false ∧ p.st = 3 ∧ (field ≤ 5 ∨ field = 13)) :
    fieldWritten w part field val p q = w.reply .unsupported := by
  unfold fieldWritten
  by_cases h45 : p.st = 4 ∨ p.st = 5
  · exact if_pos h45
  · obtain ⟨hc, h3, hf⟩ : p.conf = false ∧ p.st = 3 ∧ (field ≤ 5 ∨ field = 13) :=
      (or_assoc.2 h).resolve_left h45
    have hfree : ¬ p.frozen = true := fun hfr => ne_true_of_eq_false hc ((frozen_iff p).1 hfr).1
    rw [if_neg h45, if_neg fun hx => hfree hx.1, if_pos ⟨h3, hc, hf⟩]

theorem fieldWritten_frozen (hc : p.conf = true) (hst : p.st = 2 ∨ p.st = 3 ∨ p.st = 1 ∧ p.locked ≠ [])
    (hch : p.changesFrozen q field = true) : fieldWritten w part field val p q = (w.partError part).reply .unsupported := by
  unfold fieldWritten
  rw [if_neg (by omega), if_pos ⟨(frozen_iff p).2 ⟨hc, hst⟩, hch⟩]

theorem fieldWritten_open (hf : field ≤ 12) (hst : p.st ≤ 1) (hl : p.conf = false ∨ p.locked = []) :
    fieldWritten w part field val p q = if entryOk w.dev part q = false then w.reply .unsupported else
      (((if p.st = 0 then (w.updPart part fun _ => q).mapDev fun d => { d with
            keyGen := d.keyGen.set part (d.keyGen.get part 0 + 1) } else w.updPart part fun _ => q).newGranules
          part p q).assignWorlds).reply .done := by
  have hfree : ¬ p.frozen = true := by
    rw [frozen_iff]
    rintro ⟨hc, h2 | h3 | ⟨-, hne⟩⟩
    · omega
    · omega
    · exact hl.elim (fun h => ne_true_of_eq_false h hc) hne
  unfold fieldWritten
  rw [if_neg (by omega), if_neg fun hx => hfree hx.1, if_neg (by omega)]
  simp only [if_neg (show field ≠ 13 by omega)]

-- What a function is configured with

theorem configure_locked (hc : (w.dev.partOf part).conf = true) (hl : val % 64 ∈ (w.dev.partOf part).locked)
    (hv : val % 64 ∈ (w.dev.partOf part).vfs)
    (hch : (w.dev.fnConfig (val % 64)).put (val / 64 % 4) (val / 256 % 4096) (val / 2 ^ 20) ≠ w.dev.fnConfig (val % 64)) :
    w.configure part val = (w.partError part).reply .unsupported := by
  unfold Work.configure
  rw [if_neg (by simpa using hv), if_pos ⟨hc, List.contains_iff_mem.2 hl, hch⟩]

theorem configure_open (hv : val % 64 ∈ (w.dev.partOf part).vfs)
    (hl : (w.dev.partOf part).conf = false ∨ val % 64 ∉ (w.dev.partOf part).locked) :
    (w.configure part val).dev.fnConfig (val % 64) =
      (w.dev.fnConfig (val % 64)).put (val / 64 % 4) (val / 256 % 4096) (val / 2 ^ 20) := by
  unfold Work.configure
  rw [if_neg (by simpa using hv), if_neg]
  · exact tab_get_set_same ..
  · rintro ⟨hc, hmem, -⟩
    exact hl.elim (fun h => ne_true_of_eq_false h hc) fun h => h (List.contains_iff_mem.1 hmem)

end Writes

-- Enabling, deleting and the interface states

section Interfaces

variable {w : Work} {part fn k : Nat}

theorem enablePart_running (h : w.dev.mode = .running) : enablePart part w =
    if (w.dev.partOf part).st = 1 ∧ (w.dev.partOf part).conf = false ∧ (w.dev.partOf part).clusters ≠ 0 then
      (w.updPart part fun x => { x with st := 3 }).reply .done else w.reply .unsupported :=
  if_neg (ne_false_of_eq_true (registersAnswer_running h))

theorem deletePart_running (h : w.dev.mode = .running) : deletePart part w =
    if (w.dev.partOf part).st = 0 ∨ (w.dev.partOf part).st = 5 then w.reply .unsupported else (w.beginScrub part).reply .done :=
  if_neg (ne_false_of_eq_true (registersAnswer_running h))

/-- A request on a function's interface that is not turned down at once. -/
theorem interface_of_owner (f : Nat → Work) (hm : w.dev.mode = .running) (ho : vfOwner w.dev fn = some k) :
    (if registersAnswer w.dev = false then w.reply .unsupported else
      match vfOwner w.dev fn with
      | none => w.reply .unsupported
      | some k => f k) = f k := by
  rw [if_neg (ne_false_of_eq_true (registersAnswer_running hm)), ho]

theorem interface_refused (f : Nat → Work) (h : w.dev.mode ≠ .running ∨ vfOwner w.dev fn = none) :
    (if registersAnswer w.dev = false then w.reply .unsupported else
      match vfOwner w.dev fn with
      | none => w.reply .unsupported
      | some k => f k) = w.reply .unsupported := by
  by_cases hm : w.dev.mode = .running
  · rw [if_neg (ne_false_of_eq_true (registersAnswer_running hm)), h.resolve_left (not_not_intro hm)]
  · exact if_pos (registersAnswer_stopped hm)

theorem lockFunction_refused (h : w.dev.mode ≠ .running ∨ vfOwner w.dev fn = none) :
    lockFunction fn w = w.reply .unsupported := interface_refused _ h

theorem startFunction_refused (h : w.dev.mode ≠ .running ∨ vfOwner w.dev fn = none) :
    startFunction fn w = w.reply .unsupported := interface_refused _ h

theorem stopFunction_refused (h : w.dev.mode ≠ .running ∨ vfOwner w.dev fn = none) :
    stopFunction fn w = w.reply .unsupported := interface_refused _ h

/-- A function with the functions of a list, once. -/
def withFn (l : List Nat) (fn : Nat) : List Nat := if l.contains fn then l else fn :: l

theorem lockFunction_locks (hm : w.dev.mode = .running) (ho : vfOwner w.dev fn = some k) (h1 : (w.dev.partOf k).st = 1)
    (hc : (w.dev.partOf k).conf = true) (hcl : (w.dev.partOf k).clusters ≠ 0) : lockFunction fn w =
      (w.updPart k fun x => { x with
          locked := withFn (w.dev.partOf k).locked fn
          st := if x.vfs.all (withFn (w.dev.partOf k).locked fn).contains then 2 else 1 }).reply
        (.report (w.dev.partOf k).clusters (w.dev.partOf k).granules (w.dev.partOf k).vfs (w.dev.partOf k).world
          (w.dev.partOf k).keys (w.dev.fnConfig fn) (windowHandles w.dev (w.dev.partOf k).vfs) (w.dev.partOf k).evq) := by
  refine (interface_of_owner _ hm ho).trans (if_neg ?_)
  rintro (h | h | h)
  · exact h h1
  · exact ne_true_of_eq_false h hc
  · exact hcl h

theorem startFunction_starts (hm : w.dev.mode = .running) (ho : vfOwner w.dev fn = some k) (h2 : (w.dev.partOf k).st = 2) :
    startFunction fn w =
      ((w.updPart k fun x => { x with
          started := withFn (w.dev.partOf k).started fn
          st := if x.vfs.all (withFn (w.dev.partOf k).started fn).contains then 3 else 2 }).mapDev fun d => { d with
        host := { d.host with ide := if (d.spdmOf fn).session = 2 then fn :: d.host.ide.filter fun f => decide (f ≠ fn)
          else d.host.ide } }).reply .done :=
  (interface_of_owner _ hm ho).trans (if_neg (not_not_intro h2))

theorem startFunction_unlocked (hm : w.dev.mode = .running) (ho : vfOwner w.dev fn = some k) (h2 : (w.dev.partOf k).st ≠ 2) :
    startFunction fn w = w.reply .unsupported :=
  (interface_of_owner _ hm ho).trans (if_pos h2)

theorem stopFunction_stops (hm : w.dev.mode = .running) (ho : vfOwner w.dev fn = some k) :
    stopFunction fn w = (w.beginScrub k).reply .done := interface_of_owner _ hm ho

end Interfaces

-- The obligation

theorem table_instrs_stopped (σ : Machine.State) (part field val : Nat) (h : σ.dev.mode ≠ .running) :
    ∀ i ∈ [Instr.partitionEntryWrite part field val, .partitionEnable part, .partitionDelete part],
    exec i σ = .next (withDev σ { σ.dev with host := { σ.dev.host with reply := .unsupported } }) := by
  intro i hi
  simp only [List.mem_cons, List.not_mem_nil, or_false] at hi
  rcases hi with rfl | rfl | rfl
  · exact next_of_eq (writeEntry_stopped (w := Work.begin σ) h)
  · exact next_of_eq (if_pos (registersAnswer_stopped h))
  · exact next_of_eq (if_pos (registersAnswer_stopped h))

theorem interface_instrs_refused (σ : Machine.State) (fn : Nat) (h : σ.dev.mode ≠ .running ∨ vfOwner σ.dev fn = none) :
    ∀ i ∈ [Instr.lockInterface fn, .startInterface fn, .stopInterface fn],
    exec i σ = .next (withDev σ { σ.dev with host := { σ.dev.host with reply := .unsupported } }) := by
  intro i hi
  simp only [List.mem_cons, List.not_mem_nil, or_false] at hi
  rcases hi with rfl | rfl | rfl
  · exact next_of_eq (lockFunction_refused (w := Work.begin σ) h)
  · exact next_of_eq (startFunction_refused (w := Work.begin σ) h)
  · exact next_of_eq (stopFunction_refused (w := Work.begin σ) h)

/-- Settles O52: each operation of the table and of the interfaces from its guards, the scrub byte by byte. -/
theorem partitions : Obligations.Partitions := by
  unfold Obligations.Partitions
  refine ⟨⟨table_instrs_stopped, ?closed, ?frozen, ?opened, ?others, ?config, ?enable, ?delete, fun _ _ => beginScrub_begun,
    ?idle, ?scrub⟩, interface_instrs_refused, ?owned, fun _ _ => ⟨rfl, rfl⟩, fun _ _ => rfl, fun _ _ => partError_idle,
    fun _ _ => partError_st⟩
  case closed =>
    intro σ part field val p h14 h15 h
    refine next_of_eq (w := Work.begin σ |>.reply .unsupported) ?_
    by_cases hm : σ.dev.mode = .running
    · exact (writeEntry_field (w := Work.begin σ) hm h15 h14).trans (fieldWritten_closed h)
    · exact writeEntry_stopped hm
  case frozen =>
    intro σ part field val p hm h14 h15 hc hch hst
    exact next_of_eq ((writeEntry_field (w := Work.begin σ) hm h15 h14).trans (fieldWritten_frozen hc hst hch))
  case opened =>
    intro σ part field val p q hm hf hst hl
    have hw := (writeEntry_field (w := Work.begin σ) (part := part) (val := val) hm (by omega : field ≠ 15) (by omega)).trans
      (fieldWritten_open hf hst hl)
    exact ⟨fun hno => next_of_eq (hw.trans (if_pos hno)), fun hok => next_of_eq (hw.trans (if_neg (ne_false_of_eq_true hok)))⟩
  case others =>
    intro σ part val hm
    have hr := ne_false_of_eq_true (registersAnswer_running hm)
    exact ⟨next_of_eq ((if_neg hr).trans rfl), next_of_eq ((if_neg hr).trans rfl)⟩
  case config =>
    intro w part val fn p c
    exact ⟨fun hc hl hv hch => configure_locked hc hl hv hch, fun hv hl => configure_open hv hl⟩
  case enable =>
    intro σ part p hm
    exact (next_of_eq (enablePart_running (w := Work.begin σ) hm)).trans (next_ite rfl)
  case delete =>
    intro σ part p hm
    exact (next_of_eq (deletePart_running (w := Work.begin σ) hm)).trans (next_ite rfl)
  case idle =>
    intro σ part h
    exact next_of_eq (w := Work.begin σ) (if_pos h)
  case scrub =>
    intro σ part h
    refine ⟨(endScrub part (Work.begin σ)).commit, rfl, (endScrub_of_st (w := Work.begin σ) h).1, ?_⟩
    intro hq hs g a hg h1 h2
    exact (commit_read _ _).trans (endScrub_zero (w := Work.begin σ) h hq hs hg ⟨h1, h2⟩)
  case owned =>
    intro σ fn k hm ho p l s p2 p3
    exact ⟨fun h1 hc hcl => next_of_eq (lockFunction_locks (w := Work.begin σ) hm ho h1 hc hcl),
      fun h2 => next_of_eq (startFunction_starts (w := Work.begin σ) hm ho h2),
      fun h2 => next_of_eq (startFunction_unlocked (w := Work.begin σ) hm ho h2),
      next_of_eq (stopFunction_stops (w := Work.begin σ) hm ho)⟩

end Sys2Proof.Proofs.PartitionTable

end

section
/-! SPDM on the mailboxes, tenant keys, debug policies and the debug window (R70 to R75). -/

namespace Sys2Proof.Proofs.AttestationAndDebug

open Sys2Proof Sys2Proof.Machine Sys2Proof.Safety Sys2Proof.Laws Sys2Proof.Proofs.Traps Sys2Proof.Proofs.ResetAndRecovery
open Sys2Proof.Proofs.SchedulerEvents Sys2Proof.Proofs.CoreEventRules Sys2Proof.Proofs.PartitionTable

-- SPDM

section Spdm

variable {w : Work} {fn code : Nat} {ok : Spdm → Bool} {f : Spdm → Spdm}

/-- The host's side after a request of SPDM that its responder took, with the mailbox's next state but for its transcript. -/
def spdmTaken (d : Dev) (fn code : Nat) (s : Spdm) : HostSide := { d.host with
  spdm := d.host.spdm.set fn { s with transcript := Config.spdmBody (0x100 + code) s.transcript }
  reply := .spdm code 13 (spdmAlgs code) (Config.spdmBody code (Config.freeValue d.fresh)) }

theorem spdmRequest_silent (h : mailboxAnswers w.dev fn = false) : spdmRequest fn code ok f w = w.reply .unsupported := if_pos h

theorem spdmRequest_taken (h : mailboxAnswers w.dev fn = true) (hok : ok (w.dev.spdmOf fn) = true) :
    spdmRequest fn code ok f w =
      w.mapDev fun d => { d with fresh := d.fresh + 1, host := spdmTaken d fn code (f (d.spdmOf fn)) } := by
  unfold spdmRequest
  rw [if_neg (ne_false_of_eq_true h), if_pos hok]
  rfl

theorem spdmRequest_disordered (h : mailboxAnswers w.dev fn = true) (hok : ok (w.dev.spdmOf fn) = false) :
    spdmRequest fn code ok f w = w.reply .spdmError := by
  unfold spdmRequest
  rw [if_neg (ne_false_of_eq_true h), if_neg (ne_true_of_eq_false hok)]

theorem mailboxAnswers_iff (d : Dev) (fn : Nat) :
    mailboxAnswers d fn = true ↔ d.mode = .running ∨ d.mode = .recovery ∧ fn = 0 := by
  simp [mailboxAnswers]

/-- The outcomes of an instruction that is a request of SPDM: the mailbox is silent, takes the request or finds it out of order. -/
def SpdmOutcomes (i : Nat → Instr) (code : Nat) (ok : Spdm → Bool) (f : Spdm → Spdm) : Prop :=
  ∀ σ fn,
    (mailboxAnswers σ.dev fn = false → exec (i fn) σ =
      .next (withDev σ { σ.dev with host := { σ.dev.host with reply := .unsupported } })) ∧
    (mailboxAnswers σ.dev fn = true → ok (σ.dev.spdmOf fn) = true → exec (i fn) σ =
      .next (withDev σ { σ.dev with fresh := σ.dev.fresh + 1, host := spdmTaken σ.dev fn code (f (σ.dev.spdmOf fn)) })) ∧
    (mailboxAnswers σ.dev fn = true → ok (σ.dev.spdmOf fn) = false → exec (i fn) σ =
      .next (withDev σ { σ.dev with host := { σ.dev.host with reply := .spdmError } }))

theorem spdmOutcomes {i : Nat → Instr} (h : ∀ σ fn, exec (i fn) σ = .next (spdmRequest fn code ok f (Work.begin σ)).commit) :
    SpdmOutcomes i code ok f := by
  intro σ fn
  rw [h σ fn]
  exact ⟨fun hm => next_of_eq (spdmRequest_silent (w := Work.begin σ) hm),
    fun hm hok => next_of_eq (spdmRequest_taken (w := Work.begin σ) hm hok),
    fun hm hok => next_of_eq (spdmRequest_disordered (w := Work.begin σ) hm hok)⟩

theorem measure_answered {block : Nat} (h : mailboxAnswers w.dev fn = true) : Machine.measure fn block w =
    if (w.dev.spdmOf fn).algs = true ∧ 1 ≤ block ∧ block ≤ 8 then
      let w1 := w.updSpdm fn fun s => { s with transcript := Config.spdmBody (0x200 + block) s.transcript }
      w1.reply (.spdm 0xE0 13 [.ed25519, .sha384] (measurement w1.dev fn block))
    else w.reply .spdmError := by
  unfold Machine.measure
  rw [if_neg (ne_false_of_eq_true h)]
  by_cases hb : (w.dev.spdmOf fn).algs = true ∧ 1 ≤ block ∧ block ≤ 8
  · obtain ⟨ha, h1, h8⟩ := hb
    have hno : ¬ ((w.dev.spdmOf fn).algs = false ∨ block = 0 ∨ 8 < block) := by
      rw [ha]
      simp
      omega
    rw [if_neg hno, if_pos ⟨ha, h1, h8⟩]
  · have hyes : (w.dev.spdmOf fn).algs = false ∨ block = 0 ∨ 8 < block := by
      refine Decidable.byContradiction fun hno => ?_
      rw [not_or, not_or, Bool.not_eq_false] at hno
      exact hb ⟨hno.1, by omega, by omega⟩
    rw [if_pos hyes, if_neg hb]

end Spdm

-- Tenant keys and policies

section Tenant

variable {w : Work} {fn part x : Nat}

theorem frozen_of_configuring {p : Part} (h : p.st = 1) : p.frozen = false ↔ p.conf = false ∨ p.locked = [] := by
  unfold Part.frozen
  rw [h]
  cases p.conf <;> simp

theorem deliverKey_of_owner (h : vfOwner w.dev fn = some part) : deliverKey fn x w =
    if w.dev.mode = .running ∧ (w.dev.partOf part).st = 1 ∧
        ((w.dev.partOf part).conf = false ∨ (w.dev.partOf part).locked = []) ∧ (w.dev.spdmOf fn).session = 2 then
      (w.updPart part fun y => { y with keys := [x] }).reply .done
    else w.reply .unsupported := by
  unfold deliverKey
  rw [h]
  refine ite_congr (propext ?_) (fun _ => rfl) fun _ => rfl
  rw [registersAnswer, decide_eq_true_eq]
  refine and_congr_right fun _ => and_congr_right fun h1 => ?_
  rw [frozen_of_configuring h1]

theorem takePolicy_of_owner (h : vfOwner w.dev fn = some part) : takePolicy fn x w =
    if w.dev.mode = .running ∧ policyOk w.dev part x = true then
      (w.mapDev fun d => { d with host := { d.host with
        policies := d.host.policies.set part
          { open_ := packedBytes x 6 2, version := packedBytes x 8 8, digest := sha384 x (128 + 64 + 3309) } } }).reply .done
    else w.reply .unsupported := by
  unfold takePolicy
  rw [h]
  refine ite_congr (propext ?_) (fun _ => rfl) fun _ => rfl
  rw [registersAnswer, decide_eq_true_eq]

theorem unowned_refused (σ : Machine.State) (h : vfOwner σ.dev fn = none) :
    ∀ i ∈ [Instr.tenantKeyDelivery fn x, .debugPolicy fn x],
    exec i σ = .next (withDev σ { σ.dev with host := { σ.dev.host with reply := .unsupported } }) := by
  have hkey : deliverKey fn x (Work.begin σ) = (Work.begin σ).reply .unsupported := by
    rw [deliverKey, show vfOwner (Work.begin σ).dev fn = none from h]
  have hpol : takePolicy fn x (Work.begin σ) = (Work.begin σ).reply .unsupported := by
    rw [takePolicy, show vfOwner (Work.begin σ).dev fn = none from h]
  intro i hi
  simp only [List.mem_cons, List.not_mem_nil, or_false] at hi
  rcases hi with rfl | rfl
  · exact next_of_eq hkey
  · exact next_of_eq hpol

/-- R73: a policy is not replaced by one whose version is no higher. -/
theorem policyOk_old {d : Dev} {rec : Nat} {y : Policy} (h : d.host.policies.get? part = some y)
    (hv : packedBytes rec 8 8 ≤ y.version) : policyOk d part rec = false := by
  unfold policyOk
  rw [h]
  simp [hv]

end Tenant

/-- Settles O53: each request by the mailbox's three outcomes, keys and policies by the function's owner. -/
theorem spdmRequests : Obligations.SpdmRequests := by
  unfold Obligations.SpdmRequests
  refine ⟨?requests, mailboxAnswers_iff, ?measure, fun _ _ _ hm hb => if_pos ⟨hm, hb⟩, ?keys, ?policy,
    fun σ _ _ h => unowned_refused σ h, fun _ _ _ _ => policyOk_old⟩
  case requests =>
    rw [List.forall_mem_cons, List.forall_mem_cons, List.forall_mem_cons, List.forall_mem_cons, List.forall_mem_cons,
      List.forall_mem_cons, List.forall_mem_cons, List.forall_mem_cons, List.forall_mem_cons, List.forall_mem_singleton]
    exact ⟨spdmOutcomes fun _ _ => rfl, spdmOutcomes fun _ _ => rfl, spdmOutcomes fun _ _ => rfl, spdmOutcomes fun _ _ => rfl,
      spdmOutcomes fun _ _ => rfl, spdmOutcomes fun _ _ => rfl, spdmOutcomes fun _ _ => rfl, spdmOutcomes fun _ _ => rfl,
      spdmOutcomes fun _ _ => rfl, spdmOutcomes fun _ _ => rfl⟩
  case measure =>
    intro σ fn b h s d
    exact (next_of_eq (measure_answered (w := Work.begin σ) h)).trans (congrArg Host.Outcome.next (apply_ite Work.commit _ _ _))
  case keys =>
    intro σ fn part key h p p2
    exact (next_of_eq (deliverKey_of_owner (w := Work.begin σ) h)).trans (congrArg Host.Outcome.next (apply_ite Work.commit _ _ _))
  case policy =>
    intro σ fn part rec h x hs
    exact (next_of_eq (takePolicy_of_owner (w := Work.begin σ) h)).trans (congrArg Host.Outcome.next (apply_ite Work.commit _ _ _))

-- Holds (R74, R75)

section Holds

variable {w : Work} {fn : Nat} {on : Bool}

theorem haltWrite_unanswered (h : answers w.dev fn = false) : haltWrite fn on w = w.reply .unsupported := if_pos h

theorem haltWrite_unowned (h : answers w.dev fn = true) (ho : debugOwn w.dev fn = false) : haltWrite fn on w = w.reply .done := by
  unfold haltWrite
  rw [if_neg (ne_false_of_eq_true h), if_pos ho]

theorem haltWrite_owned (h : answers w.dev fn = true) (ho : debugOwn w.dev fn = true) : haltWrite fn on w =
    if bit (debugOpen w.dev fn) 3 = false then (w.countRefusal 60 (debugPart w.dev fn) fn).reply .unsupported
    else (w.setHalt fn on).reply .done := by
  unfold haltWrite
  rw [if_neg (ne_false_of_eq_true h), if_neg (ne_false_of_eq_true ho)]

/-- Both writes of HALT, where they come to the same. -/
theorem halts_of {σ : Machine.State} {v : Work} (h : ∀ on, haltWrite fn on (Work.begin σ) = v) :
    ∀ i ∈ [Instr.haltRequest fn, .haltRelease fn], exec i σ = .next v.commit := by
  intro i hi
  simp only [List.mem_cons, List.not_mem_nil, or_false] at hi
  rcases hi with rfl | rfl
  · exact next_of_eq (h true)
  · exact next_of_eq (h false)

/-- A context that runs no task of a quire is held alone. -/
theorem setHalt_alone (h : (w.ctx (w.dev.dbgOf fn).core (w.dev.dbgOf fn).bank).busy = false ∨
      (w.ctx (w.dev.dbgOf fn).core (w.dev.dbgOf fn).bank).ebb = true) :
    w.setHalt fn on = w.updCtx (w.dev.dbgOf fn).core (w.dev.dbgOf fn).bank
      fun y => { y with halt := if on then max 1 y.halt else 0 } := by
  unfold Work.setHalt
  extract_lets x c ks
  have hks : ks = [x.core] := if_neg fun hbe : c.busy ∧ c.ebb = false =>
    h.elim (fun hn => ne_true_of_eq_false hn hbe.1) (ne_true_of_eq_false hbe.2)
  rw [hks]
  rfl

theorem setHalt_halt (h : (w.ctx (w.dev.dbgOf fn).core (w.dev.dbgOf fn).bank).busy = false ∨
      (w.ctx (w.dev.dbgOf fn).core (w.dev.dbgOf fn).bank).ebb = true) :
    ((w.setHalt fn on).ctx (w.dev.dbgOf fn).core (w.dev.dbgOf fn).bank).halt =
      if on then max 1 (w.ctx (w.dev.dbgOf fn).core (w.dev.dbgOf fn).bank).halt else 0 := by
  rw [setHalt_alone h]
  exact congrArg Ctx.halt (ctx_updCtx_same ..)

end Holds

-- Registers (Tables 3.8, 3.9)

section Registers

variable {w : Work} {fn off val : Nat}

theorem hostWrite_unanswered (ho : fn ≠ 0 ∨ off < 0x50000 ∨ 0x70000 ≤ off) (h : answers w.dev fn = false) :
    hostWrite fn off val w = w.reply .unsupported := by
  unfold hostWrite
  rw [if_neg (by omega), if_pos h]

theorem answers_pf (h : w.dev.mode = .running) : answers w.dev 0 = true := by
  simp [answers, h]

theorem hostWrite_unlisted (h1 : 0x40000 ≤ off) (h2 : off ≠ 0x40000) (h3 : off ≠ 0x40004) (h4 : off < 0x50000)
    (hm : w.dev.mode = .running) : hostWrite 0 off val w = w.reply .done := by
  unfold hostWrite
  rw [if_neg (by omega), if_neg (ne_false_of_eq_true (answers_pf hm)), if_pos rfl, if_neg (by omega), if_neg (by omega),
    if_neg h2, if_neg h3, if_pos h4]

theorem hostWrite_vectors (h1 : 0x20000 ≤ off) (h2 : off < 0x40000) (hm : w.dev.mode = .running) : hostWrite 0 off val w =
    (w.mapDev fun d => { d with host := { d.host with vectors := d.host.vectors.set off val } }).reply .done := by
  unfold hostWrite
  rw [if_neg (by omega), if_neg (ne_false_of_eq_true (answers_pf hm)), if_pos rfl, if_neg (by omega), if_pos h2]

/-- The summary's count goes up with the record. -/
def summaryCounted (d : Dev) : Dev := { d with host := { d.host with sumCount := d.host.sumCount + 1 } }

theorem readSummary_eq (w : Work) : readSummary w = ((w.mapDev summaryCounted).writeN (Key.recWin 0) 4096
    (summaryRecord (summaryCounted w.dev) 16)).updRecovery fun r => { r with st := 2, why := 0, storing := none } := rfl

theorem readSummary_dev (w : Work) : (readSummary w).dev =
    { summaryCounted w.dev with recovery := { w.dev.recovery with st := 2, why := 0, storing := none } } := by
  rw [readSummary_eq]
  generalize hv : (w.mapDev summaryCounted).writeN (Key.recWin 0) 4096 (summaryRecord (summaryCounted w.dev) 16) = v
  have hdev : v.dev = summaryCounted w.dev := hv ▸ writeN_dev ..
  rw [Work.updRecovery, Work.mapDev, hdev]
  rfl

theorem readN_writeN_bits (w : Work) (k n v : Nat) : (w.writeN k n v).readN k n = v % 2 ^ (8 * n) := by
  rw [readN_writeN, Nat.pow_mul]

theorem readN_updRecovery (w : Work) (k n : Nat) (f : Recovery → Recovery) : (w.updRecovery f).readN k n = w.readN k n :=
  readN_congr fun _ _ => rfl

theorem readSummary_record (w : Work) : (readSummary w).readN (Key.recWin 0) 4096 =
    summaryRecord (summaryCounted w.dev) 16 % 2 ^ (8 * 4096) := by
  rw [readSummary_eq, readN_updRecovery, readN_writeN_bits]

end Registers

/-- Settles O54: the writes of HALT by their guards, registers by the map, the summary by what its write leaves. -/
theorem debugAndRegisters : Obligations.DebugAndRegisters := by
  unfold Obligations.DebugAndRegisters
  refine ⟨fun σ fn h => halts_of fun _ => haltWrite_unanswered (w := Work.begin σ) h,
    fun σ fn h ho => halts_of fun _ => haltWrite_unowned (w := Work.begin σ) h ho, ?owned, ?alone,
    fun σ off val h1 h2 h3 h4 hm => next_of_eq (hostWrite_unlisted (w := Work.begin σ) h1 h2 h3 h4 hm), ?vectors,
    fun σ fn off val ho h => next_of_eq (hostWrite_unanswered (w := Work.begin σ) ho h), ?summary,
    fun w => ⟨readSummary_record w, readSummary_dev w⟩⟩
  case owned =>
    intro σ fn h ho
    have hw (on : Bool) := haltWrite_owned (w := Work.begin σ) (on := on) h ho
    exact ⟨fun hb => ⟨next_of_eq ((hw true).trans (if_neg (ne_false_of_eq_true hb))),
      next_of_eq ((hw false).trans (if_neg (ne_false_of_eq_true hb)))⟩, fun hb => halts_of fun on => (hw on).trans (if_pos hb)⟩
  case alone =>
    intro w fn x c h
    exact ⟨setHalt_halt (on := true) h, setHalt_halt (on := false) h⟩
  case vectors =>
    intro σ off val h1 h2 hm h
    exact next_of_eq (hostWrite_vectors (w := Work.begin σ) h1 h2 hm)
  case summary =>
    intro σ
    by_cases h : σ.dev.recovery.st = 1
    · rw [if_pos h]
      exact next_of_eq (command_busy h _)
    · rw [if_neg h]
      exact next_of_eq (command_free h _)

end Sys2Proof.Proofs.AttestationAndDebug

end

section
/-! The host's memory requests (R62, R67, R69, R76 to R78, R185, R205). -/

namespace Sys2Proof.Proofs.HostMemory

open Sys2Proof Sys2Proof.Machine Sys2Proof.Safety Sys2Proof.Laws Sys2Proof.Proofs.PackageLinks
open Sys2Proof.Proofs.SchedulerEvents Sys2Proof.Proofs.CoreEventRules

section Requests

variable {w : Work} {fn : Nat} {q : MemReq}

/-- Every byte of the request lies in the host's own window. -/
def inHostWindow (q : MemReq) : Bool :=
  decide (0 < q.len) && (linesOf q.addr q.len).all fun l => decide (regionOf (64 * l) = .host)

theorem hostRequest_own (ho : inHostWindow q = true) (hm : w.dev.mode = .running) :
    hostRequest q w = hostPerforms q.agent q w := if_pos ⟨ho, hm⟩

theorem hostRequest_function (ho : inHostWindow q = false ∨ w.dev.mode ≠ .running) : hostRequest q w =
    if answers w.dev q.agent = false then w.reply .unsupported
    else if confRefused w.dev q.agent q.addr q.len then (w.countRefusal 11 16 q.agent).reply .unsupported
    else if rangeFault w.dev 0 q.addr q.len false ≠ 0 ∨ anyPrivate w.dev q.addr q.len ∨
        hostMay w.dev q.agent q.addr q.len = false then w.reply .unsupported
    else hostPerforms q.agent q w :=
  if_neg fun h => ho.elim (fun hno => ne_true_of_eq_false hno h.1) fun hno => hno h.2

-- What is let through, by its kind

/-- The request as it has crossed the port. -/
def crossed (d : Dev) (q : MemReq) : MemReq := { q with data := q.data ^^^ portPad d q.addr q.len }

/-- A load or a store, or a line asked for, once nothing holds it up. -/
def hostServed (w : Work) (q : MemReq) : Work :=
  if q.kind = 0 ∨ (q.kind = 5 ∧ hostCaches w.dev q.addr q.len = false) then
    ((w.serveHost q.addr q.len).outsideAccess hostAgent { crossed w.dev q with kind := 0 } .unsupported).crossPort q.addr q.len
  else if q.kind = 1 then
    ((w.dropHost q.addr q.len).serveHost q.addr q.len).outsideAccess hostAgent (crossed w.dev q) .unsupported
  else if hostCaches w.dev q.addr q.len then
    ((w.grantHost (q.addr / 64) (decide (q.kind = 2))).reply (if w.poisonAt (64 * (q.addr / 64)) 64 ≠ 0 then .poisoned
      else .value (w.pread (64 * (q.addr / 64)) 64))).crossPort (64 * (q.addr / 64)) 64
  else w.reply .unsupported

theorem hostPerforms_access (h : q.kind ≤ 2 ∨ q.kind = 5) : hostPerforms fn q w =
    if rangeFault w.dev 0 q.addr q.len true ≠ 0 then w.reply .unsupported
    else if (linesOf q.addr q.len).any (hostOwns w.dev) then w.reply .none
    else if hostWaits w.dev q.addr q.len (decide (q.kind = 1) || decide (q.kind = 2)) then
      (w.snoopLines q.addr q.len).askAgain 0 fn q
    else hostServed w q := by
  obtain ⟨agent, addr, len, kind, data⟩ := q
  have hk : kind = 0 ∨ kind = 1 ∨ kind = 2 ∨ kind = 5 := by
    simp only at h
    omega
  rcases hk with rfl | rfl | rfl | rfl <;> rfl

end Requests

section Outcomes

variable {w : Work} {fn : Nat} {q : MemReq} (h : q.kind ≤ 2 ∨ q.kind = 5)
include h

theorem hostPerforms_unreached (hr : rangeFault w.dev 0 q.addr q.len true ≠ 0) : hostPerforms fn q w = w.reply .unsupported :=
  (hostPerforms_access h).trans (if_pos hr)

theorem hostPerforms_held (hr : rangeFault w.dev 0 q.addr q.len true = 0)
    (ho : (linesOf q.addr q.len).any (hostOwns w.dev) = true) : hostPerforms fn q w = w.reply .none :=
  (hostPerforms_access h).trans ((if_neg (not_not_intro hr)).trans (if_pos ho))

variable (hr : rangeFault w.dev 0 q.addr q.len true = 0) (ho : (linesOf q.addr q.len).any (hostOwns w.dev) = false)
include hr ho

theorem hostPerforms_waits (hw : hostWaits w.dev q.addr q.len (decide (q.kind = 1) || decide (q.kind = 2)) = true) :
    hostPerforms fn q w = (w.snoopLines q.addr q.len).askAgain 0 fn q :=
  (hostPerforms_access h).trans ((if_neg (not_not_intro hr)).trans ((if_neg (ne_true_of_eq_false ho)).trans (if_pos hw)))

theorem hostPerforms_served (hw : hostWaits w.dev q.addr q.len (decide (q.kind = 1) || decide (q.kind = 2)) = false) :
    hostPerforms fn q w = hostServed w q :=
  (hostPerforms_access h).trans ((if_neg (not_not_intro hr)).trans ((if_neg (ne_true_of_eq_false ho)).trans
    (if_neg (ne_true_of_eq_false hw))))

end Outcomes

section Served

variable {w : Work} {q : MemReq}

theorem hostServed_load (h : q.kind = 0 ∨ q.kind = 5 ∧ hostCaches w.dev q.addr q.len = false) : hostServed w q =
    ((w.serveHost q.addr q.len).outsideAccess hostAgent { crossed w.dev q with kind := 0 } .unsupported).crossPort q.addr q.len :=
  if_pos h

theorem hostServed_store (h : q.kind = 1) : hostServed w q =
    ((w.dropHost q.addr q.len).serveHost q.addr q.len).outsideAccess hostAgent (crossed w.dev q) .unsupported := by
  unfold hostServed
  rw [if_neg (by omega), if_pos h]

theorem hostServed_grant (h : q.kind = 2 ∨ q.kind = 5) (hc : hostCaches w.dev q.addr q.len = true) : hostServed w q =
    ((w.grantHost (q.addr / 64) (decide (q.kind = 2))).reply (if w.poisonAt (64 * (q.addr / 64)) 64 ≠ 0 then .poisoned
      else .value (w.pread (64 * (q.addr / 64)) 64))).crossPort (64 * (q.addr / 64)) 64 := by
  have hload : ¬ (q.kind = 0 ∨ q.kind = 5 ∧ hostCaches w.dev q.addr q.len = false) := by
    rintro (h0 | ⟨-, hno⟩)
    · omega
    · exact ne_true_of_eq_false hno hc
  unfold hostServed
  rw [if_neg hload, if_neg (by omega), if_pos hc]

theorem hostServed_biased (h : q.kind = 2) (hc : hostCaches w.dev q.addr q.len = false) : hostServed w q = w.reply .unsupported := by
  unfold hostServed
  rw [if_neg (by omega), if_neg (by omega), if_neg (ne_true_of_eq_false hc)]

end Served

-- What the host's caches give back

section GivenBack

variable {w : Work} {fn : Nat} {q : MemReq}

/-- What the host's caches hold of the request's line. -/
def heldLine (w : Work) (q : MemReq) : Option GuestLine := w.dev.host.dir.find? fun x => decide (x.line = q.addr / 64)

theorem hostPerforms_writeBack (h : q.kind = 3) : hostPerforms fn q w =
    if (heldLine w q).any fun x => x.owned then
      (w.dropHost (64 * (q.addr / 64)) 64).throughFlip fun y => (Work.agentWrite hostAgent 2 (64 * (q.addr / 64)) 64
        (q.data ^^^ portPad w.dev (64 * (q.addr / 64)) 64) y).reply .done
    else w.reply .unsupported := by
  obtain ⟨agent, addr, len, kind, data⟩ := q
  obtain rfl : kind = 3 := h
  rfl

theorem hostPerforms_drop (h : q.kind = 4) : hostPerforms fn q w =
    (if (heldLine w q).any fun x => x.owned then w else w.dropHost (64 * (q.addr / 64)) 64).reply .done := by
  obtain ⟨agent, addr, len, kind, data⟩ := q
  obtain rfl : kind = 4 := h
  rfl

theorem heldLine_shared (h : ∀ x, heldLine w q = some x → x.owned = false) : (heldLine w q).any (fun x => x.owned) = false := by
  cases hx : heldLine w q with
  | none => rfl
  | some x => exact h x hx

end GivenBack

-- The port's encryption (R67)

theorem portPad_one {d : Dev} {pa : Nat} (h : regionOf pa ≠ .host ∨ granuleOwned d 16 (granuleOf pa) = true) :
    portPad d pa 1 = 0 := by
  rw [portPad, portPad]
  rcases h with h | h
  · split
    · rfl
    · rw [if_neg h]
  · have hnone : (List.range 16).find? (fun k => inRanges (d.partOf k).granules (granuleOf pa)) = none := by
      rw [List.find?_eq_none]
      intro k hk
      simpa using List.all_eq_true.1 h k hk
    rw [hnone]

/-- A read within a line of clean memory returns the line's bytes and changes none. -/
theorem outsideRead_clean (σ : Machine.State) {q : MemReq} {err : Reply} (hk : q.kind = 0) (hlen : 0 < q.len)
    (hline : q.addr % 64 + q.len ≤ 64) (hclean : anyPoison (Work.begin σ) q.addr q.len = false) :
    SameBytes σ ((Work.begin σ).outsideAccess hostAgent q err).commit ∧
      ((Work.begin σ).outsideAccess hostAgent q err).commit.dev.host.reply = .value ((Work.begin σ).pread q.addr q.len) := by
  rw [Work.outsideAccess, if_pos hk]
  refine ⟨BytesKept.same (agentRead_kept _ _ _ _ ⟨rfl, rfl⟩), ?_⟩
  rw [hclean, ← agentRead_line hostAgent _ _ _ hlen hline]
  rfl

/-- Settles O55: a request's guards, then the branch of its kind. -/
theorem hostMemoryRequests : Obligations.HostMemoryRequests := by
  unfold Obligations.HostMemoryRequests
  refine ⟨?request, ?access, ?back, fun d pa => portPad_one, fun w l own => ⟨_, rfl, rfl, rfl, rfl⟩, ?read⟩
  case request =>
    intro σ q fn own
    refine ⟨fun ho hm => next_of_eq (hostRequest_own (w := Work.begin σ) ho hm), fun ho => ?_⟩
    have hreq := hostRequest_function (w := Work.begin σ) (q := q) ho
    refine ⟨fun ha => next_of_eq (hreq.trans (if_pos ha)), fun ha => ?_⟩
    have hreq := hreq.trans (if_neg (ne_false_of_eq_true ha))
    refine ⟨fun hc => next_of_eq (hreq.trans (if_pos hc)), fun hc hno => ?_, fun hc hr hp hm => ?_⟩
    · refine next_of_eq (w := (Work.begin σ).reply .unsupported) (hreq.trans ((if_neg (ne_true_of_eq_false hc)).trans (if_pos hno)))
    · refine next_of_eq (hreq.trans ((if_neg (ne_true_of_eq_false hc)).trans (if_neg ?_)))
      rintro (hno | hno | hno)
      · exact hno hr
      · exact ne_true_of_eq_false hp hno
      · exact ne_true_of_eq_false hno hm
  case access =>
    intro w fn q h n l cr waits
    refine ⟨hostPerforms_unreached h, hostPerforms_held h, fun hr ho => ⟨hostPerforms_waits h hr ho, fun hw => ?_⟩⟩
    have hserved := hostPerforms_served (fn := fn) h hr ho hw
    exact ⟨fun hk => hserved.trans (hostServed_load hk), fun hk => hserved.trans (hostServed_store hk),
      fun hk hc => hserved.trans (hostServed_grant hk hc), fun hk hc => hserved.trans (hostServed_biased hk hc)⟩
  case back =>
    intro w fn q l held
    refine ⟨fun hk ho => ?_, fun hk ho => ?_, fun hk ho => ?_⟩
    · obtain ⟨x, hx, hown⟩ := ho
      exact (hostPerforms_writeBack hk).trans (if_pos (by rw [show heldLine w q = some x from hx]; exact hown))
    · exact (hostPerforms_writeBack hk).trans (if_neg (ne_true_of_eq_false (heldLine_shared ho)))
    · exact (hostPerforms_drop hk).trans (by rw [if_neg (ne_true_of_eq_false (heldLine_shared ho))])
  case read =>
    intro σ q w hk hw hlen hline hr hclean hs hd
    exact ⟨_, rfl, outsideRead_clean σ hk hlen hline hclean⟩

end Sys2Proof.Proofs.HostMemory

end

section
/-! The host's queue-binding windows and a peer's enqueue (R64, R108, R109, R120, R122, R125, Table 5.3). -/

namespace Sys2Proof.Proofs.QueueWindowRules

open Sys2Proof Sys2Proof.Machine Sys2Proof.Safety Sys2Proof.Laws
open Sys2Proof.Proofs.SchedulerEvents Sys2Proof.Proofs.CoreEventRules

section Windows

variable {w : Work} {fn win : Nat}

-- BIND

/-- A window is written. -/
def windowPut (fn win : Nat) (a : Work) (x : Window) : Work :=
  (a.mapDev fun d => { d with host := { d.host with wins := d.host.wins.set (16 * fn + win) x } }).reply .done

/-- A BIND that is let through. -/
def windowBound (fn win h : Nat) (w : Work) : Work :=
  let part := (functionPart w.dev fn).getD 16
  if 2 ^ 56 ≤ h ∨ h % 64 ≠ 0 then windowPut fn win w {}
  else match translate w (deviceAsker w.dev part 0) [] h with
    | .error e => windowPut fn win (w.awaits e) {}
    | .ok x =>
      if reachFault w.dev 0 x.pa = 0 ∧ (w.block x.pa).owner = part ∧ wholeQueue w x.pa ∧
          reachable w.dev 0 (queueSlice w x.pa) then
        windowPut fn win (w.adopt x.pa h part (queueSlice w x.pa)) { handle := h, cb := x.pa }
      else windowPut fn win w {}

theorem answered_and_had (ha : answers w.dev fn = true) (hw : hasWindow fn win = true) :
    ¬ (answers w.dev fn = false ∨ hasWindow fn win = false) :=
  fun h => h.elim (fun h => ne_true_of_eq_false h ha) fun h => ne_true_of_eq_false h hw

theorem bindWindow_answered {h : Nat} (ha : answers w.dev fn = true) (hw : hasWindow fn win = true) : bindWindow fn win h w =
    if bindingFrozen w.dev fn ∧ (w.dev.window fn win).handle ≠ h then w.reply .unsupported else windowBound fn win h w :=
  if_neg (answered_and_had ha hw)

theorem windowBound_misnamed {h : Nat} (hh : 2 ^ 56 ≤ h ∨ h % 64 ≠ 0) : windowBound fn win h w = windowPut fn win w {} :=
  if_pos hh

theorem windowBound_named {h : Nat} (hlt : h < 2 ^ 56) (hal : h % 64 = 0) : ¬ (2 ^ 56 ≤ h ∨ h % 64 ≠ 0) := by
  omega

theorem windowBound_error {h : Nat} {e : XErr} (hh : ¬ (2 ^ 56 ≤ h ∨ h % 64 ≠ 0))
    (ht : translate w (deviceAsker w.dev ((functionPart w.dev fn).getD 16) 0) [] h = .error e) :
    windowBound fn win h w = windowPut fn win (w.awaits e) {} := by
  unfold windowBound
  rw [if_neg hh, ht]

theorem windowBound_ok {h : Nat} {x : Xlat} (hh : ¬ (2 ^ 56 ≤ h ∨ h % 64 ≠ 0))
    (ht : translate w (deviceAsker w.dev ((functionPart w.dev fn).getD 16) 0) [] h = .ok x) :
    windowBound fn win h w = if reachFault w.dev 0 x.pa = 0 ∧ (w.block x.pa).owner = (functionPart w.dev fn).getD 16 ∧
          wholeQueue w x.pa ∧ reachable w.dev 0 (queueSlice w x.pa) then
        windowPut fn win (w.adopt x.pa h ((functionPart w.dev fn).getD 16) (queueSlice w x.pa)) { handle := h, cb := x.pa }
      else windowPut fn win w {} := by
  unfold windowBound
  rw [if_neg hh, ht]

-- The aperture, CLAIM and RELEASE

theorem windowCheck_unbound (h : (w.dev.window fn win).handle = 0) : windowCheck w fn win = some (21, w) := if_pos h

section Unanswered

variable (h : answers w.dev fn = false ∨ hasWindow fn win = false)
include h

theorem windowEnqueue_unanswered {elem len : Nat} : windowEnqueue fn win elem len w = w.reply .unsupported := if_pos h

theorem windowClaim_unanswered : windowClaim fn win w = w.reply .unsupported := if_pos h

theorem windowRelease_unanswered {n : Nat} : windowRelease fn win n w = w.reply .unsupported := if_pos h

theorem bindWindow_unanswered {n : Nat} : bindWindow fn win n w = w.reply .unsupported := if_pos h

end Unanswered

/-- The answer of the home to an element written to the aperture. -/
def enqueueAnswered (fn : Nat) (r : HomeAns × Work) : Work :=
  match r.1 with
  | .done _ _ _ => r.2.reply .done
  | .full => r.2.refuseWindow 16 fn
  | .empty => r.2.reply .done
  | .waiting => r.2.reply .done
  | .held => r.2.reply .done
  | .refused c => r.2.refuseWindow c fn

/-- The answer of the home to a claim. -/
def claimAnswered (fn : Nat) (r : HomeAns × Work) : Work :=
  match r.1 with
  | .done t _ _ => r.2.reply (.value t)
  | .full => r.2.reply (.value (2 ^ 64 - 1))
  | .empty => r.2.reply (.value (2 ^ 64 - 1))
  | .waiting => r.2.reply (.value (2 ^ 64 - 1))
  | .held => r.2.reply (.value (2 ^ 64 - 1))
  | .refused c => r.2.refuseWindow c fn

/-- The answer of the home to a release. -/
def releaseAnswered (fn : Nat) (r : HomeAns × Work) : Work :=
  match r.1 with
  | .done _ _ _ => r.2.reply .done
  | .full => r.2.reply .done
  | .empty => r.2.reply .done
  | .waiting => r.2.reply .done
  | .held => r.2.reply .done
  | .refused c => r.2.refuseWindow c fn

section Answers

variable {r : HomeAns × Work} {t a c : Nat}

theorem enqueueAnswered_done {e : Nat} (h : r.1 = .done a c e) : enqueueAnswered fn r = r.2.reply .done := by
  rw [enqueueAnswered, h]

theorem enqueueAnswered_full (h : r.1 = .full) : enqueueAnswered fn r = r.2.refuseWindow 16 fn := by
  rw [enqueueAnswered, h]

theorem enqueueAnswered_refused (h : r.1 = .refused c) : enqueueAnswered fn r = r.2.refuseWindow c fn := by
  rw [enqueueAnswered, h]

theorem claimAnswered_done (h : r.1 = .done t a c) : claimAnswered fn r = r.2.reply (.value t) := by
  rw [claimAnswered, h]

theorem claimAnswered_full (h : r.1 = .full) : claimAnswered fn r = r.2.reply (.value (2 ^ 64 - 1)) := by
  rw [claimAnswered, h]

end Answers

theorem releaseAnswered_unrefused {r : HomeAns × Work} (h : ∀ c, r.1 ≠ .refused c) : releaseAnswered fn r = r.2.reply .done := by
  unfold releaseAnswered
  split
  case h_6 c hc => exact absurd hc (h c)
  all_goals rfl

variable (ha : answers w.dev fn = true) (hw : hasWindow fn win = true)
include ha hw

section Checked

variable {c : Nat × Work} (hc : windowCheck w fn win = some c)
include hc

theorem windowEnqueue_checked {elem len : Nat} : windowEnqueue fn win elem len w = c.2.refuseWindow c.1 fn := by
  unfold windowEnqueue
  rw [if_neg (answered_and_had ha hw), hc]

theorem windowRelease_checked {n : Nat} : windowRelease fn win n w = c.2.refuseWindow c.1 fn := by
  unfold windowRelease
  rw [if_neg (answered_and_had ha hw), hc]

theorem windowClaim_checked (hb : (w.dev.window fn win).handle ≠ 0) : windowClaim fn win w = c.2.refuseWindow c.1 fn := by
  unfold windowClaim
  rw [if_neg (answered_and_had ha hw)]
  simp only [if_neg hb, hc]

end Checked

theorem windowClaim_unbound (hb : (w.dev.window fn win).handle = 0) : windowClaim fn win w = w.reply (.value (2 ^ 64 - 1)) := by
  unfold windowClaim
  rw [if_neg (answered_and_had ha hw)]
  exact if_pos hb

variable (hc : windowCheck w fn win = none)
include hc

theorem windowEnqueue_sound {elem len : Nat} : windowEnqueue fn win elem len w =
    if (w.block (w.dev.window fn win).cb).role = 1 ∨
        mayProduce (w.block (w.dev.window fn win).cb).role (.host ((functionPart w.dev fn).getD 16)) = false then
      w.refuseWindow 21 fn
    else if len ≠ 2 ^ (w.block (w.dev.window fn win).cb).elog then
      (w.countRefusal 19 ((functionPart w.dev fn).getD 16) fn).reply .done
    else enqueueAnswered fn (w.windowOp fn win (.enqueue (elem % 2 ^ (8 * len)) false)) := by
  unfold windowEnqueue
  rw [if_neg (answered_and_had ha hw), hc]
  rfl

theorem windowRelease_sound {n : Nat} : windowRelease fn win n w =
    if (w.block (w.dev.window fn win).cb).role ≠ 2 then w.refuseWindow 21 fn
    else if n % 2 ^ 21 = 0 then w.reply .done
    else releaseAnswered fn (w.windowOp fn win (.release (n % 2 ^ 21))) := by
  unfold windowRelease
  rw [if_neg (answered_and_had ha hw), hc]
  rfl

theorem windowClaim_sound : windowClaim fn win w =
    if (w.block (w.dev.window fn win).cb).role ≠ 1 then w.reply (.value (2 ^ 64 - 1))
    else claimAnswered fn (w.windowOp fn win .claim) := by
  have hb : (w.dev.window fn win).handle ≠ 0 := fun h => by simp [windowCheck_unbound h] at hc
  unfold windowClaim
  rw [if_neg (answered_and_had ha hw)]
  simp only [if_neg hb, hc]
  rfl

end Windows

-- A peer's enqueue

section Peer

variable {w : Work} {p cb elem : Nat}

/-- The answer of the home to a peer. -/
def peerAnswered (r : HomeAns × Work) : Work :=
  match r.1 with
  | .done _ _ _ => r.2.reply .done
  | .full => r.2.reply .linkError
  | .empty => r.2.reply .linkError
  | .waiting => r.2.reply .linkError
  | .held => r.2.reply .linkError
  | .refused _ => r.2.reply .linkError

theorem peerAnswered_done {r : HomeAns × Work} {a c e : Nat} (h : r.1 = .done a c e) : peerAnswered r = r.2.reply .done := by
  rw [peerAnswered, h]

theorem peerAnswered_refused {r : HomeAns × Work} {c : Nat} (h : r.1 = .refused c) : peerAnswered r = r.2.reply .linkError := by
  rw [peerAnswered, h]

theorem peerClaim_down (h : (w.dev.ports.get p {}).up = false) : peerClaim p cb elem w = w.reply .linkError := if_pos (.inl h)

theorem peerClaim_up (hup : (w.dev.ports.get p {}).up = true) (hm : w.dev.mode = .running) (hal : cb % 64 = 0)
    (hr : rangeFault w.dev (portDie p) cb 64 false = 0) (hreach : reachable w.dev (portDie p) (queueSlice w cb) = true) :
    peerClaim p cb elem w =
      if homeCheck w cb (queueSlice w cb) .peer = none ∧ mayProduce (w.block cb).role .peer = false then w.reply .linkError
      else peerAnswered (w.atHome cb (queueSlice w cb) 0 (w.dev.agentTime (portAgent p)) .peer (.enqueue elem false)) := by
  refine (if_neg ?_).trans (if_neg (ne_false_of_eq_true hreach))
  rintro (h | h | h | h)
  · exact ne_true_of_eq_false h hup
  · exact h hm
  · exact h hal
  · exact h hr

end Peer

/-- Settles O56: each operation of a window by its guards, the home's check and its answer. -/
theorem queueWindows : Obligations.QueueWindows := by
  unfold Obligations.QueueWindows
  refine ⟨?bind, ?unanswered, ?unbound, ?checked, ?aperture, ?registers, fun σ p cb elem h =>
    next_of_eq (peerClaim_down (w := Work.begin σ) h), ?peer⟩
  case bind =>
    intro σ fn win h ha hw part frozen put
    have hbind := bindWindow_answered (w := Work.begin σ) (h := h) ha hw
    refine ⟨fun hf => ?_, fun hf => ?_⟩
    · obtain ⟨hb, hne⟩ := Bool.and_eq_true_iff.1 hf
      exact next_of_eq (hbind.trans (if_pos ⟨hb, of_decide_eq_true hne⟩))
    · have hgo := hbind.trans (if_neg fun hx => ne_true_of_eq_false hf (Bool.and_eq_true_iff.2 ⟨hx.1, decide_eq_true hx.2⟩))
      refine ⟨fun hh => next_of_eq (hgo.trans (windowBound_misnamed hh)), fun e hlt hal ht => ?_, fun x hlt hal ht => ?_⟩
      · exact next_of_eq (hgo.trans (windowBound_error (windowBound_named hlt hal) ht))
      · exact (next_of_eq (hgo.trans (windowBound_ok (windowBound_named hlt hal) ht))).trans
          (congrArg Host.Outcome.next (apply_ite Work.commit _ _ _))
  case unanswered =>
    intro σ fn win elem len n h hno i hi
    simp only [List.mem_cons, List.not_mem_nil, or_false] at hi
    rcases hi with rfl | rfl | rfl | rfl
    · exact next_of_eq (windowEnqueue_unanswered (w := Work.begin σ) hno)
    · exact next_of_eq (windowClaim_unanswered (w := Work.begin σ) hno)
    · exact next_of_eq (windowRelease_unanswered (w := Work.begin σ) hno)
    · exact next_of_eq (bindWindow_unanswered (w := Work.begin σ) hno)
  case unbound =>
    intro σ fn win elem len n ha hw hb
    have hc := windowCheck_unbound (w := Work.begin σ) hb
    refine ⟨fun i hi => ?_, next_of_eq (windowClaim_unbound (w := Work.begin σ) ha hw hb)⟩
    simp only [List.mem_cons, List.not_mem_nil, or_false] at hi
    rcases hi with rfl | rfl
    · exact next_of_eq (windowEnqueue_checked (w := Work.begin σ) ha hw hc)
    · exact next_of_eq (windowRelease_checked (w := Work.begin σ) ha hw hc)
  case checked =>
    intro σ fn win elem len n c ha hw hc hb i hi
    simp only [List.mem_cons, List.not_mem_nil, or_false] at hi
    rcases hi with rfl | rfl | rfl
    · exact next_of_eq (windowEnqueue_checked (w := Work.begin σ) ha hw hc)
    · exact next_of_eq (windowClaim_checked (w := Work.begin σ) ha hw hc hb)
    · exact next_of_eq (windowRelease_checked (w := Work.begin σ) ha hw hc)
  case aperture =>
    intro σ fn win elem len ha hw hc w b part may r
    have henq := windowEnqueue_sound (w := Work.begin σ) (elem := elem) (len := len) ha hw hc
    refine ⟨fun hno => next_of_eq (henq.trans (if_pos hno)), fun hr hm hlen => ?_, fun hr hm hlen => ?_⟩
    all_goals
      have hmay : ¬ (b.role = 1 ∨ may = false) := fun h => h.elim hr fun h => ne_true_of_eq_false h hm
      have henq := henq.trans (if_neg hmay)
    · exact next_of_eq (henq.trans (if_pos hlen))
    · have henq : windowEnqueue fn win elem len (Work.begin σ) = enqueueAnswered fn r := henq.trans (if_neg (not_not_intro hlen))
      exact ⟨fun a c e hans => next_of_eq (henq.trans (enqueueAnswered_done hans)),
        fun hans => next_of_eq (henq.trans (enqueueAnswered_full hans)),
        fun c hans => next_of_eq (henq.trans (enqueueAnswered_refused hans))⟩
  case registers =>
    intro σ fn win ha hw hc w b r no
    have hclaim := windowClaim_sound (w := Work.begin σ) ha hw hc
    have hrel (n : Nat) := windowRelease_sound (w := Work.begin σ) (n := n) ha hw hc
    refine ⟨fun hr => next_of_eq (hclaim.trans (if_pos hr)), fun t a c hr hans => ?_, fun hr hans => ?_,
      fun n hr => next_of_eq ((hrel n).trans (if_pos hr)), fun n hr hn => ?_, fun n hr hn => ?_⟩
    · exact next_of_eq (hclaim.trans ((if_neg (not_not_intro hr)).trans (claimAnswered_done hans)))
    · exact next_of_eq (hclaim.trans ((if_neg (not_not_intro hr)).trans (claimAnswered_full hans)))
    · exact next_of_eq ((hrel n).trans ((if_neg (not_not_intro hr)).trans (if_pos hn)))
    · intro q hq
      exact next_of_eq ((hrel n).trans ((if_neg (not_not_intro hr)).trans ((if_neg hn).trans (releaseAnswered_unrefused hq))))
  case peer =>
    intro σ p cb elem w hm r hup hmode hal hr hreach
    have hclaim := peerClaim_up (w := Work.begin σ) (elem := elem) hup hmode hal hr hreach
    refine ⟨fun hc hm => next_of_eq (hclaim.trans (if_pos ⟨hc, hm⟩)), fun hc hmay a c e hans => ?_, fun c hc hans => ?_⟩
    · exact next_of_eq (hclaim.trans ((if_neg fun h => ne_false_of_eq_true hmay h.2).trans (peerAnswered_done hans)))
    · exact next_of_eq (hclaim.trans ((if_neg fun h => Option.some_ne_none c (hc.symm.trans h.1)).trans (peerAnswered_refused hans)))

end Sys2Proof.Proofs.QueueWindowRules

end

section
/-! The guest socket's link and its fence (R40 to R43, R51, R56). -/

namespace Sys2Proof.Proofs.SocketLink

open Sys2Proof Sys2Proof.Machine Sys2Proof.Safety Sys2Proof.Laws Sys2Proof.Proofs.ResetAndRecovery
open Sys2Proof.Proofs.SchedulerEvents Sys2Proof.Proofs.CoreEventRules Sys2Proof.Proofs.PartitionTable

-- What the fence leaves of the socket

/-- The socket but for what a write to memory may take of it: translations and snoops. -/
def linkOf (d : Dev) : Sock := { d.sock with tlb := [], stale := [], snoops := [] }

/-- The socket is as it was, but for snoops and for translations taken from it. -/
structure SockKept (d e : Dev) : Prop where
  link : linkOf e = linkOf d
  tlb : d.sock.tlb = [] → e.sock.tlb = []

theorem SockKept.of_sock {d e : Dev} (h : e.sock = d.sock) : SockKept d e where
  link := by rw [linkOf, h]; rfl
  tlb ht := by rw [h]; exact ht

theorem aside_sock : Aside SockKept where
  refl _ := .of_sock rfl
  trans h h' := ⟨h'.link.trans h.link, fun ht => h'.tlb (h.tlb ht)⟩
  mem _ _ _ := .of_sock rfl
  ctxs _ _ := .of_sock rfl
  cores _ _ := .of_sock rfl
  homes _ _ := .of_sock rfl
  note w l := ⟨rfl, fun ht => by
    change w.dev.sock.tlb.filter _ = []
    rw [ht]
    rfl⟩

/-- A field of the socket that neither translations nor snoops have a place in stays. -/
theorem SockKept.field {α : Type} {d e : Dev} (h : SockKept d e) (f : Sock → α)
    (hf : ∀ s, f { s with tlb := [], stale := [], snoops := [] } = f s) : f e.sock = f d.sock := by
  rw [← hf e.sock, ← hf d.sock]
  exact congrArg f h.link

section Frames

variable (w : Work)

theorem poisonLine_sock (l : Nat) : SockKept w.dev (w.poisonLine l).dev := by
  unfold Work.poisonLine
  extract_lets r
  have hr : SockKept w.dev r.2.dev := cohWrite_aside aside_sock ..
  exact aside_sock.trans hr (.of_sock rfl)

theorem awaits_sock (e : XErr) : SockKept w.dev (w.awaits e).dev := by
  cases e with
  | busy l => exact waitFor_aside aside_sock ..
  | absent _ => exact .of_sock rfl
  | malformed => exact .of_sock rfl
  | refused _ => exact .of_sock rfl

theorem endCommandWord_sock (part va cause detail : Nat) : SockKept w.dev (w.endCommandWord part va cause detail).dev := by
  unfold Work.endCommandWord
  split
  · exact .of_sock rfl
  · split
    · exact .of_sock rfl
    · split
      · exact aside_sock.trans (awaits_sock w _) (.of_sock rfl)
      · split
        · exact .of_sock rfl
        · extract_lets v r
          have hr : SockKept w.dev r.2.dev := cohWrite_aside aside_sock ..
          exact aside_sock.trans hr (.of_sock rfl)

theorem putBlock_sock (cb : Nat) (b : Block) : SockKept w.dev (w.putBlock cb b).dev := setBlock_aside aside_sock ..

theorem endElements_sock (part cause : Nat) : SockKept w.dev (w.endElements part cause).dev := by
  refine aside_sock.foldl _ (fun a k => ?_) w
  dsimp only
  split
  · exact aside_sock.refl _
  · exact aside_sock.trans (aside_sock.foldl _ (fun b e => endCommandWord_sock b ..) a) (putBlock_sock ..)

theorem qnotice_sock (part handle seq cause reason st : Nat) (stream : Option Nat) :
    SockKept w.dev (w.qnotice part handle seq cause reason st stream).dev := .of_sock rfl

theorem fenceQueue_sock (cb cause : Nat) : SockKept w.dev (w.fenceQueue cb cause).dev := by
  rw [Work.fenceQueue]
  exact aside_sock.trans (quarantineQueue_aside aside_sock w cb) (qnotice_sock ..)

/-- The guest's lines go, and no more of the socket. -/
theorem dropDirectory_sock : SockKept (w.updSock fun s => { s with dir := [], snoops := [] }).dev w.dropDirectory.dev :=
  aside_sock.foldl _ (fun a (x : GuestLine) => poisonLine_sock a x.line) _

end Frames

-- The fence (R56)

/-- The fence as it begins: the guest is out, and what is left to do is recorded. -/
def fenceBegun (w : Work) (duty : Option Nat) (cause after : Nat) : Work :=
  let s := w.dev.sock
  let part := if s.st = 4 then s.part else 16
  let w1 := match duty with
    | none => w
    | some k => w.updSock fun x => { x with duty := k, dv := true }
  (w1.logError cause part guestAgent (duty.getD 0)).updSock fun x => { x with
    st := 5, fence := some { cause := cause, part := part, was := s.st, after := after }
    ctl := (x.ctl.map fun c => { c with lines := [], due := none }) ++
      [{ kind := 0x21, seq := 0, frames := x.stale.map fun e => (e.frame, e.size) }]
    tlb := [], stale := [], snoops := [], claims := []
    spdmBy := none, suspended := false, leaving := false }

/-- Steps 2 to 6 of a fence, before what follows it. -/
def fenceSteps (w : Work) (part cause : Nat) : Work :=
  let w1 := w.dropDirectory
  let w2 := w1.dev.sock.taken.foldl (fun a e => a.endCommandWord part (packedBytes e 8 8) cause 0) w1
  let w3 := w2.endElements part cause
  (w3.dev.sock.cbs.foldl (fun a cb => a.fenceQueue cb cause) w3).updSock fun x => { x with fence := none, ctl := [], taken := [] }

section Fence

variable (w : Work)

theorem fenceGuest_idle {duty : Option Nat} {cause after : Nat} (h3 : w.dev.sock.st ≠ 3) (h4 : w.dev.sock.st ≠ 4) :
    w.fenceGuest duty cause after = w := if_pos ⟨h3, h4⟩

theorem atOnce_cases (act : Work → Work) : w.atOnce act = act w ∨ w.atOnce act = w := by
  unfold Work.atOnce
  extract_lets r
  split
  · exact .inl rfl
  · exact .inr rfl

/-- A fence that begins is over at once or stands begun. -/
theorem fenceGuest_cases (duty : Option Nat) (cause after : Nat) (h : w.dev.sock.st = 3 ∨ w.dev.sock.st = 4) :
    w.fenceGuest duty cause after = endFence (fenceBegun w duty cause after) ∨
      w.fenceGuest duty cause after = fenceBegun w duty cause after := by
  have hgo : w.fenceGuest duty cause after = (fenceBegun w duty cause after).atOnce endFence :=
    if_neg fun hno => h.elim hno.1 hno.2
  rw [hgo]
  exact atOnce_cases ..

theorem fenceSteps_kept (part cause : Nat) : ∃ v : Work, SockKept (w.updSock fun s => { s with dir := [], snoops := [] }).dev v.dev ∧
    fenceSteps w part cause = v.updSock fun x => { x with fence := none, ctl := [], taken := [] } :=
  ⟨_, aside_sock.trans (aside_sock.trans (aside_sock.trans (dropDirectory_sock w)
    (aside_sock.foldl _ (fun a _ => endCommandWord_sock a ..) _)) (endElements_sock ..))
    (aside_sock.foldl _ (fun a _ => fenceQueue_sock a ..) _), rfl⟩

/-- What the steps leave of the socket. -/
theorem fenceSteps_field {α : Type} (part cause : Nat) (f : Sock → α)
    (hf : ∀ s, f { s with tlb := [], stale := [], snoops := [] } = f s) (hdir : ∀ s, f { s with dir := [], snoops := [] } = f s)
    (hend : ∀ s, f { s with fence := none, ctl := [], taken := [] } = f s) : f (fenceSteps w part cause).dev.sock = f w.dev.sock := by
  obtain ⟨v, hv, heq⟩ := fenceSteps_kept w part cause
  rw [heq]
  exact (hend v.dev.sock).trans ((hv.field f hf).trans (hdir w.dev.sock))

theorem fenceSteps_done (part cause : Nat) : (fenceSteps w part cause).dev.sock.fence = none ∧
    (fenceSteps w part cause).dev.sock.ctl = [] ∧ (fenceSteps w part cause).dev.sock.taken = [] := ⟨rfl, rfl, rfl⟩

theorem fenceSteps_dir (part cause : Nat) : (fenceSteps w part cause).dev.sock.dir = [] := by
  obtain ⟨v, hv, heq⟩ := fenceSteps_kept w part cause
  rw [heq]
  exact hv.field Sock.dir fun _ => rfl

theorem fenceSteps_tlb (part cause : Nat) (h : w.dev.sock.tlb = []) : (fenceSteps w part cause).dev.sock.tlb = [] := by
  obtain ⟨v, hv, heq⟩ := fenceSteps_kept w part cause
  rw [heq]
  exact hv.tlb h

theorem endFence_stays (duty : Option Nat) (cause : Nat) : ∃ part, endFence (fenceBegun w duty cause 0) =
    fenceSteps (fenceBegun w duty cause 0) part cause := ⟨_, rfl⟩

theorem endFence_absent (duty : Option Nat) (cause : Nat) : ∃ part, endFence (fenceBegun w duty cause 1) =
    (fenceSteps (fenceBegun w duty cause 1) part cause).goAbsent := ⟨_, rfl⟩

theorem endFence_reset (duty : Option Nat) (cause : Nat) : ∃ part, endFence (fenceBegun w duty cause 2) =
    (fenceSteps (fenceBegun w duty cause 2) part cause).finishReset := ⟨_, rfl⟩

section Begun

variable {w : Work} {duty : Option Nat} {cause after : Nat} (h : w.dev.sock.st = 3 ∨ w.dev.sock.st = 4)
include h

/-- A fence that nothing follows leaves what its beginning left, but for lines, commands and control packets. -/
theorem fenceGuest_field {α : Type} (f : Sock → α)
    (hf : ∀ s, f { s with tlb := [], stale := [], snoops := [] } = f s) (hdir : ∀ s, f { s with dir := [], snoops := [] } = f s)
    (hend : ∀ s, f { s with fence := none, ctl := [], taken := [] } = f s) :
    f (w.fenceGuest duty cause 0).dev.sock = f (fenceBegun w duty cause 0).dev.sock := by
  rcases fenceGuest_cases w duty cause 0 h with heq | heq
  · obtain ⟨part, hsteps⟩ := endFence_stays w duty cause
    rw [heq, hsteps]
    exact fenceSteps_field _ part cause f hf hdir hend
  · rw [heq]

theorem fenceGuest_tlb : (w.fenceGuest duty cause 0).dev.sock.tlb = [] := by
  rcases fenceGuest_cases w duty cause 0 h with heq | heq
  · obtain ⟨part, hsteps⟩ := endFence_stays w duty cause
    rw [heq, hsteps]
    exact fenceSteps_tlb _ part cause rfl
  · rw [heq]
    rfl

/-- The rest of a fence is over at once, or waits. -/
theorem fenceGuest_rest : let s := w.dev.sock
    let v := (w.fenceGuest duty cause 0).dev.sock
    v.fence = none ∧ v.ctl = [] ∧ v.taken = [] ∨
      v.fence = some { cause := cause, part := if s.st = 4 then s.part else 16, was := s.st, after := 0 } := by
  intro s v
  rcases fenceGuest_cases w duty cause 0 h with heq | heq
  · obtain ⟨part, hsteps⟩ := endFence_stays w duty cause
    have hv : v = (fenceSteps (fenceBegun w duty cause 0) part cause).dev.sock := by rw [← hsteps, ← heq]
    rw [hv]
    exact .inl (fenceSteps_done _ part cause)
  · have hv : v = (fenceBegun w duty cause 0).dev.sock := by rw [← heq]
    rw [hv]
    exact .inr rfl

end Begun

end Fence

-- A missed duty

section Duty

variable {w : Work} {k : Nat} (h : w.dev.sock.st = 3 ∨ w.dev.sock.st = 4)
include h

theorem missDuty_st : (w.missDuty k).dev.sock.st = 5 :=
  fenceGuest_field h Sock.st (fun _ => rfl) (fun _ => rfl) fun _ => rfl

theorem missDuty_duty : (w.missDuty k).dev.sock.duty = k :=
  fenceGuest_field h Sock.duty (fun _ => rfl) (fun _ => rfl) fun _ => rfl

theorem missDuty_dv : (w.missDuty k).dev.sock.dv = true :=
  fenceGuest_field h Sock.dv (fun _ => rfl) (fun _ => rfl) fun _ => rfl

theorem missDuty_claims : (w.missDuty k).dev.sock.claims = [] :=
  fenceGuest_field h Sock.claims (fun _ => rfl) (fun _ => rfl) fun _ => rfl

end Duty

-- Enabling, link resets and training (R40 to R42, R51)

section Link

variable {w : Work}

/-- A change of the socket alone. -/
theorem updSock_commit (σ : Machine.State) (f : Sock → Sock) :
    ((Work.begin σ).updSock f).commit = withDev σ { σ.dev with sock := f σ.dev.sock } := rfl

theorem tryTrain_eq (w : Work) : w.tryTrain =
    w.updSock fun s => { s with st := if s.st = 0 ∧ s.en = true ∧ s.partner = true then 1 else s.st } := by
  unfold Work.tryTrain
  refine congrArg w.updSock (funext fun s => ?_)
  split <;> rfl

theorem enableSocket_on (hm : w.dev.mode = .running) : enableSocket true w = (w.updSock fun s => { s with en := true }).tryTrain :=
  if_neg (ne_false_of_eq_true (registersAnswer_running hm))

theorem enableSocket_off (hm : w.dev.mode = .running) : enableSocket false w =
    if w.dev.sock.st = 1 ∨ w.dev.sock.st = 2 then (w.updSock fun s => { s with en := false }).goAbsent
    else (w.updSock fun s => { s with en := false }).missDuty 0 :=
  if_neg (ne_false_of_eq_true (registersAnswer_running hm))

theorem resetLink_running (hm : w.dev.mode = .running) : resetLink w =
    if w.dev.sock.st = 3 ∨ w.dev.sock.st = 4 then w.fenceGuest (some 0) 58 2
    else match w.dev.sock.fence with
      | some f => w.updSock fun s => { s with fence := some { f with after := 2 } }
      | none => w.finishReset :=
  if_neg (ne_false_of_eq_true (registersAnswer_running hm))

theorem resetLink_fencing {f : Fence} (hm : w.dev.mode = .running) (h3 : w.dev.sock.st ≠ 3) (h4 : w.dev.sock.st ≠ 4)
    (hf : w.dev.sock.fence = some f) : resetLink w = w.updSock fun s => { s with fence := some { f with after := 2 } } := by
  rw [resetLink_running hm, if_neg fun h => h.elim h3 h4, hf]

theorem resetLink_free (hm : w.dev.mode = .running) (h3 : w.dev.sock.st ≠ 3) (h4 : w.dev.sock.st ≠ 4)
    (hf : w.dev.sock.fence = none) : resetLink w = w.finishReset := by
  rw [resetLink_running hm, if_neg fun h => h.elim h3 h4, hf]

/-- The socket as a link reset leaves it in a state, but for its directory. -/
def sockReset (s : Sock) (st : Nat) : Sock := { s with
  st := st, mods := 0, off := 0, rate := 0, tlb := [], stale := [], ctl := [], helloBy := none, spdmBy := none }

/-- The state before the socket tries to train again. -/
def stateReset (s : Sock) : Nat := if s.st = 0 then 0 else if s.en then 1 else 0

theorem finishReset_eq (w : Work) : w.finishReset = w.dropDirectory.updSock fun x => sockReset x
    (if stateReset w.dev.sock = 0 ∧ x.en = true ∧ x.partner = true then 1 else stateReset w.dev.sock) := by
  unfold Work.finishReset
  rw [tryTrain_eq]
  rfl

theorem dropDirectory_empty (h : w.dev.sock.dir = []) : w.dropDirectory = w.updSock fun s => { s with dir := [], snoops := [] } := by
  rw [Work.dropDirectory, h]
  rfl

theorem stateReset_trained (s : Sock) : (if stateReset s = 0 ∧ s.en = true ∧ s.partner = true then 1 else stateReset s) =
    if s.en = true ∧ (s.st ≠ 0 ∨ s.partner = true) then 1 else 0 := by
  unfold stateReset
  by_cases h0 : s.st = 0 <;> cases s.en <;> cases s.partner <;> simp [h0]

end Link

-- What follows a fence

section After

variable {w : Work} {duty : Option Nat} {cause : Nat} (h : w.dev.sock.st = 3 ∨ w.dev.sock.st = 4)
include h

/-- A fence that a link reset follows. -/
theorem fenceGuest_reset (hen : w.dev.sock.en = true) : let s := w.dev.sock
    let v := (w.fenceGuest duty cause 2).dev.sock
    v.tlb = [] ∧ (v.fence = none ∧ v.st = 1 ∧ v.mods = 0 ∧ v.off = 0 ∧ v.ctl = [] ∨ v.st = 5 ∧
      v.fence = some { cause := cause, part := if s.st = 4 then s.part else 16, was := s.st, after := 2 }) := by
  intro s v
  rcases fenceGuest_cases w duty cause 2 h with heq | heq
  · obtain ⟨part, hreset⟩ := endFence_reset w duty cause
    have hst : (fenceSteps (fenceBegun w duty cause 2) part cause).dev.sock.st = 5 :=
      fenceSteps_field _ part cause Sock.st (fun _ => rfl) (fun _ => rfl) fun _ => rfl
    have hen5 : (fenceSteps (fenceBegun w duty cause 2) part cause).dev.sock.en = true :=
      (fenceSteps_field _ part cause Sock.en (fun _ => rfl) (fun _ => rfl) fun _ => rfl).trans
        ((by cases duty <;> rfl : (fenceBegun w duty cause 2).dev.sock.en = w.dev.sock.en).trans hen)
    have hfence := (fenceSteps_done (fenceBegun w duty cause 2) part cause).1
    rw [← heq] at hreset
    generalize fenceSteps (fenceBegun w duty cause 2) part cause = x at hst hen5 hfence hreset
    have hx : stateReset x.dev.sock = 1 := by simp [stateReset, hst, hen5]
    have hv : v = sockReset x.dropDirectory.dev.sock 1 := by
      change (w.fenceGuest duty cause 2).dev.sock = _
      rw [hreset, finishReset_eq, hx]
      rfl
    have hnone : x.dropDirectory.dev.sock.fence = none := ((dropDirectory_sock x).field Sock.fence fun _ => rfl).trans hfence
    rw [hv]
    exact ⟨rfl, .inl ⟨hnone, rfl, rfl, rfl, rfl⟩⟩
  · have hv : v = (fenceBegun w duty cause 2).dev.sock := by rw [← heq]
    rw [hv]
    exact ⟨rfl, .inr ⟨rfl, rfl⟩⟩

/-- A fence that leaves the socket Absent. -/
theorem fenceGuest_absent (hmods : w.dev.sock.mods = 0) : let s := w.dev.sock
    let v := (w.fenceGuest none cause 1).dev.sock
    v.mods = 0 ∧ (v.fence = none ∧ v.st = 0 ∧ v.rate = 0 ∨ v.st = 5 ∧
      v.fence = some { cause := cause, part := if s.st = 4 then s.part else 16, was := s.st, after := 1 }) := by
  intro s v
  rcases fenceGuest_cases w none cause 1 h with heq | heq
  · obtain ⟨part, habsent⟩ := endFence_absent w none cause
    have hv : v = ((fenceSteps (fenceBegun w none cause 1) part cause).goAbsent).dev.sock := by rw [← habsent, ← heq]
    rw [hv]
    exact ⟨rfl, .inl ⟨rfl, rfl, rfl⟩⟩
  · have hv : v = (fenceBegun w none cause 1).dev.sock := by rw [← heq]
    rw [hv]
    exact ⟨hmods, .inr ⟨rfl, rfl⟩⟩

end After

-- The other events of the link

section Events

variable {w : Work} {mods rate : Nat}

theorem endTraining_idle (h : w.dev.sock.st ≠ 1 ∨ mods % 16 &&& (15 ^^^ w.dev.sock.off) = 0 ∨ rate = 0 ∨ 5 < rate) :
    endTraining mods rate w = w := if_pos h

theorem endTraining_ends (h1 : w.dev.sock.st = 1) (hm : mods % 16 &&& (15 ^^^ w.dev.sock.off) ≠ 0) (hr : rate ≠ 0) (h5 : rate ≤ 5) :
    endTraining mods rate w =
      (w.updSock fun x => { x with mods := mods % 16 &&& (15 ^^^ w.dev.sock.off), rate := rate }).enterMeasuring := by
  refine if_neg ?_
  rintro (h | h | h | h)
  · exact h h1
  · exact hm h
  · exact hr h
  · omega

theorem enterMeasuring_sock (w : Work) : w.enterMeasuring.dev.sock.st = 2 ∧
    w.enterMeasuring.dev.sock.helloBy = some (w.dev.now + 60000000) ∧ w.enterMeasuring.dev.sock.measured = false ∧
    w.enterMeasuring.dev.sock.ctl = [] := by
  unfold Work.enterMeasuring
  extract_lets w1 used fresh
  generalize (List.range w1.dev.sock.cbs.length).foldl fresh w1 = v
  exact ⟨rfl, rfl, rfl, rfl⟩

/-- The socket with modules disabled. -/
def modsOff (mods : Nat) (w : Work) : Work :=
  w.updSock fun x => { x with mods := x.mods &&& (15 ^^^ mods % 16), off := x.off ||| (x.mods &&& mods % 16) }

theorem dropModules_eq (w : Work) : dropModules mods w =
    if w.dev.sock.mods = 0 ∨ w.dev.sock.mods &&& (15 ^^^ mods % 16) ≠ 0 ∨ 4 < w.dev.sock.st then modsOff mods w
    else if w.dev.sock.st = 3 ∨ w.dev.sock.st = 4 then (modsOff mods w).fenceGuest none 47 1
    else (modsOff mods w).goAbsent := rfl

end Events

section SocketEvents

variable {w : Work}

theorem enableSocket_trains (hm : w.dev.mode = .running) : enableSocket true w =
    w.updSock fun s => { s with en := true, st := if s.st = 0 ∧ s.partner = true then 1 else s.st } := by
  have hst (s : Sock) : (if s.st = 0 ∧ s.partner = true then 1 else s.st) =
      if s.st = 0 ∧ true = true ∧ s.partner = true then 1 else s.st := by simp
  rw [enableSocket_on hm, tryTrain_eq]
  exact congrArg w.updSock (funext fun s => congrArg (fun n => { s with en := true, st := n }) (hst s).symm)

theorem detectPartner_eq (p : Bool) (w : Work) : detectPartner p w =
    w.updSock fun s => { s with partner := p, st := if s.st = 0 ∧ s.en = true ∧ p = true then 1 else s.st } := by
  rw [detectPartner, tryTrain_eq]
  rfl

theorem clearDv_running {wr : Nat} (hm : w.dev.mode = .running) : clearDv wr w =
    w.updSock fun s => { s with dv := s.dv && !bit wr 17 } := by
  refine (if_neg (ne_false_of_eq_true (registersAnswer_running hm))).trans (congrArg w.updSock (funext fun s => ?_))
  cases bit wr 17
  · rw [Bool.not_false, Bool.and_true]
    rfl
  · rw [Bool.not_true, Bool.and_false]
    rfl

theorem failTraining_eq (mods : Nat) (w : Work) : failTraining mods w = w.updSock fun s =>
    if w.dev.sock.st = 1 ∧ w.dev.sock.off ||| mods % 16 = 15 then
      { s with off := s.off ||| mods % 16, st := 0, mods := 0, rate := 0, helloBy := none, spdmBy := none }
    else { s with off := s.off ||| mods % 16 } := by
  unfold failTraining
  extract_lets w1
  by_cases h : w.dev.sock.st = 1 ∧ w.dev.sock.off ||| mods % 16 = 15
  · simp only [if_pos h]
    exact if_pos h
  · simp only [if_neg h]
    exact if_neg h

theorem endSpdm_eq (ok : Bool) (meas : List Nat) (w : Work) : endSpdm ok meas w = w.updSock fun s =>
    if w.dev.sock.st = 2 then (if ok = true then { s with measured := true, measLog := s.measLog ++ meas } else { s with st := 6 })
    else if w.dev.sock.st = 3 ∨ w.dev.sock.st = 4 then { s with spdmBy := none, measLog := s.measLog ++ meas } else s := by
  unfold endSpdm
  split
  · rename_i h
    cases ok <;> simp [h]
  · rename_i h
    simp [h]
  · rename_i h
    simp [h]
  · rename_i h2 h3 h4
    simp only [if_neg h2, if_neg fun h : w.dev.sock.st = 3 ∨ w.dev.sock.st = 4 => h.elim h3 h4]
    rfl

theorem finishReset_commit (σ : Machine.State) (h : σ.dev.sock.dir = []) : (Work.begin σ).finishReset.commit =
    withDev σ { σ.dev with sock := { σ.dev.sock with
      st := if σ.dev.sock.en = true ∧ (σ.dev.sock.st ≠ 0 ∨ σ.dev.sock.partner = true) then 1 else 0
      snoops := [], mods := 0, off := 0, rate := 0, tlb := [], stale := [], ctl := [], helloBy := none, spdmBy := none } } := by
  rw [finishReset_eq, dropDirectory_empty (w := Work.begin σ) h, ← stateReset_trained, ← h]
  rfl

section Hello

variable {t : Nat}

theorem limitHello_of_some (ht : w.dev.sock.helloBy = some t) : limitHello w =
    if w.dev.sock.st = 2 ∧ t ≤ w.dev.now then w.updSock fun s => { s with st := 6, helloBy := none } else w := by
  rw [limitHello, ht]

theorem limitHello_passed (ht : w.dev.sock.helloBy = some t) (hst : w.dev.sock.st = 2) (hnow : t ≤ w.dev.now) :
    limitHello w = w.updSock fun s => { s with st := 6, helloBy := none } := (limitHello_of_some ht).trans (if_pos ⟨hst, hnow⟩)

theorem limitHello_early (ht : w.dev.sock.helloBy = some t) (hnow : w.dev.now < t) : limitHello w = w :=
  (limitHello_of_some ht).trans (if_neg fun h => Nat.not_le.2 hnow h.2)

theorem limitHello_idle (h : w.dev.sock.helloBy = none ∨ w.dev.sock.st ≠ 2) : limitHello w = w := by
  cases ht : w.dev.sock.helloBy with
  | none => rw [limitHello, ht]
  | some t => exact (limitHello_of_some ht).trans (if_neg fun hs => h.elim (fun hn => nomatch hn ▸ ht) fun h => h hs.1)

end Hello

end SocketEvents

-- The obligation

/-- Settles O57: each event of the link by its guards; a fence by what its steps keep of the socket. -/
theorem guestLink : Obligations.GuestLink := by
  unfold Obligations.GuestLink
  refine ⟨?stopped, ?enable, ?reset, ?dv, ?detect, ?trained, ?failed, ?lost, ?spdm, ?hello, fun w k h =>
    ⟨missDuty_st h, missDuty_duty h, missDuty_dv h⟩, fun w duty cause after h3 h4 => fenceGuest_idle w h3 h4⟩
  case stopped =>
    intro σ wr hm i hi
    have hno := registersAnswer_stopped hm
    simp only [List.mem_cons, List.not_mem_nil, or_false] at hi
    rcases hi with rfl | rfl | rfl | rfl <;> exact next_of_eq (w := (Work.begin σ).reply .unsupported) (if_pos hno)
  case enable =>
    intro σ s hm
    have hoff := enableSocket_off (w := Work.begin σ) hm
    refine ⟨next_of_eq (enableSocket_trains hm), fun hst => next_of_eq (hoff.trans (if_pos hst)), fun hst => ?_, fun hst => ?_⟩
    · have hidle := hoff.trans (if_neg (by change ¬ (s.st = 1 ∨ s.st = 2); omega))
      exact next_of_eq (hidle.trans (fenceGuest_idle _ (by change s.st ≠ 3; omega) (by change s.st ≠ 4; omega)))
    · have hduty := hoff.trans (if_neg (by change ¬ (s.st = 1 ∨ s.st = 2); omega))
      exact ⟨_, next_of_eq hduty, missDuty_st hst, missDuty_duty hst, missDuty_dv hst, fenceGuest_tlb hst, missDuty_claims hst,
        fenceGuest_rest hst⟩
  case reset =>
    intro σ s hm
    refine ⟨fun h3 h4 hf hd => ?_, fun f h3 h4 hf => next_of_eq (resetLink_fencing (w := Work.begin σ) hm h3 h4 hf), fun hst hen => ?_⟩
    · refine (next_of_eq (resetLink_free (w := Work.begin σ) hm h3 h4 hf)).trans ?_
      rw [finishReset_commit σ hd]
    · have hgo := (resetLink_running (w := Work.begin σ) hm).trans (if_pos hst)
      exact ⟨_, next_of_eq hgo, fenceGuest_reset hst hen⟩
  case dv =>
    intro σ wr s hm
    exact next_of_eq (clearDv_running hm)
  case detect =>
    intro σ p s
    exact next_of_eq (detectPartner_eq p (Work.begin σ))
  case trained =>
    intro σ mods rate s m
    refine ⟨fun h => next_of_eq (endTraining_idle (w := Work.begin σ) h), fun h1 hm hr h5 => ?_⟩
    exact ⟨_, next_of_eq (endTraining_ends (w := Work.begin σ) h1 hm hr h5), enterMeasuring_sock _⟩
  case failed =>
    intro σ mods s o
    exact next_of_eq (failTraining_eq mods (Work.begin σ))
  case lost =>
    intro σ mods s left
    have hdrop := dropModules_eq (mods := mods) (Work.begin σ)
    refine ⟨fun h => next_of_eq (hdrop.trans (if_pos h)), fun hm hl hst => ?_, fun hm hl hst => ?_⟩
    all_goals
      have hgo := hdrop.trans (if_neg (by change ¬ (s.mods = 0 ∨ left ≠ 0 ∨ 4 < s.st); omega))
    · exact ⟨_, next_of_eq (hgo.trans (if_neg (by change ¬ (s.st = 3 ∨ s.st = 4); omega))), rfl, rfl, rfl⟩
    · exact ⟨_, next_of_eq (hgo.trans (if_pos hst)), fenceGuest_absent (w := modsOff mods (Work.begin σ)) hst hl⟩
  case spdm =>
    intro σ ok meas s
    exact next_of_eq (endSpdm_eq ok meas (Work.begin σ))
  case hello =>
    intro σ s
    exact ⟨fun t ht hst hnow => next_of_eq (limitHello_passed (w := Work.begin σ) ht hst hnow),
      fun h => next_of_eq (limitHello_idle (w := Work.begin σ) h),
      fun t ht hnow => next_of_eq (limitHello_early (w := Work.begin σ) ht hnow)⟩

end Sys2Proof.Proofs.SocketLink

end

section
/-! The guest's packets, the control packets and their deadlines (R43, R45 to R49, R53 to R55, R108). -/

namespace Sys2Proof.Proofs.GuestPackets

open Sys2Proof Sys2Proof.Machine Sys2Proof.Safety Sys2Proof.Laws
open Sys2Proof.Proofs.SchedulerEvents Sys2Proof.Proofs.CoreEventRules Sys2Proof.Proofs.PartitionTable Sys2Proof.Proofs.SocketLink

-- Slots of gfq claimed and written

section Claims

variable {w : Work} {p : Nat} {whole : Bool}

/-- The guest's claim of a slot of gfq at the queue's home. -/
def gfqAtHome (w : Work) (p : Nat) (whole : Bool) : HomeAns × Work :=
  w.atHome (guestCb w 9) (queueSlice w (guestCb w 9)) (guestCb w 9) (w.dev.agentTime guestAgent) (.guest (guestPart w.dev))
    (if whole then .enqueue p false else .claim)

/-- The home's answer to the claim. -/
def gfqAnswered (w : Work) (whole : Bool) (r : HomeAns × Work) : Work :=
  match r.1 with
  | .done k _ _ =>
    let c : GfqClaim := { pos := k, at_ := w.dev.now, since := w.dev.now, open_ := !whole }
    ((r.2.reply (if whole then .done else .value k)).updSock fun x => { x with claims := x.claims ++ [c] }).atOnce readGfq
  | .full => r.2.reply .queueFull
  | .empty => r.2.reply .queueFull
  | .waiting => w
  | .held => w
  | .refused c => if c = 12 then r.2.missDuty 2 else r.2.reply .guestError

/-- A sound queue that takes no packet of the kind now. -/
def gfqShut (w : Work) (p : Nat) : Bool :=
  (decide (w.dev.sock.st = 2 ∧ pkKind p ≠ 0x42) ||
    decide ((w.dev.sock.st = 3 ∨ w.dev.sock.st = 4) ∧ pkKind p = 0x40 ∧ (w.block (guestCb w 9)).free ≤ 64)) &&
  decide (homeCheck w (guestCb w 9) (queueSlice w (guestCb w 9)) (.guest (guestPart w.dev)) = none)

theorem claimGfq_eq (w : Work) (p : Nat) (whole : Bool) : w.claimGfq p whole =
    if w.dev.sock.st ≠ 2 ∧ w.dev.sock.st ≠ 3 ∧ w.dev.sock.st ≠ 4 then w.reply .none
    else if gfqShut w p then w.reply .queueFull
    else gfqAnswered w whole (gfqAtHome w p whole) := by
  have hshut : (gfqShut w p = true) = (((decide (w.dev.sock.st = 2) && decide (pkKind p ≠ 0x42)) ||
      ((decide (w.dev.sock.st = 3) || decide (w.dev.sock.st = 4)) && decide (pkKind p = 0x40) &&
        decide ((w.block (guestCb w 9)).free ≤ 64))) = true ∧
      homeCheck w (guestCb w 9) (queueSlice w (guestCb w 9)) (.guest (guestPart w.dev)) = none) := by
    simp only [gfqShut, Bool.decide_and, Bool.decide_or, Bool.and_eq_true, decide_eq_true_eq, Bool.and_assoc]
  exact ite_congr rfl (fun _ => rfl) fun _ => ite_congr hshut.symm (fun _ => rfl) fun _ => rfl

theorem gfqAnswered_done {r : HomeAns × Work} {k e c : Nat} (h : r.1 = .done k e c) : gfqAnswered w whole r =
    ((r.2.reply (if whole = true then .done else .value k)).updSock fun x => { x with claims := x.claims ++
      [{ pos := k, at_ := w.dev.now, since := w.dev.now, open_ := !whole }] }).atOnce readGfq := by
  rw [gfqAnswered, h]

theorem gfqAnswered_full {r : HomeAns × Work} (h : r.1 = .full) : gfqAnswered w whole r = r.2.reply .queueFull := by
  rw [gfqAnswered, h]

theorem gfqAnswered_refused {r : HomeAns × Work} {k : Nat} (h : r.1 = .refused k) : gfqAnswered w whole r =
    if k = 12 then r.2.missDuty 2 else r.2.reply .guestError := by
  rw [gfqAnswered, h]

theorem guestSlot_bare (h : pkV p = false) : guestSlot p w = w.claimGfq p false := if_pos h

theorem guestSlot_fills {c : GfqClaim} (hv : pkV p = true) (h : (w.dev.sock.claims.find? fun x => x.open_) = some c) :
    guestSlot p w = w.writeGfq c p := by
  rw [guestSlot, if_neg (ne_false_of_eq_true hv), h]

theorem guestSlot_places (hv : pkV p = true) (h : ∀ x ∈ w.dev.sock.claims, x.open_ = false) :
    guestSlot p w = w.claimGfq p true := by
  have hnone : (w.dev.sock.claims.find? fun x => x.open_) = none :=
    List.find?_eq_none.2 fun x hx => ne_true_of_eq_false (h x hx)
  rw [guestSlot, if_neg (ne_false_of_eq_true hv), hnone]

end Claims

-- The oldest slot read

section Reading

variable {w : Work} {c : GfqClaim} {rest : List GfqClaim}

/-- The oldest claimed slot. -/
def gfqSlot (w : Work) (c : GfqClaim) : Nat :=
  (w.block (guestCb w 9)).ring + c.pos % (w.block (guestCb w 9)).cap * 64

/-- The front end's read of it. -/
def gfqRead (w : Work) (c : GfqClaim) : Nat × Work := Work.agentRead (feAgent 1) 2 (gfqSlot w c) 64 w

/-- The claim stays the oldest, with another time. -/
def gfqKept (w : Work) (c : GfqClaim) (rest : List GfqClaim) (x : GfqClaim) : Work :=
  (gfqRead w c).2.updSock fun y => { y with claims := x :: rest }

/-- The slot is freed at its home. -/
def gfqFreed (w : Work) (c : GfqClaim) : HomeAns × Work :=
  (gfqRead w c).2.atHome (guestCb w 9) (queueSlice w (guestCb w 9)) (guestCb w 9) ((gfqRead w c).2.dev.agentTime (feAgent 1)) .device
    (.dequeue false)

/-- The machine once the slot is free. -/
def gfqEmptied (w : Work) (c : GfqClaim) (rest : List GfqClaim) : Work :=
  (Work.agentWrite (feAgent 1) 1 (gfqSlot w c + 1) 1 0 (gfqFreed w c).2).updSock fun x => { x with claims := rest }

/-- The packet is taken where the home frees its slot. -/
def gfqTaken (w : Work) (c : GfqClaim) (rest : List GfqClaim) (act : Work → Work) : Work :=
  match (gfqFreed w c).1 with
  | .done _ _ _ => act (gfqEmptied w c rest)
  | .refused _ => (gfqFreed w c).2.updSock fun x => { x with claims := [] }
  | .full => (gfqFreed w c).2
  | .empty => (gfqFreed w c).2.updSock fun x => { x with claims := [] }
  | .waiting => (gfqFreed w c).2
  | .held => (gfqFreed w c).2

theorem readGfq_of_claim (h : w.dev.sock.claims = c :: rest) : readGfq w =
    if gfqDue w.dev.sock w.dev.now = false then w
    else if pkV (gfqRead w c).1 = false then
      (if c.stall.getD (w.dev.now + 6000000) ≤ w.dev.now then gfqTaken w c rest Work.badGfq
      else gfqKept w c rest { c with at_ := w.dev.now + 64, stall := some (c.stall.getD (w.dev.now + 6000000)) })
    else if pkCheck (gfqRead w c).1 = false then
      (if 4 ≤ c.tries then gfqTaken w c rest Work.badGfq
      else gfqKept w c rest { c with tries := c.tries + 1, at_ := w.dev.now + 64 })
    else gfqTaken w c rest fun x => x.judgeGfq (gfqRead w c).1 c.since := by
  unfold readGfq
  extract_lets s
  have hs : s.claims = c :: rest := h
  rw [hs]
  rfl

theorem gfqTaken_done {k e f : Nat} {act : Work → Work} (h : (gfqFreed w c).1 = .done k e f) :
    gfqTaken w c rest act = act (gfqEmptied w c rest) := by
  rw [gfqTaken, h]

theorem gfqTaken_refused {k : Nat} {act : Work → Work} (h : (gfqFreed w c).1 = .refused k) :
    gfqTaken w c rest act = (gfqFreed w c).2.updSock fun x => { x with claims := [] } := by
  rw [gfqTaken, h]

theorem gfqDue_iff (h : w.dev.sock.claims = c :: rest) (now : Nat) : gfqDue w.dev.sock now = true ↔
    (w.dev.sock.st = 2 → w.dev.sock.measured = true) ∧ c.at_ ≤ now := by
  rw [gfqDue, h]
  by_cases hst : w.dev.sock.st = 2 <;> simp [hst]

end Reading

-- Packets judged

section Judged

variable {w : Work} {p t : Nat}

theorem badGfq_measuring (h : w.dev.sock.st = 2) : w.badGfq = w.updSock fun x => { x with st := 6 } := if_pos h

theorem badGfq_admitted (h : w.dev.sock.st = 3 ∨ w.dev.sock.st = 4) : w.badGfq = w.missDuty 7 := if_neg (by omega)

theorem judgeGfq_measuring (h : w.dev.sock.st = 2) : w.judgeGfq p t =
    if pkKind p = 0x42 ∧ helloOk w.dev.sock p then w.admitGuest p else w.updSock fun x => { x with st := 6 } := if_pos h

theorem judgeGfq_refuses (h : w.dev.sock.st = 2) (hno : pkKind p ≠ 0x42 ∨ helloOk w.dev.sock p = false) :
    w.judgeGfq p t = w.updSock fun x => { x with st := 6 } :=
  (judgeGfq_measuring h).trans (if_neg fun hx => hno.elim (fun hk => hk hx.1) fun hf => ne_true_of_eq_false hf hx.2)

/-- A HELLO after admission is malformed only as R48 says. -/
def helloAgain (w : Work) (p : Nat) : Work :=
  if packedBytes p 10 1 < 2 ∧ packedBytes p 11 1 = 0 ∧ packedBytes p 24 38 = 0 then w else w.missDuty 7

theorem helloAgain_bad (h : 2 ≤ packedBytes p 10 1 ∨ packedBytes p 11 1 ≠ 0 ∨ packedBytes p 24 38 ≠ 0) :
    helloAgain w p = w.missDuty 7 := by
  refine if_neg ?_
  rintro ⟨h1, h2, h3⟩
  rcases h with h | h | h
  · omega
  · exact h h2
  · exact h h3

/-- After admission a packet is judged by its kind. -/
def judgedByKind (w : Work) (p t : Nat) : Work :=
  if pkKind p = 0x40 then w.judgeFault p
  else if pkKind p = 0x41 then w.judgeAck p t
  else if pkKind p = 0x42 then helloAgain w p
  else w.missDuty 7

theorem judgeGfq_admitted (h : w.dev.sock.st = 3 ∨ w.dev.sock.st = 4) : w.judgeGfq p t =
    if guestPacketOk w.dev.sock p = false then w.missDuty 7 else judgedByKind w p t := by
  unfold Work.judgeGfq
  extract_lets s
  rw [if_neg (by change w.dev.sock.st ≠ 2; omega), if_neg (by change ¬ (w.dev.sock.st ≠ 3 ∧ w.dev.sock.st ≠ 4); omega)]
  refine ite_congr rfl (fun _ => rfl) fun _ => ?_
  unfold judgedByKind
  split
  · rename_i hk
    rw [if_pos hk]
  · rename_i hk
    rw [if_neg (by omega), if_pos hk]
  · rename_i hk
    rw [if_neg (show pkKind p ≠ 0x40 by omega), if_neg (show pkKind p ≠ 0x41 by omega), if_pos hk]
    rfl
  · rename_i h0 h1 h2
    rw [if_neg h0, if_neg h1, if_neg h2]

theorem judgedByKind_other (h : pkKind p < 0x40 ∨ 0x42 < pkKind p) : judgedByKind w p t = w.missDuty 7 := by
  unfold judgedByKind
  rw [if_neg (by omega), if_neg (by omega), if_neg (by omega)]

theorem judgedByKind_fault (h : pkKind p = 0x40) : judgedByKind w p t = w.judgeFault p := if_pos h

theorem judgedByKind_ack (h : pkKind p = 0x41) : judgedByKind w p t = w.judgeAck p t := by
  unfold judgedByKind
  rw [if_neg (by omega), if_pos h]

theorem judgedByKind_hello (h : pkKind p = 0x42) : judgedByKind w p t = helloAgain w p := by
  unfold judgedByKind
  rw [if_neg (by omega), if_neg (by omega), if_pos h]

theorem judgeFault_ends (h : packedBytes p 20 4 = 0) : w.judgeFault p =
    (w.endTaken fun e => decide (packedBytes e 8 8 = packedBytes p 8 8) && decide (packedBytes e 16 2 = packedBytes p 16 2)).endCommandWord
      (if w.dev.sock.st = 4 then w.dev.sock.part else 16) (packedBytes p 8 8) 57 (packedBytes p 18 2) := if_neg (not_not_intro h)

theorem judgeAck_unknown (h : ackOf w.dev.sock p = none) : w.judgeAck p t = w.missDuty 7 := by
  rw [Work.judgeAck, h]

/-- The effect of an ACK in time, by its control packet's kind. -/
def ackEffect (c : CtlPkt) (w : Work) : Work :=
  match c.kind with
  | 0x22 => w.updSock fun x => { x with suspended := true }
  | 0x23 => w.updSock fun x => { x with suspended := false }
  | 0x24 => (w.ownQueues c.part).updSock fun x => { x with st := 4, part := c.part }
  | 0x25 => w.unbindGuest
  | _ => w

theorem judgeAck_known {c : CtlPkt} (h : ackOf w.dev.sock p = some c) : w.judgeAck p t =
    if ackOk c p = false then w.missDuty 7
    else if c.late t then w.missDuty (dutyOf c.kind)
    else ackEffect c (w.updSock fun x => { x with ctl := x.ctl.filter fun y => decide (y ≠ c) }) := by
  unfold Work.judgeAck
  rw [h]
  rfl

section Effects

variable {c : CtlPkt}

theorem ackEffect_inval (h : c.kind = 0x20 ∨ c.kind = 0x21) : ackEffect c w = w := by
  rcases h with h | h
  all_goals
    rw [ackEffect, h]
    rfl

theorem ackEffect_preempt (h : c.kind = 0x22) : ackEffect c w = w.updSock fun x => { x with suspended := true } := by
  rw [ackEffect, h]
  rfl

theorem ackEffect_resume (h : c.kind = 0x23) : ackEffect c w = w.updSock fun x => { x with suspended := false } := by
  rw [ackEffect, h]
  rfl

theorem ackEffect_bind (h : c.kind = 0x24) : ackEffect c w =
    (w.ownQueues c.part).updSock fun x => { x with st := 4, part := c.part } := by
  rw [ackEffect, h]
  rfl

theorem ackEffect_unbind (h : c.kind = 0x25) : ackEffect c w = w.unbindGuest := by
  rw [ackEffect, h]
  rfl

end Effects

end Judged

-- Admission and UNBIND

section Unbind

variable (w : Work)

theorem settleUnbind_idle (h : w.dev.sock.leaving = false ∨ w.dev.sock.dir ≠ []) : w.settleUnbind = w := by
  refine if_neg ?_
  rintro ⟨hl, hd⟩
  exact h.elim (fun hn => ne_true_of_eq_false hn hl) fun hn => hn (List.isEmpty_iff.1 hd)

theorem settleUnbind_over (hl : w.dev.sock.leaving = true) (hd : w.dev.sock.dir = []) : w.settleUnbind = w.updSock fun x => { x with
    st := 3, part := 0, leaving := false, suspended := false, snoops := [], tlb := [], stale := [], taken := [] } :=
  if_pos ⟨hl, List.isEmpty_iff.2 hd⟩

theorem askFor_sock (l : Nat) : SockKept w.dev (w.askFor l).dev := by
  unfold Work.askFor
  extract_lets w1
  have hw1 : SockKept w.dev w1.dev := by
    change SockKept w.dev (if _ then _ else w : Work).dev
    split
    · exact ⟨rfl, id⟩
    · exact aside_sock.refl _
  refine aside_sock.trans hw1 ⟨rfl, fun ht => ?_⟩
  change w1.dev.sock.tlb.filter _ = []
  rw [ht]
  rfl

theorem ownQueues_sock (owner : Nat) : SockKept w.dev (w.ownQueues owner).dev :=
  aside_sock.trans (aside_sock.foldl _ (fun a _ => putBlock_sock a ..) w) (.of_sock rfl)

/-- The guest leaves once its lines are recalled. -/
def markLeaving (v : Work) : Work := v.updSock fun s => { s with leaving := true }

/-- UNBIND takes of the socket what writes and recalls take, and marks it. -/
theorem unbindGuest_marked : ∃ v : Work, SockKept w.dev v.dev ∧
    w.unbindGuest = (markLeaving v).settleUnbind := by
  refine ⟨_, aside_sock.trans (aside_sock.trans (aside_sock.trans (endElements_sock w w.dev.sock.part 21)
    (aside_sock.foldl (List.range 8) (fun a k => endWaiters_aside aside_sock a (guestCb a k) 11) _)) (ownQueues_sock _ 16))
    (aside_sock.foldl _ (fun a (x : GuestLine) => askFor_sock a x.line) _), rfl⟩

theorem unbindGuest_empty (h : w.dev.sock.dir = []) : w.unbindGuest.dev.sock.st = 3 ∧ w.unbindGuest.dev.sock.leaving = false ∧
    w.unbindGuest.dev.sock.suspended = false ∧ w.unbindGuest.dev.sock.tlb = [] := by
  obtain ⟨v, hv, heq⟩ := unbindGuest_marked w
  have hdir : v.dev.sock.dir = [] := (hv.field Sock.dir fun _ => rfl).trans h
  rw [heq, settleUnbind_over (markLeaving v) rfl hdir]
  exact ⟨rfl, rfl, rfl, rfl⟩

theorem unbindGuest_recalls (h : w.dev.sock.dir ≠ []) : w.unbindGuest.dev.sock.st = w.dev.sock.st ∧
    w.unbindGuest.dev.sock.leaving = true ∧ w.unbindGuest.dev.sock.dir = w.dev.sock.dir := by
  obtain ⟨v, hv, heq⟩ := unbindGuest_marked w
  have hdir : v.dev.sock.dir = w.dev.sock.dir := hv.field Sock.dir fun _ => rfl
  rw [heq, settleUnbind_idle (markLeaving v) (.inr (by change v.dev.sock.dir ≠ []; rw [hdir]; exact h))]
  exact ⟨hv.field Sock.st fun _ => rfl, rfl, hdir⟩

/-- A guest that uses all eight queues has none poisoned. -/
theorem admitGuest_all {p : Nat} (h : packedBytes p 9 1 = 8) : w.admitGuest p = w.updSock fun s => { s with
    st := 3, bound := packedBytes p 8 1, queues := packedBytes p 9 1, saveKib := packedBytes p 12 4
    caches := bit (packedBytes p 10 1) 0, helloBy := none, seq := 0, ctl := [] } := by
  have hnone : ((List.range 8).filter fun k => decide (8 ≤ k)) = [] := by decide
  unfold Work.admitGuest
  simp only [h, hnone]
  rfl

end Unbind

-- Control packets placed

section Placed

variable {w : Work} {c : CtlPkt} {part body : Nat} {g : Sock → Sock}

/-- The enqueue of a control packet at gcq's home. -/
def ctlAtHome (w : Work) (c : CtlPkt) (part body : Nat) : HomeAns × Work :=
  let p := c.kind + 2 ^ 15 + 2 ^ 16 * part + 2 ^ 32 * (w.dev.sock.seq % 2 ^ 32) + 2 ^ 64 * (body % 2 ^ 432)
  w.atHome (guestCb w 8) (queueSlice w (guestCb w 8)) (guestCb w 8) (w.dev.agentTime (feAgent 1)) .device
    (.enqueue (p + 2 ^ 496 * crc16 (clearV p) 62) false)

/-- The home's answer to it. -/
def ctlAnswered (w : Work) (c : CtlPkt) (g : Sock → Sock) (r : HomeAns × Work) : Work :=
  match r.1 with
  | .done _ _ _ => r.2.updSock fun x => g { x with
      seq := (x.seq + 1) % 2 ^ 32, ctl := x.ctl ++ [{ c with seq := w.dev.sock.seq % 2 ^ 32 }] }
  | .refused _ => r.2
  | .full => w
  | .empty => w
  | .waiting => w
  | .held => w

theorem placeCtl_full (h : 64 ≤ w.dev.sock.ctl.length) : w.placeCtl c part body g = w := if_pos h

theorem placeCtl_open (h : w.dev.sock.ctl.length < 64) : w.placeCtl c part body g = ctlAnswered w c g (ctlAtHome w c part body) :=
  if_neg (Nat.not_le.2 h)

theorem ctlAnswered_full {r : HomeAns × Work} (h : r.1 = .full) : ctlAnswered w c g r = w := by
  rw [ctlAnswered, h]

theorem ctlAnswered_done {r : HomeAns × Work} {k e f : Nat} (h : r.1 = .done k e f) : ctlAnswered w c g r =
    r.2.updSock fun x => g { x with
      seq := (x.seq + 1) % 2 ^ 32, ctl := x.ctl ++ [{ c with seq := w.dev.sock.seq % 2 ^ 32 }] } := by
  rw [ctlAnswered, h]

theorem ctlAnswered_refused {r : HomeAns × Work} {k : Nat} (h : r.1 = .refused k) : ctlAnswered w c g r = r.2 := by
  rw [ctlAnswered, h]

end Placed

-- Deadlines

theorem missed_iff (c : CtlPkt) (s : Sock) (now : Nat) :
    c.missed s now = true ↔ ∃ t, c.due = some t ∧ t ≤ now ∧ ∀ x ∈ s.claims, t ≤ x.since := by
  unfold CtlPkt.missed CtlPkt.late
  cases c.due <;> simp

theorem missDeadline_none {w : Work} {kinds : List Nat} {seq : Nat}
    (h : (w.dev.sock.ctl.find? fun c => kinds.contains c.kind && decide (c.seq = seq)) = none) : missDeadline kinds seq w = w := by
  rw [missDeadline, h]

theorem missDeadline_some {w : Work} {kinds : List Nat} {seq duty : Nat} {c : CtlPkt} (hduty : ∀ k ∈ kinds, dutyOf k = duty)
    (h : (w.dev.sock.ctl.find? fun c => kinds.contains c.kind && decide (c.seq = seq)) = some c) : missDeadline kinds seq w =
      if c.missed w.dev.sock w.dev.now then w.missDuty duty else w := by
  have hfound := List.find?_some h
  have hkind := (Bool.and_eq_true_iff.1 hfound).1
  rw [missDeadline, h, ← hduty c.kind (List.contains_iff_mem.1 hkind)]

/-- The outcomes of an instruction that looks at a control packet's deadline. -/
def DeadlineOutcomes (i : Nat → Instr) (kinds : List Nat) (duty : Nat) : Prop := ∀ σ seq,
  let found := σ.dev.sock.ctl.find? fun c => kinds.contains c.kind && decide (c.seq = seq)
  (found = none → exec (i seq) σ = .next (same σ)) ∧
  (∀ c, found = some c → exec (i seq) σ =
    .next (if c.missed σ.dev.sock σ.dev.now = true then ((Work.begin σ).missDuty duty).commit else same σ))

theorem deadlineOutcomes {i : Nat → Instr} {kinds : List Nat} {duty : Nat} (hduty : ∀ k ∈ kinds, dutyOf k = duty)
    (h : ∀ σ seq, exec (i seq) σ = .next (missDeadline kinds seq (Work.begin σ)).commit) : DeadlineOutcomes i kinds duty := by
  intro σ seq found
  rw [h σ seq]
  exact ⟨fun hn => next_of_eq (missDeadline_none (w := Work.begin σ) hn),
    fun c hc => (next_of_eq (missDeadline_some (w := Work.begin σ) hduty hc)).trans (next_ite rfl)⟩

/-- Settles O58: claims and reads of gfq by the home's answer, packets by their kind, control packets by what withholds them. -/
theorem guestControlPackets : Obligations.GuestControlPackets := by
  unfold Obligations.GuestControlPackets
  refine ⟨?channel, ?claim, fun _ _ _ => rfl, ?read, ?judged, fun w p => ⟨unbindGuest_empty w, unbindGuest_recalls w, ?admits⟩,
    ?sent, ?placed, ?deadlines, missed_iff, fun σ line => next_ite rfl, ?spdm⟩
  case channel =>
    intro σ p w
    refine ⟨fun i hi => ?_, fun hv => next_of_eq (guestSlot_bare hv), fun c hv hc => next_of_eq (guestSlot_fills hv hc),
      fun hv hc => next_of_eq (guestSlot_places hv hc)⟩
    simp only [List.mem_cons, List.not_mem_nil, or_false] at hi
    rcases hi with rfl | rfl | rfl <;> rfl
  case claim =>
    intro w p whole s cb who full shut r
    have heq := claimGfq_eq w p whole
    have hshut : shut = gfqShut w p := rfl
    refine ⟨fun h2 h3 h4 => heq.trans (if_pos ⟨h2, h3, h4⟩), fun hst hs => ?_, fun hst hs => ?_⟩
    all_goals
      have hgo := heq.trans (if_neg (by change ¬ (s.st ≠ 2 ∧ s.st ≠ 3 ∧ s.st ≠ 4); omega))
      rw [hshut] at hs
    · exact hgo.trans (if_pos hs)
    · have hgo := hgo.trans (if_neg (ne_true_of_eq_false hs))
      exact ⟨fun k e c hr => hgo.trans (gfqAnswered_done hr), fun hr => hgo.trans (gfqAnswered_full hr),
        fun hr => hgo.trans ((gfqAnswered_refused hr).trans (if_pos rfl)),
        fun k hk hr => hgo.trans ((gfqAnswered_refused hr).trans (if_neg hk))⟩
  case read =>
    intro w c rest h now cb b slot r keep q stall freed
    have heq := readGfq_of_claim h
    refine ⟨gfqDue_iff h now, fun hno => heq.trans (if_pos hno), fun hdue => ?_⟩
    have hgo := heq.trans (if_neg (ne_false_of_eq_true hdue))
    have hbare (hv : pkV r.1 = false) := hgo.trans (if_pos hv)
    have hset (hv : pkV r.1 = true) := hgo.trans (if_neg (ne_false_of_eq_true hv))
    have hbad (hv : pkV r.1 = true) (hc : pkCheck r.1 = false) := (hset hv).trans (if_pos hc)
    have hgood (hv : pkV r.1 = true) (hc : pkCheck r.1 = true) := (hset hv).trans (if_neg (ne_false_of_eq_true hc))
    refine ⟨fun hv hnow => (hbare hv).trans (if_neg (Nat.not_le.2 hnow)),
      fun hv hc ht => (hbad hv hc).trans (if_neg (Nat.not_le.2 ht)), fun k e f hq => ?_,
      fun k hv hc hq => (hgood hv hc).trans (gfqTaken_refused hq)⟩
    exact ⟨fun hv hnow => ((hbare hv).trans (if_pos hnow)).trans (gfqTaken_done hq),
      fun hv hc ht => ((hbad hv hc).trans (if_pos ht)).trans (gfqTaken_done hq),
      fun hv hc => (hgood hv hc).trans (gfqTaken_done hq)⟩
  case judged =>
    intro w p t s
    refine ⟨fun h => ⟨badGfq_measuring h, fun hk hok => (judgeGfq_measuring h).trans (if_pos ⟨hk, hok⟩), judgeGfq_refuses h⟩,
      fun h => ⟨badGfq_admitted h, fun hbad => ?_, fun hok => ?_⟩⟩
    · refine (judgeGfq_admitted h).trans ?_
      split
      · rfl
      · rename_i hok
        exact judgedByKind_other (hbad.resolve_left hok)
    · have hgo : w.judgeGfq p t = judgedByKind w p t := (judgeGfq_admitted h).trans (if_neg (ne_false_of_eq_true hok))
      have hhello (hk : pkKind p = 0x42) := hgo.trans (judgedByKind_hello hk)
      have hfault (hk : pkKind p = 0x40) := hgo.trans (judgedByKind_fault hk)
      have hack (hk : pkKind p = 0x41) := hgo.trans (judgedByKind_ack hk)
      refine ⟨fun hk h1 h2 h3 => (hhello hk).trans (if_pos ⟨h1, h2, h3⟩), fun hk hbad => (hhello hk).trans (helloAgain_bad hbad),
        fun hk hbad => (hfault hk).trans (if_pos hbad), fun hk h0 => (hfault hk).trans (judgeFault_ends h0),
        fun hk hnone => (hack hk).trans (judgeAck_unknown hnone), fun c hk hc => ?_⟩
      have hknown := (hack hk).trans (judgeAck_known hc)
      refine ⟨fun hbad => hknown.trans (if_pos hbad), fun hgood hlate => ?_, fun hgood hlate => ?_⟩
      all_goals have hknown := hknown.trans (if_neg (ne_false_of_eq_true hgood))
      · exact hknown.trans (if_pos hlate)
      · intro w2
        have hknown : w.judgeGfq p t = ackEffect c w2 := hknown.trans (if_neg (ne_true_of_eq_false hlate))
        exact ⟨fun h => hknown.trans (ackEffect_inval h), fun h => hknown.trans (ackEffect_preempt h),
          fun h => hknown.trans (ackEffect_resume h), fun h => hknown.trans (ackEffect_bind h),
          fun h => hknown.trans (ackEffect_unbind h)⟩
  case admits =>
    intro h8
    rw [admitGuest_all w h8]
    exact ⟨rfl, rfl, h8⟩
  case sent =>
    intro σ part s f w
    have hite {c : Prop} [Decidable c] {x y : Work} : (Host.Outcome.next (if c then x else y).commit :
        Host.Outcome State Fault Refusal) = .next (if c then x.commit else y.commit) := congrArg Host.Outcome.next (apply_ite _ _ _ _)
    exact ⟨hite, hite, hite, hite⟩
  case placed =>
    intro w c part body g n p cb r
    refine ⟨fun h => ?_, fun k e f hl hr => (placeCtl_open hl).trans (ctlAnswered_done hr),
      fun k hl hr => (placeCtl_open hl).trans (ctlAnswered_refused hr)⟩
    by_cases hl : 64 ≤ w.dev.sock.ctl.length
    · exact placeCtl_full hl
    · exact (placeCtl_open (Nat.not_le.1 hl)).trans (ctlAnswered_full (h.resolve_left hl))
  case deadlines =>
    intro σ seq
    rw [List.forall_mem_cons, List.forall_mem_cons, List.forall_mem_singleton]
    exact ⟨deadlineOutcomes (by decide) (fun _ _ => rfl) σ seq, deadlineOutcomes (by decide) (fun _ _ => rfl) σ seq,
      deadlineOutcomes (by decide) (fun _ _ => rfl) σ seq⟩
  case spdm =>
    intro σ
    change (Host.Outcome.next (limitSpdm (Work.begin σ)).commit : Host.Outcome State Fault Refusal) = _
    rw [limitSpdm, show (Work.begin σ).dev.sock.spdmBy = σ.dev.sock.spdmBy from rfl]
    cases σ.dev.sock.spdmBy with
    | none => rfl
    | some t => exact next_ite rfl

end Sys2Proof.Proofs.GuestPackets

end

section
/-! The bound guest's coherent port, translation port and queue claims (R44 to R46, R49 to R52, R55). -/

namespace Sys2Proof.Proofs.GuestPortRules

open Sys2Proof Sys2Proof.Machine Sys2Proof.Safety Sys2Proof.Laws
open Sys2Proof.Proofs.SchedulerEvents Sys2Proof.Proofs.CoreEventRules Sys2Proof.Proofs.GuestPackets

-- The coherent port

section Requests

variable {w : Work} {r : MemReq}

/-- The guest holds the request's line as its own. -/
def heldOwned (w : Work) (r : MemReq) : Bool :=
  (w.dev.sock.dir.find? fun x => decide (x.line = r.addr / 64)).any fun x => x.owned

/-- A line granted to the guest, or asked for where the directory is full. -/
def guestGranted (w : Work) (r : MemReq) : Work :=
  match crowdedOut w.dev.sock (r.addr / 64) with
  | some x => (w.askFor x).askAgain 1 0 r
  | none => (w.grantLine (r.addr / 64) (decide (r.kind = 2))).reply
      (if w.poisonAt (64 * (r.addr / 64)) 64 ≠ 0 then .poisoned else .value (w.pread (64 * (r.addr / 64)) 64))

theorem guestGranted_crowded {x : Nat} (h : crowdedOut w.dev.sock (r.addr / 64) = some x) :
    guestGranted w r = (w.askFor x).askAgain 1 0 r := by
  rw [guestGranted, h]

theorem guestGranted_free (h : crowdedOut w.dev.sock (r.addr / 64) = none) : guestGranted w r =
    (w.grantLine (r.addr / 64) (decide (r.kind = 2))).reply
      (if w.poisonAt (64 * (r.addr / 64)) 64 ≠ 0 then .poisoned else .value (w.pread (64 * (r.addr / 64)) 64)) := by
  rw [guestGranted, h]

/-- A load, a store or a request for ownership of the bound guest. -/
def guestAccess (w : Work) (r : MemReq) : Work :=
  if 2 < r.kind ∨ w.dev.sock.leaving then w.reply .guestError
  else if r.kind = 1 then
    if outsideWaits w.dev r.addr r.len true then (w.snoopLines r.addr r.len).askAgain 1 0 r
    else (w.guestWrite r.addr r.len r.data).reply .done
  else if guestWaits w.dev r.addr r.len (decide (r.kind = 2)) then w.askAgain 1 0 r
  else guestGranted w r

/-- A request to memory that the bound guest may reach, by its kind. -/
def guestServed (w : Work) (r : MemReq) : Work :=
  if r.kind = 3 then
    if heldOwned w r then (((w.giveBack (r.addr / 64)).guestWrite (64 * (r.addr / 64)) 64 r.data).settleUnbind).reply .done
    else w.reply .guestError
  else if r.kind = 4 then ((if heldOwned w r then w else w.giveBack (r.addr / 64)).settleUnbind).reply .done
  else guestAccess w r

theorem guestServed_writeBack (h : r.kind = 3) : guestServed w r =
    if heldOwned w r then (((w.giveBack (r.addr / 64)).guestWrite (64 * (r.addr / 64)) 64 r.data).settleUnbind).reply .done
    else w.reply .guestError := if_pos h

theorem guestServed_drop (h : r.kind = 4) : guestServed w r =
    ((if heldOwned w r then w else w.giveBack (r.addr / 64)).settleUnbind).reply .done := by
  rw [guestServed, if_neg (by omega), if_pos h]

theorem guestRequest_eq (r : MemReq) (w : Work) : guestRequest r w =
    if w.dev.sock.st ≠ 4 then w.reply .guestError
    else if notGranted w.dev r.addr r.len then (w.reply .guestError).missDuty 2
    else if rangeFault w.dev 1 r.addr r.len false ≠ 0 ∨ anyPrivate w.dev r.addr r.len then w.reply .guestError
    else guestServed w r := by
  unfold guestRequest
  refine ite_congr rfl (fun _ => rfl) fun _ => ite_congr rfl (fun _ => rfl) fun _ => ite_congr rfl (fun _ => rfl) fun _ => ?_
  split
  · rename_i hk
    exact (guestServed_writeBack hk).symm
  · rename_i hk
    exact (guestServed_drop hk).symm
  · rename_i h3 h4
    rw [guestServed, if_neg h3, if_neg h4]
    rfl

section Reached

variable (hst : w.dev.sock.st = 4) (hg : notGranted w.dev r.addr r.len = false)
include hst hg

theorem guestRequest_unreached (h : rangeFault w.dev 1 r.addr r.len false ≠ 0 ∨ anyPrivate w.dev r.addr r.len = true) :
    guestRequest r w = w.reply .guestError := by
  rw [guestRequest_eq, if_neg (not_not_intro hst), if_neg (ne_true_of_eq_false hg), if_pos h]

theorem guestRequest_served (hr : rangeFault w.dev 1 r.addr r.len false = 0) (hp : anyPrivate w.dev r.addr r.len = false) :
    guestRequest r w = guestServed w r := by
  rw [guestRequest_eq, if_neg (not_not_intro hst), if_neg (ne_true_of_eq_false hg),
    if_neg fun h => h.elim (fun h => h hr) (ne_true_of_eq_false hp)]

end Reached

theorem guestServed_access (h : r.kind ≤ 2 ∨ 4 < r.kind) : guestServed w r = guestAccess w r := by
  rw [guestServed, if_neg (by omega), if_neg (by omega)]

theorem guestAccess_refused (h : 2 < r.kind ∨ w.dev.sock.leaving = true) : guestAccess w r = w.reply .guestError := if_pos h

theorem guestAccess_store (h : r.kind = 1) (hl : w.dev.sock.leaving = false) : guestAccess w r =
    if outsideWaits w.dev r.addr r.len true then (w.snoopLines r.addr r.len).askAgain 1 0 r
    else (w.guestWrite r.addr r.len r.data).reply .done := by
  rw [guestAccess, if_neg fun hx => hx.elim (by omega) (ne_true_of_eq_false hl), if_pos h]

theorem guestAccess_load (h : r.kind = 0 ∨ r.kind = 2) (hl : w.dev.sock.leaving = false) : guestAccess w r =
    if guestWaits w.dev r.addr r.len (decide (r.kind = 2)) then w.askAgain 1 0 r
    else guestGranted w r := by
  rw [guestAccess, if_neg fun hx => hx.elim (by omega) (ne_true_of_eq_false hl), if_neg (by omega)]

end Requests

/-- R50: a line leaves a full directory for one that is not in it, and is the one granted longest ago. -/
theorem crowdedOut_some {s : Sock} {l x : Nat} (h : crowdedOut s l = some x) : 131072 ≤ s.dir.length ∧ (∀ y ∈ s.dir, y.line ≠ l) ∧
    s.dir.getLast?.map (fun y => y.line) = some x := by
  unfold crowdedOut at h
  split at h
  · rename_i hfull
    exact ⟨hfull.2, fun y hy => of_decide_eq_true (List.all_eq_true.1 hfull.1 y hy), h⟩
  · cases h

/-- A snoop's answer, by what the guest held. -/
theorem answerSnoop_eq (line data : Nat) (w : Work) : answerSnoop line data w =
    if (w.dev.sock.st ≠ 3 ∧ w.dev.sock.st ≠ 4) ∨ (w.dev.sock.snoops.all fun y => decide (y.1 ≠ line)) = true then w
    else if guestOwns w.dev line = true then ((w.giveBack line).guestWrite (64 * line) 64 data).settleUnbind
    else (w.giveBack line).settleUnbind := by
  unfold answerSnoop
  refine ite_congr rfl (fun _ => rfl) fun _ => ?_
  exact apply_ite Work.settleUnbind _ _ _

-- The translation port (R52)

section Translations

variable {w : Work} {va acc : Nat}

/-- The translation that the bound guest asks for. -/
def guestWalk (w : Work) (va acc : Nat) : Except XErr Xlat :=
  translate w { part := w.dev.sock.part, sec := w.dev.sock.sec, die := 1 }
    [if acc = 0 then .read else if acc = 1 then .write else .atomic] va

theorem guestTranslate_closed (h : w.dev.sock.st ≠ 4 ∨ w.dev.sock.leaving = true) :
    guestTranslate va acc w = w.reply .guestError := if_pos h

variable (hst : w.dev.sock.st = 4) (hl : w.dev.sock.leaving = false)
include hst hl

theorem bound_and_stays : ¬ (w.dev.sock.st ≠ 4 ∨ w.dev.sock.leaving = true) :=
  fun h => h.elim (fun h => h hst) (ne_true_of_eq_false hl)

theorem guestTranslate_beyond (h : 2 ^ 56 ≤ va) : guestTranslate va acc w = w.reply .noTranslation := by
  unfold guestTranslate
  extract_lets s
  rw [if_neg (bound_and_stays hst hl), if_pos h]
  rfl

theorem guestTranslate_error {e : XErr} (h : va < 2 ^ 56) (ht : guestWalk w va acc = .error e) :
    guestTranslate va acc w = (w.awaits e).reply .noTranslation := by
  unfold guestWalk at ht
  unfold guestTranslate
  extract_lets s
  rw [if_neg (bound_and_stays hst hl), if_neg (Nat.not_le.2 h), ht]

/-- The entry that the guest remembers of a translation. -/
def guestEntry (s : Sock) (va : Nat) (x : Xlat) : TlbEntry :=
  { part := s.part, base := va - va % x.size, size := x.size, frame := x.frame, perms := x.perms, cls := x.cls, handle := x.handle
    lines := x.lines }

theorem guestTranslate_ok {x : Xlat} (h : va < 2 ^ 56) (ht : guestWalk w va acc = .ok x) : guestTranslate va acc w =
    (w.updSock fun y => { y with
        tlb := guestEntry w.dev.sock va x :: y.tlb.filter fun z => decide (z ≠ guestEntry w.dev.sock va x) }).reply
      (.translation x.frame x.size x.perms (inRanges w.dev.secGran (granuleOf x.pa))) := by
  unfold guestWalk at ht
  unfold guestTranslate
  extract_lets s
  rw [if_neg (bound_and_stays hst hl), if_neg (Nat.not_le.2 h), ht]
  rfl

end Translations

-- Elements claimed (R45 to R48)

section Elements

variable {w : Work} {q elem : Nat}

/-- The guest's claim of an element at the queue's home. -/
def elementAtHome (w : Work) (q : Nat) : HomeAns × Work :=
  w.atHome (guestCb w q) (queueSlice w (guestCb w q)) (guestCb w q) (w.dev.agentTime guestAgent) (.guest (guestPart w.dev))
    (.dequeue false)

/-- The home's answer to it. -/
def elementAnswered (w : Work) (q : Nat) (r : HomeAns × Work) : Work :=
  match r.1 with
  | .done _ e _ => (if q < 8 then r.2.updSock fun x => { x with taken := x.taken ++ [e] } else r.2).reply (.value e)
  | .full => r.2.reply .queueFull
  | .empty => r.2.reply .queueFull
  | .waiting => w
  | .held => w
  | .refused c => if c = 12 then r.2.missDuty 2 else r.2.reply .guestError

theorem guestClaim_measuring (hq : q ≤ 8) (h : w.dev.sock.st = 2) : guestClaim q elem w = w.reply .queueFull := by
  unfold guestClaim
  extract_lets s
  rw [if_neg (by omega), if_pos h]

theorem guestClaim_unadmitted (hq : q ≤ 8) (h2 : w.dev.sock.st ≠ 2) (h3 : w.dev.sock.st ≠ 3) (h4 : w.dev.sock.st ≠ 4) :
    guestClaim q elem w = w.reply .none := by
  unfold guestClaim
  extract_lets s
  rw [if_neg (by omega), if_neg h2, if_pos (.inl ⟨h3, h4⟩)]

theorem guestClaim_admitted (hq : q ≤ 8) (h : w.dev.sock.st = 3 ∨ w.dev.sock.st = 4) :
    guestClaim q elem w = elementAnswered w q (elementAtHome w q) := by
  unfold guestClaim
  extract_lets s
  have hs : s.st = 3 ∨ s.st = 4 := h
  rw [if_neg (by omega), if_neg (by omega), if_neg (by omega)]
  rfl

variable {r : HomeAns × Work}

theorem elementAnswered_done {t e c : Nat} (h : r.1 = .done t e c) : elementAnswered w q r =
    (if q < 8 then r.2.updSock fun x => { x with taken := x.taken ++ [e] } else r.2).reply (.value e) := by
  rw [elementAnswered, h]

theorem elementAnswered_empty (h : r.1 = .empty) : elementAnswered w q r = r.2.reply .queueFull := by
  rw [elementAnswered, h]

theorem elementAnswered_refused {c : Nat} (h : r.1 = .refused c) : elementAnswered w q r =
    if c = 12 then r.2.missDuty 2 else r.2.reply .guestError := by
  rw [elementAnswered, h]

end Elements

/-- Settles O59: a request by its guards and kind, translations and claims by what the walk and the home answer. -/
theorem guestPorts : Obligations.GuestPorts := by
  unfold Obligations.GuestPorts
  refine ⟨?request, fun w => ⟨settleUnbind_idle w, settleUnbind_over w⟩, fun w l own => ⟨_, rfl, rfl, rfl, rfl⟩,
    fun s l x => crowdedOut_some, ?snoop, ?translation, ?claim⟩
  case request =>
    intro σ r d l owned refused w
    have heq := guestRequest_eq r w
    have hown : owned = heldOwned w r := rfl
    refine ⟨fun h => next_of_eq (heq.trans (if_pos h)), fun h hg => ?_, fun h hg hbad => ?_, fun h hg hr hp => ?_⟩
    · exact next_of_eq (heq.trans ((if_neg (not_not_intro h)).trans (if_pos hg)))
    · refine next_of_eq (w := w.reply .guestError) ?_
      by_cases hreach : rangeFault d 1 r.addr r.len false ≠ 0 ∨ anyPrivate d r.addr r.len = true
      · exact guestRequest_unreached h hg hreach
      · obtain ⟨hr, hp⟩ := not_or.1 hreach
        refine (guestRequest_served h hg (Classical.not_not.1 hr) (eq_false_of_ne_true hp)).trans ?_
        rcases hbad with hbad | hbad | hk | ⟨hl, hk⟩ | ⟨hk, ho⟩
        · exact absurd hbad hr
        · exact absurd hbad hp
        · exact (guestServed_access (.inr hk)).trans (guestAccess_refused (.inl (by omega)))
        · exact (guestServed_access (.inl hk)).trans (guestAccess_refused (.inr hl))
        · exact (guestServed_writeBack hk).trans (if_neg (ne_true_of_eq_false ho))
    · have hserved := guestRequest_served (w := w) h hg hr hp
      refine ⟨fun hl hk => ?_, fun hl hk => ?_, fun hk ho => ?_, fun hk => ?_⟩
      · have hload := (hserved.trans (guestServed_access (.inl (by omega)))).trans (guestAccess_load hk hl)
        refine ⟨fun hw => next_of_eq (hload.trans (if_pos hw)), fun hw => ?_⟩
        have hload := hload.trans (if_neg (ne_true_of_eq_false hw))
        exact ⟨fun x hx => next_of_eq (hload.trans (guestGranted_crowded hx)),
          fun hx => next_of_eq (hload.trans (guestGranted_free hx))⟩
      · have hstore := (hserved.trans (guestServed_access (.inl (by omega)))).trans (guestAccess_store hk hl)
        exact ⟨fun hw => next_of_eq (hstore.trans (if_pos hw)),
          fun hw => next_of_eq (hstore.trans (if_neg (ne_true_of_eq_false hw)))⟩
      · exact next_of_eq (hserved.trans ((guestServed_writeBack hk).trans (if_pos ho)))
      · have hcond : cond owned w (w.giveBack l) = if heldOwned w r then w else w.giveBack l := by
          rw [hown, Bool.cond_eq_ite]
        rw [hcond]
        exact next_of_eq (hserved.trans (guestServed_drop hk))
  case snoop =>
    intro σ line data s w1
    refine (next_of_eq (answerSnoop_eq line data (Work.begin σ))).trans ?_
    rw [apply_ite Work.commit, apply_ite Work.commit]
    rfl
  case translation =>
    intro σ va acc s perm tr
    exact ⟨fun h => next_of_eq (guestTranslate_closed (w := Work.begin σ) h),
      fun hst hl hv => next_of_eq (guestTranslate_beyond (w := Work.begin σ) hst hl hv),
      fun e hst hl hv ht => next_of_eq (guestTranslate_error (w := Work.begin σ) hst hl hv ht),
      fun x hst hl hv ht => next_of_eq (guestTranslate_ok (w := Work.begin σ) hst hl hv ht)⟩
  case claim =>
    intro σ q elem s w cb r
    refine ⟨fun hst hq => next_of_eq (guestClaim_measuring (w := w) hq hst),
      fun h2 h3 h4 hq => next_of_eq (guestClaim_unadmitted (w := w) hq h2 h3 h4), fun t e c hst hr => ⟨fun hq => ?_, fun hq => ?_⟩,
      fun hst hq hr => ?_, fun hst hq hr => ?_⟩
    · exact next_of_eq ((guestClaim_admitted (w := w) (by omega) hst).trans ((elementAnswered_done hr).trans (by rw [if_pos hq])))
    · exact next_of_eq ((guestClaim_admitted (w := w) (by omega) hst).trans ((elementAnswered_done hr).trans (by
        rw [if_neg (by omega)])))
    · exact next_of_eq ((guestClaim_admitted (w := w) hq hst).trans (elementAnswered_empty hr))
    · exact next_of_eq ((guestClaim_admitted (w := w) hq hst).trans ((elementAnswered_refused hr).trans (if_pos rfl)))

end Sys2Proof.Proofs.GuestPortRules

end

section
/-! What the machine does without the issue record: reads do not see it, and transitions pass it on (R139, R220, R389). -/

namespace Sys2Proof.Proofs.IssueFrame

open Sys2Proof Sys2Proof.Machine Sys2Proof.Safety Sys2Proof.Laws Sys2Proof.Proofs.Traps

section Reads

variable (w : Work) (X : Issue)

theorem setIssue_setIssue (Y : Issue) : (w.setIssue X).setIssue Y = w.setIssue Y := rfl

theorem pread_setIssue (pa n : Nat) : (w.setIssue X).pread pa n = w.pread pa n := by
  induction n generalizing pa with
  | zero => rfl
  | succ n ih => exact congrArg (fun k => (w.seen (w.pkey pa)).toNat + 256 * k) (ih (pa + 1))

theorem readN_setIssue (k n : Nat) : (w.setIssue X).readN k n = w.readN k n := readN_congr fun _ _ => rfl

theorem engineRead_setIssue (core id : Nat) (snap : List Host.Cell) (a n : Nat) :
    (w.setIssue X).engineRead core id snap a n = w.engineRead core id snap a n := by
  induction n generalizing a with
  | zero => rfl
  | succ n ih => exact congrArg (fun k => w.engineByte core id snap a + 256 * k) (ih (a + 1))

theorem rowNumbers_setIssue (core : Nat) (c : CopyCmd) : rowNumbers (w.setIssue X) core c = rowNumbers w core c := by
  unfold rowNumbers
  simp only [engineRead_setIssue]

theorem contMembers_setIssue (level table idx : Nat) : contMembers (w.setIssue X) level table idx = contMembers w level table idx := by
  unfold contMembers
  simp only [pread_setIssue]

theorem pickEntry_setIssue (level table idx e : Nat) : pickEntry (w.setIssue X) level table idx e = pickEntry w level table idx e := by
  unfold pickEntry
  simp only [contMembers_setIssue]
  rfl

theorem reachFault_setIssue (die a : Nat) : reachFault (w.setIssue X).dev die a = reachFault w.dev die a := rfl

theorem firstBusy_setIssue (ls : List Nat) : firstBusy (w.setIssue X).dev ls = firstBusy w.dev ls := rfl

theorem writeWaits_setIssue (l : Nat) : writeWaits (w.setIssue X).dev l = writeWaits w.dev l := rfl

theorem readWaits_setIssue (l : Nat) : readWaits (w.setIssue X).dev l = readWaits w.dev l := rfl

theorem walkFrom_setIssue (die va k table : Nat) (lines : List Nat) :
    walkFrom (w.setIssue X) die va k table lines = walkFrom w die va k table lines := by
  induction k generalizing table lines with
  | zero =>
    unfold walkFrom
    simp only [pread_setIssue, reachFault_setIssue, firstBusy_setIssue, pickEntry_setIssue]
  | succ k ih =>
    unfold walkFrom
    simp only [pread_setIssue, reachFault_setIssue, firstBusy_setIssue, pickEntry_setIssue, ih]

theorem physChecks_setIssue (who : Asker) (pa : Nat) : physChecks (w.setIssue X).dev who pa = physChecks w.dev who pa := rfl

theorem resolveHandle_setIssue (who : Asker) (e lg va : Nat) :
    resolveHandle (w.setIssue X) who e lg va = resolveHandle w who e lg va := by
  unfold resolveHandle
  simp only [pread_setIssue, reachFault_setIssue, readWaits_setIssue]
  rfl

theorem translate_setIssue (who : Asker) (need : List Need) (va : Nat) :
    Machine.translate (w.setIssue X) who need va = Machine.translate w who need va := by
  unfold Machine.translate
  simp only [walkFrom_setIssue, resolveHandle_setIssue, physChecks_setIssue]
  rfl

theorem poisonAt_setIssue (pa n : Nat) : (w.setIssue X).poisonAt pa n = w.poisonAt pa n := rfl

theorem ctx_setIssue (core bank : Nat) : (w.setIssue X).ctx core bank = w.ctx core bank := rfl

theorem core_setIssue (core : Nat) : (w.setIssue X).core core = w.core core := rfl

theorem fetchBundle_setIssue (core bank pc : Nat) : fetchBundle (w.setIssue X) core bank pc = fetchBundle w core bank pc := by
  unfold fetchBundle
  simp only [translate_setIssue, reachFault_setIssue, poisonAt_setIssue, pread_setIssue, ctx_setIssue]

theorem bodyEnd_setIssue (core bank n a : Nat) : bodyEnd (w.setIssue X) core bank n a = bodyEnd w core bank n a := by
  induction n generalizing a with
  | zero => rfl
  | succ n ih =>
    unfold bodyEnd
    simp only [fetchBundle_setIssue, ih]

theorem ringHolds_setIssue (cb l : Nat) : ringHolds (w.setIssue X) cb l = ringHolds w cb l := by
  unfold ringHolds
  simp only [pread_setIssue]

theorem publishCheck_setIssue (core bank o h : Nat) (free : Bool) :
    publishCheck (w.setIssue X) core bank o h free = publishCheck w core bank o h free := by
  unfold publishCheck
  simp only [pread_setIssue, reachFault_setIssue, ctx_setIssue, core_setIssue]
  rfl

theorem pubReady_setIssue (core : Nat) (c : CopyCmd) : pubReady (w.setIssue X) core c = pubReady w core c := by
  unfold pubReady
  simp only [writeWaits_setIssue, ctx_setIssue]
  rfl

end Reads

section Transitions

variable (w : Work) (X : Issue)

theorem updCtx_setIssue (core bank : Nat) (f : Ctx → Ctx) : (w.setIssue X).updCtx core bank f = (w.updCtx core bank f).setIssue X := rfl

theorem updCore_setIssue (core : Nat) (f : Core → Core) : (w.setIssue X).updCore core f = (w.updCore core f).setIssue X := rfl

theorem updCoh_setIssue (f : Coherence → Coherence) : (w.setIssue X).updCoh f = (w.updCoh f).setIssue X := rfl

theorem writeN_setIssue (k n v : Nat) : (w.setIssue X).writeN k n v = (w.writeN k n v).setIssue X := by
  induction n generalizing w k v with
  | zero => rfl
  | succ n ih => exact ih (w.setByte k (BitVec.ofNat 8 v)) (k + 1) (v / 256)

theorem put_setIssue (k : Nat) (v : Byte) : (w.setIssue X).put k v = (w.put k v).setIssue X := by
  unfold Work.put
  cases h : w.dev.dataKeys.get? (k / 2 ^ 21) <;>
    simp only [show (w.setIssue X).dev.dataKeys.get? (k / 2 ^ 21) = _ from h] <;> rfl

theorem pwrite_setIssue (pa n v : Nat) : (w.setIssue X).pwrite pa n v = (w.pwrite pa n v).setIssue X := by
  induction n generalizing w pa v with
  | zero => rfl
  | succ n ih =>
    rw [Work.pwrite, put_setIssue, ih]
    rfl

theorem waitFor_setIssue (b : Bool) (l : Nat) : (w.setIssue X).waitFor b l = (w.waitFor b l).setIssue X := by
  cases b <;> rfl

/-- A choice between two works, by a condition that does not see the record. -/
theorem ite_setIssue {c : Prop} [Decidable c] (u v : Work) : (if c then u.setIssue X else v.setIssue X) = (if c then u else v).setIssue X := by
  split <;> rfl

theorem foldl_setIssue {α : Type} {f : Work → α → Work} (hf : ∀ w a, f (w.setIssue X) a = (f w a).setIssue X) (l : List α) :
    l.foldl f (w.setIssue X) = (l.foldl f w).setIssue X := by
  induction l generalizing w with
  | nil => rfl
  | cons a l ih => rw [List.foldl_cons, hf, ih, List.foldl_cons]

theorem makeDirty_setIssue (l : Nat) : (w.setIssue X).makeDirty l = (w.makeDirty l).setIssue X := by
  unfold Work.makeDirty
  rw [pread_setIssue, writeN_setIssue]
  change (if _ then w.setIssue X else (if w.dev.coh.isBanked l then w.setIssue X else Work.setIssue _ X).updCoh _) = _
  rw [ite_setIssue, updCoh_setIssue, ite_setIssue]
  rfl

theorem writeBack_setIssue (l : Nat) : (w.setIssue X).writeBack l = (w.writeBack l).setIssue X := by
  unfold Work.writeBack
  rw [writeN_setIssue, updCoh_setIssue]
  exact ite_setIssue ..

theorem takeArray_setIssue (l : Nat) : (w.setIssue X).takeArray l = (w.takeArray l).setIssue X := by
  unfold Work.takeArray
  rw [readN_setIssue, pwrite_setIssue, writeN_setIssue, updCoh_setIssue]
  exact ite_setIssue ..

theorem settleLine_setIssue (l : Nat) : (w.setIssue X).settleLine l = (w.settleLine l).setIssue X := by
  rw [Work.settleLine, writeBack_setIssue, takeArray_setIssue]
  rfl

theorem sweepLines_setIssue (pa n : Nat) : (w.setIssue X).sweepLines pa n = (w.sweepLines pa n).setIssue X := by
  unfold Work.sweepLines
  exact congrArg (fun a : Work => a.updCoh _) (foldl_setIssue w X (fun a l => settleLine_setIssue a X l) _)

theorem cleanSectors_setIssue (pa n : Nat) : (w.setIssue X).cleanSectors pa n = (w.cleanSectors pa n).setIssue X := rfl

theorem noteWrite_setIssue (l : Nat) : (w.setIssue X).noteWrite l = (w.noteWrite l).setIssue X := by
  unfold Work.noteWrite
  simp only [ringHolds_setIssue]
  rfl

theorem cohWrite_setIssue (t pa n v : Nat) : (w.setIssue X).cohWrite t pa n v =
    ((w.cohWrite t pa n v).1, (w.cohWrite t pa n v).2.setIssue X) := by
  unfold Work.cohWrite
  extract_lets l h t' w1 w2 h' t'' w1' w2'
  have hw1 : w1 = w1'.setIssue X := by
    change (((w.setIssue X).waitFor (writeWaits w.dev l) l).makeDirty l).pwrite pa n v = _
    rw [waitFor_setIssue, makeDirty_setIssue, pwrite_setIssue]
  have hw2 : w2 = w2'.setIssue X := by
    change w1.updCoh _ = _
    rw [hw1]
    rfl
  rw [hw2, cleanSectors_setIssue, ite_setIssue, noteWrite_setIssue]
  rfl

theorem setTags_setIssue (col g v n : Nat) : setTags (w.setIssue X) col g v n = (setTags w col g v n).setIssue X := by
  induction n generalizing w g with
  | zero => rfl
  | succ n ih => exact ih (w.mapDev fun d => { d with cols := d.cols.set col { d.column col with
      tags := (d.column col).tags.set g v } }) (g + 1)

/-- What a publish leaves of the machine once its checks have passed and its entry is read. -/
def published (w : Work) (core bank o h : Nat) (free : Bool) (t lo len pubs half : Nat) : Work :=
  let c := w.ctx core bank
  let old := bits lo 51 12 * 4096
  let region := core * 2 ^ 29 + o
  let r := w.cohWrite t ((w.dev.partOf c.part).htab + 16 * h) 16
    (lo % 2 ^ 12 + region / 4096 * 4096 + 2 ^ 64 * (half + 2 ^ 32 * ((pubs + 1) % 2 ^ 32)))
  let w1 := (r.2.updCoh fun h => h.renew region (region + len) r.1).updCtx core bank fun x => x.raiseLts r.1
  let w2 := setTags w1 core (o / 2 ^ 21) 0 (len / 2 ^ 21)
  if free then
    let w3 := if regionOf old = .stacked then setTags w2 (columnOf old) (old / 2 ^ 21 % 256) 0 (len / 2 ^ 21) else w2
    let body := h + 2 ^ 64 * old + 2 ^ 128 * len + 2 ^ 192 * (core + 512 * bank)
    w3.mapDev fun d => { d with events := d.events ++ [{ part := c.part, kind := 0x93, body := body }] }
  else setTags (w2.sweepLines old len) core (old / 2 ^ 21 % 256) (bank + 1) (len / 2 ^ 21)

theorem performPublish_refused {core bank pc o h : Nat} {free : Bool} {cause : Nat}
    (hc : publishCheck w core bank o h free = some cause) : w.performPublish core bank pc o h free =
      w.updCtx core bank fun c => { c with plate := c.plate ++ [(cause, h, pc)] } := by
  unfold Work.performPublish
  rw [hc]

/-- The bytes that a publish moves, by its entry at an address. -/
def publishLen (w : Work) (a : Nat) : Nat := w.pread (a + 8) 4 * 2 ^ bits (w.pread a 8) 5 0

/-- The entry of a context's handle. -/
def handleEntry (w : Work) (core bank h : Nat) : Nat := (w.dev.partOf (w.ctx core bank).part).htab + 16 * h

theorem performPublish_passed {core bank pc o h : Nat} {free : Bool} (hc : publishCheck w core bank o h free = none) :
    w.performPublish core bank pc o h free =
      let c := w.ctx core bank
      let a := handleEntry w core bank h
      published w core bank o h free (max (max c.lts c.engLts)
        (w.dev.coh.above (core * 2 ^ 29 + o) (core * 2 ^ 29 + o + publishLen w a)))
        (w.pread a 8) (publishLen w a) (w.pread (a + 12) 4) (w.pread (a + 8) 4) := by
  unfold Work.performPublish
  rw [hc]
  rfl

theorem published_setIssue (core bank o h : Nat) (free : Bool) (t lo len pubs half : Nat) :
    published (w.setIssue X) core bank o h free t lo len pubs half = (published w core bank o h free t lo len pubs half).setIssue X := by
  unfold published
  simp only [ctx_setIssue, cohWrite_setIssue, updCoh_setIssue, updCtx_setIssue, setTags_setIssue, sweepLines_setIssue]
  cases free with
  | false => rfl
  | true =>
    simp only [if_true, ite_setIssue]
    rfl

theorem performPublish_setIssue (core bank pc o h : Nat) (free : Bool) :
    (w.setIssue X).performPublish core bank pc o h free = (w.performPublish core bank pc o h free).setIssue X := by
  have hcheck := publishCheck_setIssue w X core bank o h free
  cases hc : publishCheck w core bank o h free with
  | some cause =>
    rw [performPublish_refused _ (hcheck.trans hc), performPublish_refused _ hc]
    rfl
  | none =>
    have hlen (a : Nat) : publishLen (w.setIssue X) a = publishLen w a := by
      simp only [publishLen, pread_setIssue]
    rw [performPublish_passed _ (hcheck.trans hc), performPublish_passed _ hc]
    simp only [pread_setIssue, ctx_setIssue, hlen, published_setIssue]
    rfl

theorem putCmd_setIssue (core eng : Nat) (c : CopyCmd) : (w.setIssue X).putCmd core eng c = (w.putCmd core eng c).setIssue X := rfl

/-- A command that is no publish starts, with the time, the rows and the mark of its index that it reads. -/
def copyStarted (w : Work) (core eng : Nat) (c : CopyCmd) (t : Nat) (rows : List Int) (marked : Bool) : Work :=
  let c1 := if c.byRows then { c with idx := rows } else c
  let c2 := { c1 with running := true, lts := t, wts := t }
  if c.byRows ∧ marked then w.putCmd core eng { c2 with err := some (41, 0) } else w.putCmd core eng { c2 with left := c2.pieces }

theorem copyStarted_setIssue (core eng : Nat) (c : CopyCmd) (t : Nat) (rows : List Int) (marked : Bool) :
    copyStarted (w.setIssue X) core eng c t rows marked = (copyStarted w core eng c t rows marked).setIssue X := by
  simp only [copyStarted, putCmd_setIssue, ite_setIssue]

/-- A publish that is due is performed and leaves its engine. -/
def copyPublished (w : Work) (core eng : Nat) (c : CopyCmd) : Work :=
  (w.performPublish core c.ctx c.pc (publishOffset c.a c.b) (c.b.toNat % 2 ^ 32) (bit c.b.toNat 32)).updCore core fun k =>
    ({ k with ce := k.ce.set eng ((k.ce.get eng []).filter fun x => match x with
      | .cmd y => decide (y.id ≠ c.id)
      | .fence _ _ => true) }.dropFences 0).dropFences 1

theorem copyPublished_setIssue (core eng : Nat) (c : CopyCmd) :
    copyPublished (w.setIssue X) core eng c = (copyPublished w core eng c).setIssue X := by
  rw [copyPublished, performPublish_setIssue, updCore_setIssue]
  rfl

theorem startCopy_none {core eng : Nat} (h : startable (w.core core) eng = none) : w.startCopy core eng = w := by
  rw [Work.startCopy, h]

theorem startCopy_some {core eng : Nat} {c : CopyCmd} (h : startable (w.core core) eng = some c) : w.startCopy core eng =
    if c.form = 13 then (if pubReady w core c = false then w else copyPublished w core eng c)
    else copyStarted w core eng c (max (w.ctx core c.ctx).lts c.lts) (rowNumbers w core c) (indexMarked w core c) := by
  unfold Work.startCopy
  rw [h]
  rfl

theorem startCopy_setIssue (core eng : Nat) : (w.setIssue X).startCopy core eng = (w.startCopy core eng).setIssue X := by
  cases h : startable (w.core core) eng with
  | none => rw [startCopy_none w h, startCopy_none (w.setIssue X) h]
  | some c =>
    rw [startCopy_some w h, startCopy_some (w.setIssue X) h, pubReady_setIssue, rowNumbers_setIssue, copyStarted_setIssue,
      copyPublished_setIssue, ite_setIssue, ite_setIssue]
    rfl

/-- A copy whose place is the core's cycle starts. -/
def placedStart (core bank clk : Nat) (a : Work) (eng : Nat) : Work :=
  match startable (a.core core) eng with
  | some c => if c.ctx = bank ∧ c.at_ = clk then a.startCopy core eng else a
  | none => a

theorem placedStart_setIssue (core bank clk : Nat) (eng : Nat) :
    placedStart core bank clk (w.setIssue X) eng = (placedStart core bank clk w eng).setIssue X := by
  unfold placedStart
  rw [core_setIssue, startCopy_setIssue]
  split
  · exact ite_setIssue ..
  · rfl

theorem startPlaced_eq (core bank : Nat) : w.startPlaced core bank = if (w.ctx core bank).ebb = false then w
    else [0, 0, 1, 1].foldl (placedStart core bank (w.core core).clk) w := rfl

theorem startPlaced_setIssue (core bank : Nat) : (w.setIssue X).startPlaced core bank = (w.startPlaced core bank).setIssue X := by
  rw [startPlaced_eq, core_setIssue, foldl_setIssue w X fun a eng => placedStart_setIssue a X ..]
  exact ite_setIssue ..

theorem nextBundle_setIssue (core bank : Nat) (r : Issued) : (w.setIssue X).nextBundle core bank r = (w.nextBundle core bank r).setIssue X := by
  unfold Work.nextBundle
  rw [bodyEnd_setIssue]
  rfl

theorem onward_setIssue (core bank : Nat) (r : Issued) : onward (w.setIssue X) core bank r = (onward w core bank r).setIssue X := by
  rw [onward, startPlaced_setIssue, updCtx_setIssue, nextBundle_setIssue]
  rfl

end Transitions

end Sys2Proof.Proofs.IssueFrame

end

section
/-! A step runs the decoded instruction of the bundle that stands to issue, and nothing else of that bundle (R139, R220,
R226, R264, R418). -/

namespace Sys2Proof.Proofs.StepRuns

open Sys2Proof Sys2Proof.Machine Sys2Proof.Safety Sys2Proof.Laws Sys2Proof.Proofs.IssueFrame

-- The slots of a bundle

/-- A slot word of zeros is a nop (R268). -/
theorem decodeSlot_zero (sl : Slot) : decodeSlot sl 0 = .ok none :=
  (Sys2Proof.Proofs.Encoding.decodeSlot_of_opcode_zero rfl).trans (if_pos rfl)

theorem runSlot_nop {w : Work} (h : w.dev.issue.word = 0) : w.runSlot = w := by
  unfold Work.runSlot
  simp only [h, decodeSlot_zero]

theorem runSlot_next {w : Work} {i : Instr} {t : State}
    (hd : decodeSlot (slotOf w.dev.issue.slot) w.dev.issue.word = .ok (some i)) (hx : exec i w.commit = .next t) :
    w.runSlot = Work.begin t := by
  unfold Work.runSlot
  simp only [hd, hx]

theorem runSlot_refused {w : Work} (hp : w.dev.issue.probe = false) {e : DecodeError}
    (hd : decodeSlot (slotOf w.dev.issue.slot) w.dev.issue.word = .error e) : w.runSlot = w.trapNow e.cause none := by
  unfold Work.runSlot
  simp only [hd, hp]
  rfl

/-- The record with which a slot of a bundle acts after the slots that left a record (R155, R348). -/
def slotIssue (old : Issue) (core bank : Nat) (r : Issued) (m : Nat) : Issue :=
  { issueFor core bank r false m with
    lsOld := old.lsOld
    wasBad := old.wasBad }

theorem runSlots_cons (w : Work) (core bank : Nat) (r : Issued) (m : Nat) (ns : List Nat) :
    w.runSlots core bank r false (m :: ns) =
      ((w.setIssue (slotIssue w.dev.issue core bank r m)).runSlot).runSlots core bank r false ns := rfl

theorem slotIssue_fresh {old : Issue} (core bank : Nat) (r : Issued) (m : Nat) (hls : old.lsOld = []) (hbad : old.wasBad = []) :
    slotIssue old core bank r m = issueFor core bank r false m := by
  rw [slotIssue, hls, hbad]
  rfl

/-- Slots of nops leave nothing but an issue record. -/
theorem runSlots_nops (w : Work) (core bank : Nat) (r : Issued) {ns : List Nat} (h : ∀ m ∈ ns, bundleWord r.bundle m = 0) :
    ∃ X, w.runSlots core bank r false ns = w.setIssue X ∧ X.lsOld = w.dev.issue.lsOld ∧ X.wasBad = w.dev.issue.wasBad := by
  induction ns generalizing w with
  | nil => exact ⟨w.dev.issue, rfl, rfl, rfl⟩
  | cons m ns ih =>
    have hm : bundleWord r.bundle m = 0 := h m (List.mem_cons_self ..)
    obtain ⟨X, hX, hls, hbad⟩ := ih (w.setIssue (slotIssue w.dev.issue core bank r m)) fun k hk =>
      h k (List.mem_cons_of_mem _ hk)
    refine ⟨X, ?_, hls, hbad⟩
    have hnop : (w.setIssue (slotIssue w.dev.issue core bank r m)).runSlot = w.setIssue (slotIssue w.dev.issue core bank r m) :=
      runSlot_nop hm
    rw [runSlots_cons, hnop, hX, setIssue_setIssue]

theorem runSlots_append (w : Work) (core bank : Nat) (r : Issued) (xs ys : List Nat) :
    w.runSlots core bank r false (xs ++ ys) = (w.runSlots core bank r false xs).runSlots core bank r false ys :=
  List.foldl_append

/-- The one slot of a bundle that holds an instruction takes its effect, from the bundle's own state. -/
theorem runSlots_only {w : Work} {core bank n : Nat} {r : Issued} {i : Instr} {t : State}
    (hn : n ∈ [1, 2, 3, 4, 5, 6]) (hd : decodeSlot (slotOf n) (bundleWord r.bundle n) = .ok (some i))
    (honly : ∀ m ∈ [1, 2, 3, 4, 5, 6], m ≠ n → bundleWord r.bundle m = 0)
    (hx : exec i (w.setIssue (issueFor core bank r false n)).commit = .next t) :
    ∃ X, (w.setIssue {}).runSlots core bank r false [1, 2, 3, 4, 5, 6] = (Work.begin t).setIssue X := by
  obtain ⟨pre, post, hsplit⟩ := List.append_of_mem hn
  have hnodup : (pre ++ n :: post).Nodup := hsplit ▸ by decide
  obtain ⟨-, hpost, hpre⟩ := List.nodup_append.1 hnodup
  have hne : ∀ m ∈ pre ++ post, m ≠ n := fun m hm => (List.mem_append.1 hm).elim
    (fun h => hpre m h n (List.mem_cons_self ..)) fun h hmn => (List.nodup_cons.1 hpost).1 (hmn ▸ h)
  have hzero : ∀ m ∈ pre ++ post, bundleWord r.bundle m = 0 := fun m hm =>
    honly m (hsplit ▸ by
      rcases List.mem_append.1 hm with h | h
      · exact List.mem_append_left _ h
      · exact List.mem_append_right _ (List.mem_cons_of_mem _ h)) (hne m hm)
  obtain ⟨X, hX, hls, hbad⟩ := runSlots_nops (w.setIssue {}) core bank r fun m hm => hzero m (List.mem_append_left _ hm)
  obtain ⟨Y, hY, -, -⟩ := runSlots_nops (Work.begin t) core bank r fun m hm => hzero m (List.mem_append_right _ hm)
  have hrun : (w.setIssue (issueFor core bank r false n)).runSlot = Work.begin t := runSlot_next hd hx
  have hslot : (w.setIssue X).runSlots core bank r false (n :: post) = (Work.begin t).runSlots core bank r false post := by
    rw [runSlots_cons, slotIssue_fresh (old := (w.setIssue X).dev.issue) core bank r n hls hbad, setIssue_setIssue, hrun]
  exact ⟨Y, by rw [hsplit, runSlots_append, hX, setIssue_setIssue, hslot, hY]⟩

-- The issue of a bundle

theorem commitLead_plain {w : Work} {core bank : Nat} {r : Issued} (h : controls r.bundle = false) :
    (w.commitLead core bank r).2 = onward (w.runSlots core bank r false [1, 2, 3, 4, 5, 6]) core bank r := by
  have hplain : plainSlots r.bundle = [1, 2, 3, 4, 5, 6] := by
    rw [plainSlots, h]
    rfl
  rw [← hplain]
  exact if_neg (by rw [h]; exact Bool.false_ne_true)

theorem commitLead_control {w : Work} {core bank : Nat} {r : Issued} (h : controls r.bundle = true) :
    (w.commitLead core bank r).2 = ((onward (w.runSlots core bank r false [2, 3, 4, 5, 6]) core bank r).setIssue
      { issueFor core bank r false 1 with sure := true }).runSlot := by
  have hplain : plainSlots r.bundle = [2, 3, 4, 5, 6] := by
    rw [plainSlots, h]
    rfl
  rw [← hplain]
  exact if_pos h

-- A core that issues alone
section Alone

variable {w : Work} {core bank : Nat}

theorem busy_of_ready {c : Ctx} (h : c.st = .ready) : c.busy = true := by rw [Ctx.busy, h]

theorem runnable_of_ready {c : Ctx} (h : c.st = .ready) : c.runnable = true := by rw [Ctx.runnable, h]

theorem isEntering_of_ready {c : Ctx} (h : c.st = .ready) : c.isEntering = false := by rw [Ctx.isEntering, h]

theorem woken_of_ready {c : Ctx} (h : c.st = .ready) : c.woken = false := by rw [Ctx.woken, h]

theorem steady_of_ready (h : readyAt w core bank) : steady w [core] bank 0 = true := by
  obtain ⟨hst, hlvl⟩ := h
  simp [steady, hst, hlvl]

theorem presents_lead {rk : Nat → Nat} (hrk : rk core = 0) (hb : (w.ctx core bank).busy = true) (r : Issued) :
    presents rk w [core] bank (some r) = [(0, core, r)] := by
  simp [presents, hb, hrk, Ctx.present]

/-- A lead that runs alone has no follower that issues. -/
theorem presents_followers {rk : Nat → Nat} (hrk : rk core = 0) (x : Option Issued) :
    ((presents rk w [core] bank x).filter fun p => decide (p.1 ≠ 0)) = [] := by
  rw [List.filter_eq_nil_iff]
  intro p hp
  obtain ⟨k, hk, hkp⟩ := List.mem_filterMap.1 hp
  obtain rfl := List.mem_singleton.1 hk
  dsimp only at hkp
  split at hkp
  · obtain ⟨i, -, rfl⟩ := Option.map_eq_some_iff.1 hkp
    simp [hrk]
  · exact nomatch hkp

theorem moveLines_lead {rk : Nat → Nat} (hrk : rk core = 0) (lvl : Nat) (x : Option Issued) :
    w.moveLines rk [core] bank lvl x = w := by
  simp [Work.moveLines, hrk]

/-- The commit of a bundle of a core alone, with no cause to raise for an answer it waited for, is the lead's. -/
theorem commitAll_lead {r : Issued} (hrk : rankIn w [core] bank core = 0) (hb : (w.ctx core bank).busy = true)
    (hover : overAsked w bank [(0, core, r)] = []) :
    w.commitAll [core] bank 0 (some r) =
      limitDistance core bank ((((w.setIssue {}).commitLead core bank r).2.share [core] bank 0).tick [core]) := by
  unfold Work.commitAll
  simp only [List.headD_cons, presents_followers hrk, presents_lead hrk hb, List.foldl_nil, moveLines_lead hrk, hover]
  rfl

theorem firstHold_ok {vs : List (Nat × Verdict)} (h : ∀ v ∈ vs, v.2 = .ok) : firstHold vs = none := by
  induction vs with
  | nil => rfl
  | cons v vs ih =>
    obtain ⟨n, v⟩ := v
    obtain rfl : v = .ok := h _ (List.mem_cons_self ..)
    exact ih fun x hx => h x (List.mem_cons_of_mem _ hx)

theorem firstFault_ok {vs : List (Nat × Verdict)} (h : ∀ v ∈ vs, v.2 = .ok) : firstFault vs = none := by
  induction vs with
  | nil => rfl
  | cons v vs ih =>
    obtain ⟨n, v⟩ := v
    obtain rfl : v = .ok := h _ (List.mem_cons_self ..)
    exact ih fun x hx => h x (List.mem_cons_of_mem _ hx)

theorem bundleHolds_none {r : Issued} (hm : (w.ctx core bank).missing (w.core core).clk = []) (hd : bit r.bundle 31 = false) :
    bundleHolds w [core] bank [(0, core, r)] = [] := by
  simp [bundleHolds, hm, hd]

end Alone

section TakePlace

variable (w : Work) (core bank : Nat) (r : Issued)

theorem ctx_takePlace : (w.takePlace core bank r).ctx core bank =
    { w.ctx core bank with pc := r.pc, loop := r.loop, br := r.br } := ctx_updCtx_same ..

theorem busy_takePlace : ((w.takePlace core bank r).ctx core bank).busy = (w.ctx core bank).busy := by
  rw [ctx_takePlace]
  rfl

theorem rankIn_takePlace : rankIn (w.takePlace core bank r) [core] bank core = rankIn w [core] bank core := by
  unfold rankIn
  rw [ctx_takePlace]
  rfl

end TakePlace

-- The cycle of a core alone

/-- What the issue of a bundle of a core alone leaves of its cycle. -/
def issuedCycle (w : Work) (core bank : Nat) (r : Issued) : Work :=
  limitDistance core bank ((((w.setIssue {}).commitLead core bank r).2.share [core] bank 0).tick [core])

/-- A bundle whose slots neither hold nor fault, and whose landings are there, issues (R215, R226, R418). -/
theorem goOn_issues {v : Work} {core bank : Nat} {r : Issued} (hb : (v.ctx core bank).busy = true)
    (hrk : rankIn v [core] bank core = 0) (hd : bit r.bundle 31 = false)
    (hm : ((v.takePlace core bank r).ctx core bank).missing ((v.takePlace core bank r).core core).clk = [])
    (hclear : ∀ x ∈ slotVerdicts (v.takePlace core bank r) core bank r false, x.2 = .ok)
    (hover : overAsked (v.takePlace core bank r) bank [(0, core, r)] = []) :
    v.goOn [core] bank 0 (some r) = issuedCycle (v.takePlace core bank r) core bank r := by
  have hcommit := commitAll_lead (w := v.takePlace core bank r) ((rankIn_takePlace ..).trans hrk)
    ((busy_takePlace ..).trans hb) hover
  unfold Work.goOn
  simp only [presents_lead hrk hb, List.foldl_cons, List.foldl_nil, bundleHolds_none hm hd, List.map_cons, List.map_nil,
    List.filterMap_cons, List.filterMap_nil, ne_eq, not_true, decide_false, firstHold_ok hclear, firstFault_ok hclear,
    Option.map_none, hcommit]
  rfl

/-- A lead alone whose bundle is there, is no drain bundle and waits at no barrier, goes on to its issue. -/
theorem bundleCycle_front {v : Work} {core bank b : Nat} (hb : (v.ctx core bank).busy = true)
    (hrk : rankIn v [core] bank core = 0) (hnow : startsLater v core = false) (howes : (v.ctx core bank).owes = false)
    (hhere : fetchWaits v core bank (v.ctx core bank).pc = none) (hfront : front v core bank = (v, .ok b))
    (hd : bit b 31 = false) (hsync : hdrSync b = 0) :
    v.bundleCycle [core] bank 0 = v.goOn [core] bank 0 (some ((v.ctx core bank).stands b)) := by
  have hfetch : v.awaitFetch core bank (v.ctx core bank).pc = v := by rw [Work.awaitFetch, hhere]
  unfold Work.bundleCycle
  simp only [List.headD_cons, hb, hrk, hnow, howes, hfetch, hfront, List.any_cons, List.any_nil]
  exact (if_pos hd).trans (if_pos hsync)

theorem bankCycle_ready {v : Work} {core bank : Nat} (h : readyAt v core bank) (hfree : (v.ctx core bank).halt ≠ 2) :
    v.bankCycle [core] bank = v.runCycle [core] bank 0 := by
  obtain ⟨hst, hlvl⟩ := h
  unfold Work.bankCycle
  simp [busy_of_ready hst, runnable_of_ready hst, isEntering_of_ready hst, woken_of_ready hst, hfree, hlvl]

section Cycle

variable {σ : State} {core bank : Nat} {rest : List Nat} {b n : Nat} {i : Instr} {r : Issued} {w : Work}

/-- The turn of the core is taken. -/
def turnTaken (σ : State) (rest : List Nat) : Work := (Work.begin σ).mapDev fun d => { d with turn := rest }

/-- The turn of the core is taken and its clock has counted the cycle. -/
def clockCounted (σ : State) (core : Nat) (rest : List Nat) : Work :=
  (turnTaken σ rest).updCore core fun c => { c with raw := c.raw + 1 }

/-- A core that runs at level 0 before and after the causes of its cycle comes to its bundle. -/
theorem runCycle_steady (hlanded : readyAt (afterLandings σ core bank rest) core bank)
    (hraised : readyAt (beforeBundle σ core bank rest) core bank) :
    (clockCounted σ core rest).runCycle [core] bank 0 = (beforeBundle σ core bank rest).bundleCycle [core] bank 0 :=
  (if_neg (ne_false_of_eq_true (steady_of_ready hlanded))).trans (if_neg (ne_false_of_eq_true (steady_of_ready hraised)))

theorem runStep_turn (hturn : σ.dev.turn = core :: rest) : runStep σ = .next ((turnTaken σ rest).unitCycle core).commit := by
  rw [runStep, hturn]
  rfl

theorem step_turn (hmode : σ.dev.mode = .running) (hturn : σ.dev.turn = core :: rest) :
    step σ = .next ((turnTaken σ rest).unitCycle core).commit := by
  rw [step, hmode]
  exact runStep_turn hturn

theorem unitCycle_settled {v : Work} {q : List Nat} (hm : misaligned v.dev core = false) (hq : unitOf v.dev core = q)
    (hs : (v.coreCycle q).dev.coh.waits = []) : v.unitCycle core = v.coreCycle q := by
  unfold Work.unitCycle
  simp [hm, hq, hs]

theorem unitCycle_waits {v : Work} (hm : misaligned v.dev core = false) (hs : (v.coreCycle (unitOf v.dev core)).dev.coh.waits ≠ []) :
    v.unitCycle core = (unitOf v.dev core).foldl (fun x k => (x.updCore k fun c => { c with raw := c.raw + 1 }).restCycle k)
      (v.settled (v.coreCycle (unitOf v.dev core))) := by
  unfold Work.unitCycle
  simp [hm, hs]

/-- The cycle of a core that is about to issue is the issue of its bundle. -/
theorem coreCycle_aboutToIssue (h : AboutToIssue σ core bank rest b n i r w) :
    (turnTaken σ rest).coreCycle [core] = issuedCycle w core bank r := by
  have hcur : ((clockCounted σ core rest).core core).cur = bank := (congrArg Core.cur (core_updCore_same ..)).trans h.bank_
  have hbank := bankCycle_ready (v := clockCounted σ core rest) h.ready h.free
  have hrun := runCycle_steady h.landed h.raised
  have hb : ((beforeBundle σ core bank rest).ctx core bank).busy = true := busy_of_ready h.raised.1
  obtain ⟨hd, hsync⟩ := h.plain
  have hfront := bundleCycle_front hb h.first h.now h.done h.here h.fetched hd hsync
  have hplace := h.place
  have hgo := goOn_issues (r := r) hb h.first (h.record ▸ hd) (hplace ▸ h.arrived) (hplace ▸ h.clear) (hplace ▸ h.answered)
  calc (turnTaken σ rest).coreCycle [core]
    _ = (clockCounted σ core rest).bankCycle [core] bank := by rw [← hcur]; rfl
    _ = (beforeBundle σ core bank rest).bundleCycle [core] bank 0 := hbank.trans hrun
    _ = (beforeBundle σ core bank rest).goOn [core] bank 0 (some r) := by rw [hfront, ← h.record]
    _ = issuedCycle w core bank r := by rw [hgo, ← hplace]

/-- The step of a core that is about to issue is the issue of its bundle, where nothing then waits for a line. -/
theorem step_aboutToIssue (h : AboutToIssue σ core bank rest b n i r w) (hs : Settled (issuedCycle w core bank r).commit) :
    step σ = .next (issuedCycle w core bank r).commit := by
  have hcycle := coreCycle_aboutToIssue h
  have hunit : (turnTaken σ rest).unitCycle core = issuedCycle w core bank r :=
    (unitCycle_settled h.together h.alone (by rw [hcycle]; exact hs)).trans hcycle
  rw [step_turn h.running h.turn, hunit]

theorem issuedCycle_plain (h : AboutToIssue σ core bank rest b n i r w) (hc : controls b = false) {t : State}
    (hx : exec i (w.setIssue (issueFor core bank r false n)).commit = .next t) :
    (issuedCycle w core bank r).commit = endCycle (onward (Work.begin t) core bank r) core bank := by
  have hbundle : r.bundle = b := by rw [h.record]; rfl
  obtain ⟨X, hX⟩ := runSlots_only h.slot (hbundle ▸ h.decoded) (hbundle ▸ h.only) hx
  rw [issuedCycle, commitLead_plain (hbundle ▸ hc), hX, onward_setIssue]
  rfl

theorem issuedCycle_control (h : AboutToIssue σ core bank rest b 1 i r w) (hc : controls b = true) {t : State}
    (hx : exec i ((onward w core bank r).setIssue { issueFor core bank r false 1 with sure := true }).commit = .next t) :
    (issuedCycle w core bank r).commit = endCycle (Work.begin t) core bank := by
  have hbundle : r.bundle = b := by rw [h.record]; rfl
  have hzero : ∀ m ∈ [2, 3, 4, 5, 6], bundleWord r.bundle m = 0 := fun m hm =>
    hbundle ▸ h.only m (List.mem_cons_of_mem _ hm) (by rintro rfl; exact absurd hm (by decide))
  obtain ⟨X, hX, -, -⟩ := runSlots_nops (w.setIssue {}) core bank r hzero
  have hdec : decodeSlot (slotOf 1) (bundleWord r.bundle 1) = .ok (some i) := hbundle ▸ h.decoded
  have hrun : ((onward w core bank r).setIssue { issueFor core bank r false 1 with sure := true }).runSlot = Work.begin t :=
    runSlot_next hdec hx
  rw [issuedCycle, commitLead_control (hbundle ▸ hc), hX, setIssue_setIssue, onward_setIssue, setIssue_setIssue, hrun]
  rfl

end Cycle

-- A tripped part

theorem firstInput_head {α : Type} {f : Instr → Option α} {i : Instr} {t : List Instr} {x : α} (h : f i = some x) :
    firstInput f (i :: t) = some (x, t) := by rw [firstInput, h]

theorem takeInput_settled {σ : State} {i : Instr} {rest : List Instr} {t : State} (hin : σ.dev.inputs = i :: rest)
    (he : encode i = []) (ht : isTimed i = false) (hx : exec i { σ with dev := { σ.dev with inputs := rest } } = .next t)
    (hs : Settled t) : takeInput σ = .next t := by
  have hfirst : firstInput (fun i => if isTimed i then none else some i) σ.dev.inputs = some (i, rest) :=
    hin ▸ firstInput_head (by rw [ht]; rfl)
  have hwaits : t.dev.coh.waits = [] := hs
  unfold takeInput
  simp only [hfirst, he, hx, hwaits]
  rfl

theorem step_tripped {σ : State} {i : Instr} {rest : List Instr} (hmode : σ.dev.mode = .tripped) (hin : σ.dev.inputs = i :: rest) :
    step σ = takeInput σ := by
  simp only [step, hmode, hin]

theorem step_tripped_nothing {σ : State} (hmode : σ.dev.mode = .tripped) (hin : σ.dev.inputs = []) :
    step σ = .fault .thermalTrip := by
  simp only [step, hmode, hin]

/-- Settles O37: the cycle of a core that is about to issue is the run of its bundle, whose other slots are nops. -/
theorem stepRunsDecoded : Obligations.StepRunsDecoded := by
  unfold Obligations.StepRunsDecoded
  refine ⟨?plain, ?control, ?refusal, ?waits, ?event, ?nothing⟩
  case plain =>
    intro σ core bank rest b n i r w t h hc hx hs
    have hend := issuedCycle_plain h hc hx
    rw [step_aboutToIssue h (hend ▸ hs), hend]
  case control =>
    intro σ core bank rest b i r w t h hc hx hs
    have hend := issuedCycle_control h hc hx
    rw [step_aboutToIssue h (hend ▸ hs), hend]
  case refusal =>
    intro w hp e hd
    exact runSlot_refused hp hd
  case waits =>
    intro σ core rest hmode hturn _ w q hm hs
    exact (step_turn hmode hturn).trans (Sys2Proof.Proofs.SchedulerEvents.next_of_eq (unitCycle_waits hm hs))
  case event =>
    intro σ i rest t hmode hin he ht hx hs
    exact (step_tripped hmode hin).trans (takeInput_settled hin he ht hx hs)
  case nothing =>
    intro σ hmode hin
    exact step_tripped_nothing hmode hin

end Sys2Proof.Proofs.StepRuns

end
